-- ==== Sys2Proof/Word.lean ====
section
/-! DEFINITION. The word types of the manual (00 R2, 04 R52) and their plainest readings. -/

namespace Sys2Proof

/-- A 64-bit x register, address or state register (04 R52). -/
abbrev Word := BitVec 64

/-- One byte of memory. -/
abbrev Byte := BitVec 8

/-- A register number x0-x31 or v0-v31 as a field of an encoding (15 R283). -/
abbrev Reg := BitVec 5

/-- A mask register number m0-m7. -/
abbrev MReg := BitVec 3

/-- The two hart slots of a front (02 R10): the A-slot holds the access hart, the E-slot the execute hart or a SOLO
hart. -/
inductive Slot where
  | a | e
  deriving DecidableEq, Repr, Inhabited

end Sys2Proof
end

