-- ==== Sys2Proof/Syntax.lean ====
section
/-! DEFINITION. The instruction set as syntax (15 R291, R292, R301; 10 R198): one constructor for each row of the
opcode table. The encoded rows keep the table's field letters, highest bits first: `p` and `q` are the empty policies of
A and B (R285), `m` the mask bit VM, `g` MODE, `a` `b` `d` register fields. TOFF and TZERO have one constructor for each
tile and TPRED one for each x register (Lean allows no more than 244 constructors that carry fields). The last block holds the rows that are steps of the
device and have no encoding (95_what_each_step_holds.md): what such a step is about (a front, a mailbox slot, a value)
stands in the state's `arg`. -/

namespace Sys2Proof

/-- The instructions and device steps of the opcode table. -/
inductive Instr where
  /-- ADD: R326. -/
  | add (p q : Bool) (b a d : Reg)
  /-- SUB: R391. -/
  | sub (p q : Bool) (b a d : Reg)
  /-- AND: R329. -/
  | and (p q : Bool) (b a d : Reg)
  /-- OR: R369. -/
  | or (p q : Bool) (b a d : Reg)
  /-- XOR: R468. -/
  | xor (p q : Bool) (b a d : Reg)
  /-- SHL: R381. -/
  | shl (p q : Bool) (b a d : Reg)
  /-- SHR: R381. -/
  | shr (p q : Bool) (b a d : Reg)
  /-- SHA: R381. -/
  | sha (p q : Bool) (b a d : Reg)
  /-- SLT: R382. -/
  | slt (p q : Bool) (b a d : Reg)
  /-- SLTW: R382. -/
  | sltw (p q : Bool) (b a d : Reg)
  /-- MIN: R362. -/
  | min (p q : Bool) (b a d : Reg)
  /-- MAX: R362. -/
  | max (p q : Bool) (b a d : Reg)
  /-- MINW: R362. -/
  | minw (p q : Bool) (b a d : Reg)
  /-- MAXW: R362. -/
  | maxw (p q : Bool) (b a d : Reg)
  /-- SCADD: R375. -/
  | scadd (p q : Bool) (s : BitVec 2) (b a d : Reg)
  /-- CLZ: R336. -/
  | clz (p : Bool) (a d : Reg)
  /-- CTZ: R336. -/
  | ctz (p : Bool) (a d : Reg)
  /-- POPC: R371. -/
  | popc (p : Bool) (a d : Reg)
  /-- MUL: R367. -/
  | mul (p q : Bool) (b a d : Reg)
  /-- MULH: R367. -/
  | mulh (p q : Bool) (b a d : Reg)
  /-- MULHW: R367. -/
  | mulhw (p q : Bool) (b a d : Reg)
  /-- DIV: R337. -/
  | div (p q : Bool) (b a d : Reg)
  /-- DIVW: R337. -/
  | divw (p q : Bool) (b a d : Reg)
  /-- REM: R373. -/
  | rem (p q : Bool) (b a d : Reg)
  /-- REMW: R373. -/
  | remw (p q : Bool) (b a d : Reg)
  /-- ADDI: R326. -/
  | addi (i : BitVec 14) (a d : Reg)
  /-- ANDI: R329. -/
  | andi (i : BitVec 14) (a d : Reg)
  /-- ORI: R369. -/
  | ori (i : BitVec 14) (a d : Reg)
  /-- XORI: R468. -/
  | xori (i : BitVec 14) (a d : Reg)
  /-- SHLI: R381. -/
  | shli (s : BitVec 6) (a d : Reg)
  /-- SHRI: R381. -/
  | shri (s : BitVec 6) (a d : Reg)
  /-- SHAI: R381. -/
  | shai (s : BitVec 6) (a d : Reg)
  /-- SLTI: R382. -/
  | slti (i : BitVec 14) (a d : Reg)
  /-- UPI: R405. -/
  | upi (i : BitVec 19) (d : Reg)
  /-- AUPC: R330. -/
  | aupc (i : BitVec 19) (d : Reg)
  /-- LD: R361. -/
  | ld (i : BitVec 10) (e : Bool) (s : BitVec 3) (a d : Reg)
  /-- ST: R390. -/
  | st (i : BitVec 10) (e : Bool) (s : BitVec 2) (a d : Reg)
  /-- BEQ: R331. -/
  | beq (o : BitVec 14) (b a : Reg)
  /-- BNE: R331. -/
  | bne (o : BitVec 14) (b a : Reg)
  /-- BLT: R331. -/
  | blt (o : BitVec 14) (b a : Reg)
  /-- BGE: R331. -/
  | bge (o : BitVec 14) (b a : Reg)
  /-- BLTW: R331. -/
  | bltw (o : BitVec 14) (b a : Reg)
  /-- BGEW: R331. -/
  | bgew (o : BitVec 14) (b a : Reg)
  /-- JAL: R358. -/
  | jal (i : BitVec 19) (d : Reg)
  /-- JALR: R358. -/
  | jalr (i : BitVec 14) (a d : Reg)
  /-- FADD: R344. -/
  | fadd (p q : Bool) (s : BitVec 2) (b a d : Reg)
  /-- FSUB: R355. -/
  | fsub (p q : Bool) (s : BitVec 2) (b a d : Reg)
  /-- FMUL: R352. -/
  | fmul (p q : Bool) (s : BitVec 2) (b a d : Reg)
  /-- FDIV: R349. -/
  | fdiv (p q : Bool) (s : BitVec 2) (b a d : Reg)
  /-- FSQRT: R354. -/
  | fsqrt (p : Bool) (s : BitVec 2) (a d : Reg)
  /-- FMIN: R351. -/
  | fmin (p q : Bool) (s : BitVec 2) (b a d : Reg)
  /-- FMAX: R351. -/
  | fmax (p q : Bool) (s : BitVec 2) (b a d : Reg)
  /-- FCMP: R346. -/
  | fcmp (p q : Bool) (s : BitVec 2) (b a : Reg) (c : BitVec 2) (d : BitVec 3)
  /-- FCVT: R348. -/
  | fcvt (p : Bool) (s : BitVec 2) (b a d : Reg)
  /-- FCLASS: R345. -/
  | fclass (p : Bool) (s : BitVec 2) (a d : Reg)
  /-- FMA: R350. -/
  | fma (p q : Bool) (s : BitVec 2) (b a d : Reg)
  /-- AMO: R327. -/
  | amo (p q s : Bool) (f b a d : Reg)
  /-- CAS: R334. -/
  | cas (p q s : Bool) (b a d : Reg)
  /-- TRAP: R400. -/
  | trap (p : Bool) (a : Reg)
  /-- IDLE: R356. -/
  | idle (p q : Bool) (b a d : Reg)
  /-- FREEZE: R353. -/
  | freeze (p : Bool) (a : Reg)
  /-- THAW: R394. -/
  | thaw (p : Bool) (a : Reg)
  /-- SCANRD: R376. -/
  | scanrd (p q : Bool) (b a d : Reg)
  /-- TLBINV: R395. -/
  | tlbinv (p q : Bool) (b a : Reg)
  /-- VPMSET: R442. -/
  | vpmset (p q : Bool) (b a : Reg)
  /-- VPMINV: R442. -/
  | vpminv (p q : Bool) (b a : Reg)
  /-- SRD: R387. -/
  | srd (n : BitVec 12) (d : Reg)
  /-- SWR: R392. -/
  | swr (n : BitVec 12) (a d : Reg)
  /-- SSET: R389. -/
  | sset (n : BitVec 12) (a d : Reg)
  /-- SCLR: R377. -/
  | sclr (n : BitVec 12) (a d : Reg)
  /-- SPAWN: R383. -/
  | spawn (p q : Bool) (b a : Reg)
  /-- JOIN: R359. -/
  | join (p : Bool) (a d : Reg)
  /-- LAUNCH: R360. -/
  | launch (p q : Bool) (b a d : Reg)
  /-- WITHDRAW: R466. -/
  | withdraw (p q : Bool) (b a d : Reg)
  /-- CLAIM: R335. -/
  | claim (p q : Bool) (b a d : Reg)
  /-- WMPUB: R467. -/
  | wmpub (p q : Bool) (b a : Reg)
  /-- QSYNC: R372. -/
  | qsync (p : Bool) (a d : Reg)
  /-- PIN: R370. -/
  | pin (p q : Bool) (b a : Reg)
  /-- UNPIN: R404. -/
  | unpin (p : Bool) (a : Reg)
  /-- SETVL: R378. -/
  | setvl (p : Bool) (a d : Reg)
  /-- SETVLW: R378. -/
  | setvlw (p q : Bool) (b a d : Reg)
  /-- SETVLRE: R378. -/
  | setvlre (p q : Bool) (b a d : Reg)
  /-- VLOOP: R432. -/
  | vloop (p : Bool) (a n : Reg)
  /-- SETVT: R379. -/
  | setvt (v : BitVec 9)
  /-- WAITV: R465. -/
  | waitv (p q m g : Bool) (b a d : Reg)
  /-- VIEWNEW: R425. -/
  | viewnew (p q : Bool) (b a d : Reg)
  /-- VIEWSPLIT: R427. -/
  | viewsplit (p q : Bool) (b a d : Reg)
  /-- NARROW: R368. -/
  | narrow (p q : Bool) (b a d : Reg)
  /-- VIEWDROP: R424. -/
  | viewdrop (p : Bool) (a : Reg)
  /-- VIEWQ: R426. -/
  | viewq (p q : Bool) (b a d : Reg)
  /-- SPECB: R384. -/
  | specb (p q : Bool) (b a d : Reg)
  /-- SPECQ: R385. -/
  | specq (p q : Bool) (b a d : Reg)
  /-- SPECX: R386. -/
  | specx (p : Bool) (a : Reg)
  /-- VADD_VR: R407. -/
  | vaddVr (p q m : Bool) (b a d : Reg)
  /-- VADD_VX: R407. -/
  | vaddVx (p q m : Bool) (b a d : Reg)
  /-- VADD_VI: R407. -/
  | vaddVi (p m : Bool) (i a d : Reg)
  /-- VSUB_VR: R460. -/
  | vsubVr (p q m : Bool) (b a d : Reg)
  /-- VSUB_VX: R460. -/
  | vsubVx (p q m : Bool) (b a d : Reg)
  /-- VSUB_VI: R460. -/
  | vsubVi (p m : Bool) (i a d : Reg)
  /-- VMUL_VR: R435. -/
  | vmulVr (p q m : Bool) (b a d : Reg)
  /-- VMUL_VX: R435. -/
  | vmulVx (p q m : Bool) (b a d : Reg)
  /-- VMUL_VI: R435. -/
  | vmulVi (p m : Bool) (i a d : Reg)
  /-- VMULH_VR: R435. -/
  | vmulhVr (p q m g : Bool) (b a d : Reg)
  /-- VMULH_VX: R435. -/
  | vmulhVx (p q m g : Bool) (b a d : Reg)
  /-- VMULH_VI: R435. -/
  | vmulhVi (p m g : Bool) (i a d : Reg)
  /-- VDIV_VR: R413. -/
  | vdivVr (p q m g : Bool) (b a d : Reg)
  /-- VDIV_VX: R413. -/
  | vdivVx (p q m g : Bool) (b a d : Reg)
  /-- VDIV_VI: R413. -/
  | vdivVi (p m g : Bool) (i a d : Reg)
  /-- VREM_VR: R448. -/
  | vremVr (p q m g : Bool) (b a d : Reg)
  /-- VREM_VX: R448. -/
  | vremVx (p q m g : Bool) (b a d : Reg)
  /-- VREM_VI: R448. -/
  | vremVi (p m g : Bool) (i a d : Reg)
  /-- VMIN_VR: R433. -/
  | vminVr (p q m g : Bool) (b a d : Reg)
  /-- VMIN_VX: R433. -/
  | vminVx (p q m g : Bool) (b a d : Reg)
  /-- VMIN_VI: R433. -/
  | vminVi (p m g : Bool) (i a d : Reg)
  /-- VMAX_VR: R433. -/
  | vmaxVr (p q m g : Bool) (b a d : Reg)
  /-- VMAX_VX: R433. -/
  | vmaxVx (p q m g : Bool) (b a d : Reg)
  /-- VMAX_VI: R433. -/
  | vmaxVi (p m g : Bool) (i a d : Reg)
  /-- VAND_VR: R408. -/
  | vandVr (p q m : Bool) (b a d : Reg)
  /-- VAND_VX: R408. -/
  | vandVx (p q m : Bool) (b a d : Reg)
  /-- VAND_VI: R408. -/
  | vandVi (p m : Bool) (i a d : Reg)
  /-- VOR_VR: R438. -/
  | vorVr (p q m : Bool) (b a d : Reg)
  /-- VOR_VX: R438. -/
  | vorVx (p q m : Bool) (b a d : Reg)
  /-- VOR_VI: R438. -/
  | vorVi (p m : Bool) (i a d : Reg)
  /-- VXOR_VR: R464. -/
  | vxorVr (p q m : Bool) (b a d : Reg)
  /-- VXOR_VX: R464. -/
  | vxorVx (p q m : Bool) (b a d : Reg)
  /-- VXOR_VI: R464. -/
  | vxorVi (p m : Bool) (i a d : Reg)
  /-- VSHL_VR: R454. -/
  | vshlVr (p q m : Bool) (b a d : Reg)
  /-- VSHL_VX: R454. -/
  | vshlVx (p q m : Bool) (b a d : Reg)
  /-- VSHL_VI: R454. -/
  | vshlVi (p m : Bool) (i a d : Reg)
  /-- VSHR_VR: R454. -/
  | vshrVr (p q m : Bool) (b a d : Reg)
  /-- VSHR_VX: R454. -/
  | vshrVx (p q m : Bool) (b a d : Reg)
  /-- VSHR_VI: R454. -/
  | vshrVi (p m : Bool) (i a d : Reg)
  /-- VSHA_VR: R454. -/
  | vshaVr (p q m : Bool) (b a d : Reg)
  /-- VSHA_VX: R454. -/
  | vshaVx (p q m : Bool) (b a d : Reg)
  /-- VSHA_VI: R454. -/
  | vshaVi (p m : Bool) (i a d : Reg)
  /-- VSADD_VR: R450. -/
  | vsaddVr (p q m g : Bool) (b a d : Reg)
  /-- VSADD_VX: R450. -/
  | vsaddVx (p q m g : Bool) (b a d : Reg)
  /-- VSADD_VI: R450. -/
  | vsaddVi (p m g : Bool) (i a d : Reg)
  /-- VSSUB_VR: R450. -/
  | vssubVr (p q m g : Bool) (b a d : Reg)
  /-- VSSUB_VX: R450. -/
  | vssubVx (p q m g : Bool) (b a d : Reg)
  /-- VSSUB_VI: R450. -/
  | vssubVi (p m g : Bool) (i a d : Reg)
  /-- VWMUL_VR: R463. -/
  | vwmulVr (p q m g : Bool) (b a d : Reg)
  /-- VWMUL_VX: R463. -/
  | vwmulVx (p q m g : Bool) (b a d : Reg)
  /-- VWMUL_VI: R463. -/
  | vwmulVi (p m g : Bool) (i a d : Reg)
  /-- VWMACC_VR: R463. -/
  | vwmaccVr (p q m g : Bool) (b a d : Reg)
  /-- VWMACC_VX: R463. -/
  | vwmaccVx (p q m g : Bool) (b a d : Reg)
  /-- VWMACC_VI: R463. -/
  | vwmaccVi (p m g : Bool) (i a d : Reg)
  /-- VNSHR_VR: R437. -/
  | vnshrVr (p q m g : Bool) (b a d : Reg)
  /-- VNSHR_VX: R437. -/
  | vnshrVx (p q m g : Bool) (b a d : Reg)
  /-- VNSHR_VI: R437. -/
  | vnshrVi (p m g : Bool) (i a d : Reg)
  /-- VCMP: R411. -/
  | vcmp (p q m : Bool) (c b a : Reg) (d : BitVec 3)
  /-- VBLEND: R409. -/
  | vblend (p q : Bool) (b a d : Reg)
  /-- VMV: R436. -/
  | vmv (p m : Bool) (a d : Reg)
  /-- VSLIDE: R455. -/
  | vslide (p q m u : Bool) (b a d : Reg)
  /-- VPICK: R441. -/
  | vpick (p q m : Bool) (b a d : Reg)
  /-- VPREPOP: R445. -/
  | vprepop (m : Bool) (a : BitVec 3) (d : Reg)
  /-- VPACKM: R439. -/
  | vpackm (p : Bool) (k : BitVec 3) (a d : Reg)
  /-- VSPREAD: R457. -/
  | vspread (p : Bool) (k : BitVec 3) (a d : Reg)
  /-- VCONF: R412. -/
  | vconf (p m l : Bool) (a : Reg) (d : BitVec 3)
  /-- VSCAN: R452. -/
  | vscan (p m : Bool) (b a d : Reg)
  /-- VRED: R447. -/
  | vred (p m : Bool) (b a d : Reg)
  /-- VREDO: R447. -/
  | vredo (p m : Bool) (b a d : Reg)
  /-- VPOPC: R444. -/
  | vpopc (m : Bool) (a : BitVec 3) (d : Reg)
  /-- VFIRST: R419. -/
  | vfirst (m : Bool) (a : BitVec 3) (d : Reg)
  /-- MLOG: R364. -/
  | mlog (m : Bool) (o b a d : BitVec 3)
  /-- MMOV_MASK: R365. -/
  | mmovMask (m : Bool) (a d : BitVec 3)
  /-- MMOV_FROM_VECTOR: R365. -/
  | mmovFromVector (p m : Bool) (a : Reg) (d : BitVec 3)
  /-- MMOV_TO_VECTOR: R365. -/
  | mmovToVector (m : Bool) (a : BitVec 3) (d : Reg)
  /-- VFADD_VR: R415. -/
  | vfaddVr (p q m : Bool) (b a d : Reg)
  /-- VFADD_VX: R415. -/
  | vfaddVx (p q m : Bool) (b a d : Reg)
  /-- VFSUB_VR: R423. -/
  | vfsubVr (p q m : Bool) (b a d : Reg)
  /-- VFSUB_VX: R423. -/
  | vfsubVx (p q m : Bool) (b a d : Reg)
  /-- VFMUL_VR: R422. -/
  | vfmulVr (p q m : Bool) (b a d : Reg)
  /-- VFMUL_VX: R422. -/
  | vfmulVx (p q m : Bool) (b a d : Reg)
  /-- VFDIV_VR: R418. -/
  | vfdivVr (p q m : Bool) (b a d : Reg)
  /-- VFDIV_VX: R418. -/
  | vfdivVx (p q m : Bool) (b a d : Reg)
  /-- VFMA_VR: R420. -/
  | vfmaVr (p q m : Bool) (b a d : Reg)
  /-- VFMA_VX: R420. -/
  | vfmaVx (p q m : Bool) (b a d : Reg)
  /-- VFMIN_VR: R421. -/
  | vfminVr (p q m : Bool) (b a d : Reg)
  /-- VFMIN_VX: R421. -/
  | vfminVx (p q m : Bool) (b a d : Reg)
  /-- VFMAX_VR: R421. -/
  | vfmaxVr (p q m : Bool) (b a d : Reg)
  /-- VFMAX_VX: R421. -/
  | vfmaxVx (p q m : Bool) (b a d : Reg)
  /-- VFCMP_VR: R416. -/
  | vfcmpVr (p q m : Bool) (b a : Reg) (c : BitVec 2) (d : BitVec 3)
  /-- VFCMP_VX: R416. -/
  | vfcmpVx (p q m : Bool) (b a : Reg) (c : BitVec 2) (d : BitVec 3)
  /-- VFCVT: R417. -/
  | vfcvt (p m w : Bool) (b a d : Reg)
  /-- VSCACC_VR: R451. -/
  | vscaccVr (p q m g : Bool) (b a d : Reg)
  /-- VSCACC_VX: R451. -/
  | vscaccVx (p q m g : Bool) (b a d : Reg)
  /-- VSF: R453. -/
  | vsf (p m : Bool) (f a d : Reg)
  /-- VLD: R430. -/
  | vld (p m e f l : Bool) (b a d : Reg)
  /-- VLDS: R430. -/
  | vlds (p q m e f l : Bool) (b a d : Reg)
  /-- VST: R458. -/
  | vst (p m e l : Bool) (b a d : Reg)
  /-- VSTS: R458. -/
  | vsts (p q m e l : Bool) (b a d : Reg)
  /-- VLDQ: R431. -/
  | vldq (p e l : Bool) (b a : Reg) (n : BitVec 2)
  /-- VSTQ: R459. -/
  | vstq (p e l : Bool) (b a : Reg) (n : BitVec 2)
  /-- VSORT: R456. -/
  | vsort (p g : Bool) (k : BitVec 2) (r : Bool) (a d : Reg)
  /-- VMERGE: R434. -/
  | vmerge (p q g : Bool) (b a d : Reg)
  /-- VMERGEC: R434. -/
  | vmergec (p q g : Bool) (b a d : Reg)
  /-- VINTER: R428. -/
  | vinter (p q g : Bool) (b a d : Reg)
  /-- VUNIQ: R461. -/
  | vuniq (p g : Bool) (a d : Reg)
  /-- VRANK: R446. -/
  | vrank (p q m g : Bool) (b a d : Reg)
  /-- VPART: R440. -/
  | vpart (p q g : Bool) (b a d : Reg)
  /-- VRUN: R449. -/
  | vrun (g : Bool) (k : BitVec 2) (r : Bool) (d : Reg)
  /-- VRUN_LEN: R449. -/
  | vrunLen (p : Bool) (a d : Reg)
  /-- VUNRUN: R462. -/
  | vunrun (d : Reg)
  /-- EISSUE: R338. -/
  | eissue (p q m : Bool) (b a : Reg) (k : BitVec 3)
  /-- EWAIT: R341. -/
  | ewait (p q : Bool) (b a : Reg)
  /-- ESEQ: R340. -/
  | eseq (p : Bool) (a d : Reg)
  /-- EPUB: R339. -/
  | epub (p q : Bool) (b a : Reg)
  /-- SGATH: R380. -/
  | sgath (p q m : Bool) (b a d : Reg)
  /-- SSCAT: R388. -/
  | sscat (p q m g : Bool) (b a d : Reg)
  /-- C_MV: R301. -/
  | cMv (b d : Reg)
  /-- C_ADD: R301. -/
  | cAdd (b d : Reg)
  /-- C_SUB: R301. -/
  | cSub (b d : Reg)
  /-- C_AND: R301. -/
  | cAnd (b d : Reg)
  /-- C_OR: R301. -/
  | cOr (b d : Reg)
  /-- C_XOR: R301. -/
  | cXor (b d : Reg)
  /-- C_SHLI: R301. -/
  | cShli (i d : Reg)
  /-- C_SHRI: R301. -/
  | cShri (i d : Reg)
  /-- C_ADDI: R301. -/
  | cAddi (i d : Reg)
  /-- C_MUL: R301. -/
  | cMul (b d : Reg)
  /-- C_FADD: R301. -/
  | cFadd (b d : Reg)
  /-- C_FMUL: R301. -/
  | cFmul (b d : Reg)
  /-- C_FMA: R301. -/
  | cFma (b d : Reg)
  /-- C_LD: R301. -/
  | cLd (i d : Reg)
  /-- C_ST: R301. -/
  | cSt (i d : Reg)
  /-- C_VADD: R301. -/
  | cVadd (b d : Reg)
  /-- C_VSUB: R301. -/
  | cVsub (b d : Reg)
  /-- C_VMUL: R301. -/
  | cVmul (b d : Reg)
  /-- C_VFADD: R301. -/
  | cVfadd (b d : Reg)
  /-- C_VFSUB: R301. -/
  | cVfsub (b d : Reg)
  /-- C_VFMUL: R301. -/
  | cVfmul (b d : Reg)
  /-- C_VFMA: R301. -/
  | cVfma (b d : Reg)
  /-- C_VMAX: R301. -/
  | cVmax (b d : Reg)
  /-- C_VFMAX: R301. -/
  | cVfmax (b d : Reg)
  /-- C_VAND: R301. -/
  | cVand (b d : Reg)
  /-- C_VXOR: R301. -/
  | cVxor (b d : Reg)
  /-- C_VMV: R301. -/
  | cVmv (b d : Reg)
  /-- TCFG: R393. -/
  | tcfg (fmt ta : BitVec 3)
  /-- MOPA: R366. -/
  | mopa (fmt ta : BitVec 3) (va vb : Reg)
  /-- TSACC: R401. `sf` is SFMT: false E8, true F32. -/
  | tsacc (sf : Bool) (ta tb : BitVec 3) (vsa vsb : Reg)
  /-- TMOVR: R397. -/
  | tmovr (vd : Reg) (ta : BitVec 3) (xa : Reg) (sl : BitVec 8)
  /-- TMOVC: R397. -/
  | tmovc (vd : Reg) (ta : BitVec 3) (xa : Reg) (sl : BitVec 8)
  /-- TLD: R396. -/
  | tld (ta : BitVec 3) (xa : Reg) (sl : BitVec 8)
  /-- TST: R402. -/
  | tst (ta : BitVec 3) (xa : Reg) (sl : BitVec 8)
  -- Instructions without fields
  /-- RETT: R374. -/
  | rett
  /-- BREAK: R333. -/
  | brk
  /-- IFLUSH: R357. -/
  | iflush
  /-- EXIT: R342. -/
  | exit
  /-- YIELD: R469. -/
  | yield
  /-- TOFF of tile t0: R398. -/
  | toff0
  /-- TOFF of tile t1: R398. -/
  | toff1
  /-- TOFF of tile t2: R398. -/
  | toff2
  /-- TOFF of tile t3: R398. -/
  | toff3
  /-- TOFF of tile t4: R398. -/
  | toff4
  /-- TOFF of tile t5: R398. -/
  | toff5
  /-- TOFF of tile t6: R398. -/
  | toff6
  /-- TOFF of tile t7: R398. -/
  | toff7
  /-- TZERO of tile t0: R403. -/
  | tzero0
  /-- TZERO of tile t1: R403. -/
  | tzero1
  /-- TZERO of tile t2: R403. -/
  | tzero2
  /-- TZERO of tile t3: R403. -/
  | tzero3
  /-- TZERO of tile t4: R403. -/
  | tzero4
  /-- TZERO of tile t5: R403. -/
  | tzero5
  /-- TZERO of tile t6: R403. -/
  | tzero6
  /-- TZERO of tile t7: R403. -/
  | tzero7
  /-- TPRED of x0: R399. -/
  | tpred0
  /-- TPRED of x1: R399. -/
  | tpred1
  /-- TPRED of x2: R399. -/
  | tpred2
  /-- TPRED of x3: R399. -/
  | tpred3
  /-- TPRED of x4: R399. -/
  | tpred4
  /-- TPRED of x5: R399. -/
  | tpred5
  /-- TPRED of x6: R399. -/
  | tpred6
  /-- TPRED of x7: R399. -/
  | tpred7
  /-- TPRED of x8: R399. -/
  | tpred8
  /-- TPRED of x9: R399. -/
  | tpred9
  /-- TPRED of x10: R399. -/
  | tpred10
  /-- TPRED of x11: R399. -/
  | tpred11
  /-- TPRED of x12: R399. -/
  | tpred12
  /-- TPRED of x13: R399. -/
  | tpred13
  /-- TPRED of x14: R399. -/
  | tpred14
  /-- TPRED of x15: R399. -/
  | tpred15
  /-- TPRED of x16: R399. -/
  | tpred16
  /-- TPRED of x17: R399. -/
  | tpred17
  /-- TPRED of x18: R399. -/
  | tpred18
  /-- TPRED of x19: R399. -/
  | tpred19
  /-- TPRED of x20: R399. -/
  | tpred20
  /-- TPRED of x21: R399. -/
  | tpred21
  /-- TPRED of x22: R399. -/
  | tpred22
  /-- TPRED of x23: R399. -/
  | tpred23
  /-- TPRED of x24: R399. -/
  | tpred24
  /-- TPRED of x25: R399. -/
  | tpred25
  /-- TPRED of x26: R399. -/
  | tpred26
  /-- TPRED of x27: R399. -/
  | tpred27
  /-- TPRED of x28: R399. -/
  | tpred28
  /-- TPRED of x29: R399. -/
  | tpred29
  /-- TPRED of x30: R399. -/
  | tpred30
  /-- TPRED of x31: R399. -/
  | tpred31
  -- Steps of the device
  /-- DISPATCH: R42. The dispatcher serves idle front `front`. -/
  | dispatch
  /-- BOUNDARY_PREEMPTION: R252, of the CR on `front`. -/
  | boundaryPreemption
  /-- ABORT_PREEMPTION: R253, of the CR on `front`. -/
  | abortPreemption
  /-- ASYNC_TRAP_DELIVERY: R248, to a hart slot. -/
  | asyncTrapDelivery
  /-- STORE_QUEUE_STORE: R65, of the pair at the head of queue `q`. -/
  | storeQueueStore
  /-- SETVLW_SATISFIED: R163. -/
  | setvlwSatisfied
  /-- WMSTALL: R163. -/
  | wmstall
  /-- WAITV_WAKE: R165. -/
  | waitvWake
  /-- WAITV_TIMEOUT: R165. -/
  | waitvTimeout
  /-- EWAIT_REACHED: R172. -/
  | ewaitReached
  /-- EPUB_PUBLISH: R160. -/
  | epubPublish
  /-- SPECQ_RETURN: R239. -/
  | specqReturn
  /-- IDLE_WAKE: R356. -/
  | idleWake
  /-- IDLE_TIMEOUT: R356. -/
  | idleTimeout
  /-- COPY: R178. `n` units of entry `k` of the front's copy chain. -/
  | copy
  /-- FILL: R178. -/
  | fill
  /-- CVT: R179. -/
  | cvt
  /-- ROT: R180. -/
  | rot
  /-- MACC: R212. `n` K-steps of the matrix command at the head of the front's chain. -/
  | macc
  /-- MLOAD: R212. -/
  | mload
  /-- MSTORE: R212. -/
  | mstore
  /-- FOLLOW_ON_START: R187, of the matrix command at the head of the front's chain. -/
  | followOnStart
  /-- MATVEC: R215. `n` rows of entry `k` of the front's Rhizoid chain. -/
  | matvec
  /-- COMMAND_COMPLETE: R181, of the command at the head of chain `sel` (0 copy, 1 matrix, 2 Rhizoid). -/
  | commandComplete
  /-- ENGINE_RETRY: R183, of the faulted entry `k` of chain `sel`. -/
  | engineRetry
  /-- SGATH_COMPLETE: R191, of the gather that fills swatch `sw` of a core. -/
  | sgathComplete
  /-- SSCAT_COMPLETE: R192. -/
  | sscatComplete
  /-- GAUGE_CHECK: R235. -/
  | gaugeCheck
  /-- TICKET_COMMIT: R236. -/
  | ticketCommit
  /-- SQUASH_REQUEUE: R237. -/
  | squashRequeue
  /-- SRAM_ERROR: R278. `fatal` marks an uncorrectable error. -/
  | sramError
  /-- HOST_READ: R263, of `size` bytes at HDM offset `off`. -/
  | hostRead
  /-- HOST_WRITE: R263. -/
  | hostWrite
  /-- HOST_LAUNCH: R268, of the request in mailbox slot `slot`. -/
  | hostLaunch
  /-- PUSH: R268. -/
  | push
  /-- HOST_WITHDRAW: R268. -/
  | hostWithdraw
  /-- HOST_FREEZE: R268. -/
  | hostFreeze
  /-- HOST_THAW: R268. -/
  | hostThaw
  /-- CHECKPOINT: R271. -/
  | checkpoint
  /-- CHECKPOINT_ACKNOWLEDGED: R271. -/
  | checkpointAcknowledged
  /-- RESTORE: R273. -/
  | restore
  /-- PEERCOPY: R270, on the sending device. -/
  | peercopy
  /-- PEERCOPY_RECEIVE: R270, on the receiving device: the record and the source bytes that travelled. -/
  | peercopyReceive
  /-- ATTEST: R276. -/
  | attest
  /-- RECOVER: R275. `image` is what the host window holds. -/
  | recover
  /-- BADOP: R268. -/
  | badop
  /-- RBQ_WRITE: R267. -/
  | rbqWrite
  /-- RBT_WRITE: R267. -/
  | rbtWrite
  /-- HOST_REGISTER_WRITE: R267, of the 8 bytes (4 at the doorbell) at BAR0 offset `off`. -/
  | hostRegisterWrite
  /-- LANEMAP_WRITE: R59, by the current hart. -/
  | lanemapWrite
  /-- LPART_WRITE: R58. -/
  | lpartWrite
  /-- VPMCTL_WRITE: R126. -/
  | vpmctlWrite
  /-- SWD_WRITE: R137. -/
  | swdWrite
  /-- RAD_WRITE: R66. -/
  | radWrite
  /-- FRM_WRITE: R90. -/
  | frmWrite
  /-- KVBLK_WRITE: R218. -/
  | kvblkWrite
  /-- CTX_ROOT_WRITE: R129. -/
  | ctxRootWrite
  /-- CONTEXT_REGISTER_WRITE: R242. -/
  | contextRegisterWrite
  /-- STATE_REGISTER_WRITE: R296. -/
  | stateRegisterWrite
  /-- MODULE_RESET: R274. -/
  | moduleReset
  /-- THERMAL_TRIP: R277, on `die`. -/
  | thermalTrip
  /-- POWER_CAP: R277: module power stands above the cap (`above`) or no longer does. -/
  | powerCap
  /-- NOT_AN_INSTRUCTION: R304. `bits` are the fetched bits as R243 gives them. -/
  | notAnInstruction
  /-- FETCH_FAULT: R281, of the hart's next instruction: what step finds when it fetches. -/
  | fetchFault
  /-- EVENT_SLOT_FREE: R269. -/
  | eventSlotFree
  deriving DecidableEq, Repr

end Sys2Proof
end

