-- ==== Sys2Proof/WellFormed.lean ====
section
/-! DEFINITION. Which instructions are well formed: the conditions on fields alone whose breach is no instruction
(15 R304). -/

namespace Sys2Proof

/-- The vtype values that SETVT accepts (04 R54, R55): SEW in [2:0], FMT in [4:3]. -/
def vtypeLegal (v : BitVec 9) : Bool :=
  let sew := v.extractLsb' 0 3
  let fmt := v.extractLsb' 3 2
  if sew = 1#3 ∨ sew = 2#3 then fmt.toNat ≤ 1
  else if sew = 0#3 ∨ sew = 3#3 ∨ sew = 4#3 then fmt = 0#2
  else false

/-- The state register numbers that 15 R295 allocates. -/
def stateAllocated (sn : BitVec 12) : Bool :=
  let n := sn.toNat
  n ≤ 0x015 || (0x020 ≤ n && n ≤ 0x03F) || (0x080 ≤ n && n ≤ 0x0BF) || (0x100 ≤ n && n ≤ 0x10B)

/-- Well-formed instructions; a step of the device has no fields to restrict. -/
def Instr.wf : Instr → Bool
  | .add _ _ _ _ _ => true
  | .sub _ _ _ _ _ => true
  | .and _ _ _ _ _ => true
  | .or _ _ _ _ _ => true
  | .xor _ _ _ _ _ => true
  | .shl _ _ _ _ _ => true
  | .shr _ _ _ _ _ => true
  | .sha _ _ _ _ _ => true
  | .slt _ _ _ _ _ => true
  | .sltw _ _ _ _ _ => true
  | .min _ _ _ _ _ => true
  | .max _ _ _ _ _ => true
  | .minw _ _ _ _ _ => true
  | .maxw _ _ _ _ _ => true
  | .scadd _ _ _ _ _ _ => true
  | .clz _ _ _ => true
  | .ctz _ _ _ => true
  | .popc _ _ _ => true
  | .mul _ _ _ _ _ => true
  | .mulh _ _ _ _ _ => true
  | .mulhw _ _ _ _ _ => true
  | .div _ _ _ _ _ => true
  | .divw _ _ _ _ _ => true
  | .rem _ _ _ _ _ => true
  | .remw _ _ _ _ _ => true
  | .addi _ _ _ => true
  | .andi _ _ _ => true
  | .ori _ _ _ => true
  | .xori _ _ _ => true
  | .shli _ _ _ => true
  | .shri _ _ _ => true
  | .shai _ _ _ => true
  | .slti _ _ _ => true
  | .upi _ _ => true
  | .aupc _ _ => true
  | .ld _ _ s _ _ => s != 7#3
  | .st _ _ _ _ _ => true
  | .beq _ _ _ => true
  | .bne _ _ _ => true
  | .blt _ _ _ => true
  | .bge _ _ _ => true
  | .bltw _ _ _ => true
  | .bgew _ _ _ => true
  | .jal _ _ => true
  | .jalr _ _ _ => true
  | .fadd _ _ _ _ _ _ => true
  | .fsub _ _ _ _ _ _ => true
  | .fmul _ _ _ _ _ _ => true
  | .fdiv _ _ _ _ _ _ => true
  | .fsqrt _ _ _ _ => true
  | .fmin _ _ _ _ _ _ => true
  | .fmax _ _ _ _ _ _ => true
  | .fcmp _ _ _ _ _ _ _ => true
  | .fcvt _ _ b _ _ => decide ((b.extractLsb' 0 4).toNat ≤ 13)
  | .fclass _ _ _ _ => true
  | .fma _ _ _ _ _ _ => true
  | .amo _ _ _ f _ _ _ => decide (f.toNat ≤ 8)
  | .cas _ _ _ _ _ _ => true
  | .trap _ _ => true
  | .rett => true
  | .brk => true
  | .iflush => true
  | .idle _ _ _ _ _ => true
  | .freeze _ _ => true
  | .thaw _ _ => true
  | .scanrd _ _ _ _ _ => true
  | .tlbinv _ _ _ _ => true
  | .vpmset _ _ _ _ => true
  | .vpminv _ _ _ _ => true
  | .srd n _ => stateAllocated n
  | .swr n _ _ => stateAllocated n
  | .sset n _ _ => stateAllocated n
  | .sclr n _ _ => stateAllocated n
  | .spawn _ _ _ _ => true
  | .join _ _ _ => true
  | .exit => true
  | .launch _ _ _ _ _ => true
  | .withdraw _ _ _ _ _ => true
  | .claim _ _ _ _ _ => true
  | .yield => true
  | .wmpub _ _ _ _ => true
  | .qsync _ _ _ => true
  | .pin _ _ _ _ => true
  | .unpin _ _ => true
  | .setvl _ _ _ => true
  | .setvlw _ _ _ _ _ => true
  | .setvlre _ _ _ _ _ => true
  | .vloop _ _ _ => true
  | .setvt v => vtypeLegal v
  | .waitv _ _ _ _ _ _ _ => true
  | .viewnew _ _ _ _ _ => true
  | .viewsplit _ _ _ _ _ => true
  | .narrow _ _ _ _ _ => true
  | .viewdrop _ _ => true
  | .viewq _ _ _ _ _ => true
  | .specb _ _ _ _ _ => true
  | .specq _ _ _ _ _ => true
  | .specx _ _ => true
  | .vaddVr _ _ _ _ _ _ => true
  | .vaddVx _ _ _ _ _ _ => true
  | .vaddVi _ _ _ _ _ => true
  | .vsubVr _ _ _ _ _ _ => true
  | .vsubVx _ _ _ _ _ _ => true
  | .vsubVi _ _ _ _ _ => true
  | .vmulVr _ _ _ _ _ _ => true
  | .vmulVx _ _ _ _ _ _ => true
  | .vmulVi _ _ _ _ _ => true
  | .vmulhVr _ _ _ _ _ _ _ => true
  | .vmulhVx _ _ _ _ _ _ _ => true
  | .vmulhVi _ _ _ _ _ _ => true
  | .vdivVr _ _ _ _ _ _ _ => true
  | .vdivVx _ _ _ _ _ _ _ => true
  | .vdivVi _ _ _ _ _ _ => true
  | .vremVr _ _ _ _ _ _ _ => true
  | .vremVx _ _ _ _ _ _ _ => true
  | .vremVi _ _ _ _ _ _ => true
  | .vminVr _ _ _ _ _ _ _ => true
  | .vminVx _ _ _ _ _ _ _ => true
  | .vminVi _ _ _ _ _ _ => true
  | .vmaxVr _ _ _ _ _ _ _ => true
  | .vmaxVx _ _ _ _ _ _ _ => true
  | .vmaxVi _ _ _ _ _ _ => true
  | .vandVr _ _ _ _ _ _ => true
  | .vandVx _ _ _ _ _ _ => true
  | .vandVi _ _ _ _ _ => true
  | .vorVr _ _ _ _ _ _ => true
  | .vorVx _ _ _ _ _ _ => true
  | .vorVi _ _ _ _ _ => true
  | .vxorVr _ _ _ _ _ _ => true
  | .vxorVx _ _ _ _ _ _ => true
  | .vxorVi _ _ _ _ _ => true
  | .vshlVr _ _ _ _ _ _ => true
  | .vshlVx _ _ _ _ _ _ => true
  | .vshlVi _ _ _ _ _ => true
  | .vshrVr _ _ _ _ _ _ => true
  | .vshrVx _ _ _ _ _ _ => true
  | .vshrVi _ _ _ _ _ => true
  | .vshaVr _ _ _ _ _ _ => true
  | .vshaVx _ _ _ _ _ _ => true
  | .vshaVi _ _ _ _ _ => true
  | .vsaddVr _ _ _ _ _ _ _ => true
  | .vsaddVx _ _ _ _ _ _ _ => true
  | .vsaddVi _ _ _ _ _ _ => true
  | .vssubVr _ _ _ _ _ _ _ => true
  | .vssubVx _ _ _ _ _ _ _ => true
  | .vssubVi _ _ _ _ _ _ => true
  | .vwmulVr _ _ _ _ _ _ _ => true
  | .vwmulVx _ _ _ _ _ _ _ => true
  | .vwmulVi _ _ _ _ _ _ => true
  | .vwmaccVr _ _ _ _ _ _ _ => true
  | .vwmaccVx _ _ _ _ _ _ _ => true
  | .vwmaccVi _ _ _ _ _ _ => true
  | .vnshrVr _ _ _ _ _ _ _ => true
  | .vnshrVx _ _ _ _ _ _ _ => true
  | .vnshrVi _ _ _ _ _ _ => true
  | .vcmp _ _ _ c _ _ _ => decide (c.toNat ≤ 5)
  | .vblend _ _ _ _ _ => true
  | .vmv _ _ _ _ => true
  | .vslide _ _ _ _ _ _ _ => true
  | .vpick _ _ _ _ _ _ => true
  | .vprepop _ _ _ => true
  | .vpackm _ _ _ _ => true
  | .vspread _ _ _ _ => true
  | .vconf _ _ _ _ _ => true
  | .vscan _ _ b _ _ => decide (b.toNat ≤ 10)
  | .vred _ _ b _ _ => decide (b.toNat ≤ 10)
  | .vredo _ _ b _ _ => decide (b.toNat ≤ 10)
  | .vpopc _ _ _ => true
  | .vfirst _ _ _ => true
  | .mlog _ _ _ _ _ => true
  | .mmovMask _ _ _ => true
  | .mmovFromVector _ _ _ _ => true
  | .mmovToVector _ _ _ => true
  | .vfaddVr _ _ _ _ _ _ => true
  | .vfaddVx _ _ _ _ _ _ => true
  | .vfsubVr _ _ _ _ _ _ => true
  | .vfsubVx _ _ _ _ _ _ => true
  | .vfmulVr _ _ _ _ _ _ => true
  | .vfmulVx _ _ _ _ _ _ => true
  | .vfdivVr _ _ _ _ _ _ => true
  | .vfdivVx _ _ _ _ _ _ => true
  | .vfmaVr _ _ _ _ _ _ => true
  | .vfmaVx _ _ _ _ _ _ => true
  | .vfminVr _ _ _ _ _ _ => true
  | .vfminVx _ _ _ _ _ _ => true
  | .vfmaxVr _ _ _ _ _ _ => true
  | .vfmaxVx _ _ _ _ _ _ => true
  | .vfcmpVr _ _ _ _ _ _ _ => true
  | .vfcmpVx _ _ _ _ _ _ _ => true
  | .vfcvt _ _ w b _ _ => decide ((b.extractLsb' 0 4).toNat ≤ 12) && (!w || b.getLsbD 4)
  | .vscaccVr _ _ _ _ _ _ _ => true
  | .vscaccVx _ _ _ _ _ _ _ => true
  | .vsf _ _ f _ _ => decide (f.toNat ≤ 8)
  | .vld _ _ _ _ _ b _ _ => decide (b.toNat < 8)
  | .vlds _ _ _ _ _ _ _ _ _ => true
  | .vst _ _ _ _ b _ _ => decide (b.toNat < 8)
  | .vsts _ _ _ _ _ _ _ _ => true
  | .vldq _ _ _ b _ _ => decide (b.toNat < 8)
  | .vstq _ _ _ b _ _ => decide (b.toNat < 8)
  | .vsort _ _ k _ _ _ => k != 3#2
  | .vmerge _ _ _ _ _ _ => true
  | .vmergec _ _ _ _ _ _ => true
  | .vinter _ _ _ _ _ _ => true
  | .vuniq _ _ _ _ => true
  | .vrank _ _ _ _ _ _ _ => true
  | .vpart _ _ _ _ _ _ => true
  | .vrun _ k _ _ => k != 3#2
  | .vrunLen _ _ _ => true
  | .vunrun _ => true
  | .eissue _ _ _ _ _ _ => true
  | .ewait _ _ _ _ => true
  | .eseq _ _ _ => true
  | .epub _ _ _ _ => true
  | .sgath _ _ _ _ _ _ => true
  | .sscat _ _ _ _ _ _ _ => true
  | .cMv b d => !(b == 0#5 && d == 0#5)
  | .cAdd _ _ => true
  | .cSub _ _ => true
  | .cAnd _ _ => true
  | .cOr _ _ => true
  | .cXor _ _ => true
  | .cShli _ _ => true
  | .cShri _ _ => true
  | .cAddi _ _ => true
  | .cMul _ _ => true
  | .cFadd _ _ => true
  | .cFmul _ _ => true
  | .cFma _ _ => true
  | .cLd _ _ => true
  | .cSt _ _ => true
  | .cVadd _ _ => true
  | .cVsub _ _ => true
  | .cVmul _ _ => true
  | .cVfadd _ _ => true
  | .cVfsub _ _ => true
  | .cVfmul _ _ => true
  | .cVfma _ _ => true
  | .cVmax _ _ => true
  | .cVfmax _ _ => true
  | .cVand _ _ => true
  | .cVxor _ _ => true
  | .cVmv _ _ => true
  | .tcfg fmt _ => decide (fmt.toNat ≤ 4)
  | .mopa fmt _ _ _ => decide (fmt.toNat ≤ 4)
  | .tsacc _ ta tb _ _ => ta != tb
  | .tmovr _ _ _ sl => decide (sl.toNat ≤ 127)
  | .tmovc _ _ _ sl => decide (sl.toNat ≤ 127)
  | .tld _ _ sl => decide (sl.toNat ≤ 127)
  | .tst _ _ sl => decide (sl.toNat ≤ 127)
  | .toff0 => true
  | .toff1 => true
  | .toff2 => true
  | .toff3 => true
  | .toff4 => true
  | .toff5 => true
  | .toff6 => true
  | .toff7 => true
  | .tzero0 => true
  | .tzero1 => true
  | .tzero2 => true
  | .tzero3 => true
  | .tzero4 => true
  | .tzero5 => true
  | .tzero6 => true
  | .tzero7 => true
  | .tpred0 => true
  | .tpred1 => true
  | .tpred2 => true
  | .tpred3 => true
  | .tpred4 => true
  | .tpred5 => true
  | .tpred6 => true
  | .tpred7 => true
  | .tpred8 => true
  | .tpred9 => true
  | .tpred10 => true
  | .tpred11 => true
  | .tpred12 => true
  | .tpred13 => true
  | .tpred14 => true
  | .tpred15 => true
  | .tpred16 => true
  | .tpred17 => true
  | .tpred18 => true
  | .tpred19 => true
  | .tpred20 => true
  | .tpred21 => true
  | .tpred22 => true
  | .tpred23 => true
  | .tpred24 => true
  | .tpred25 => true
  | .tpred26 => true
  | .tpred27 => true
  | .tpred28 => true
  | .tpred29 => true
  | .tpred30 => true
  | .tpred31 => true
  | .dispatch => true
  | .boundaryPreemption => true
  | .abortPreemption => true
  | .asyncTrapDelivery => true
  | .storeQueueStore => true
  | .setvlwSatisfied => true
  | .wmstall => true
  | .waitvWake => true
  | .waitvTimeout => true
  | .ewaitReached => true
  | .epubPublish => true
  | .specqReturn => true
  | .idleWake => true
  | .idleTimeout => true
  | .copy => true
  | .fill => true
  | .cvt => true
  | .rot => true
  | .macc => true
  | .mload => true
  | .mstore => true
  | .followOnStart => true
  | .matvec => true
  | .commandComplete => true
  | .engineRetry => true
  | .sgathComplete => true
  | .sscatComplete => true
  | .gaugeCheck => true
  | .ticketCommit => true
  | .squashRequeue => true
  | .sramError => true
  | .hostRead => true
  | .hostWrite => true
  | .hostLaunch => true
  | .push => true
  | .hostWithdraw => true
  | .hostFreeze => true
  | .hostThaw => true
  | .checkpoint => true
  | .checkpointAcknowledged => true
  | .restore => true
  | .peercopy => true
  | .peercopyReceive => true
  | .attest => true
  | .recover => true
  | .badop => true
  | .rbqWrite => true
  | .rbtWrite => true
  | .hostRegisterWrite => true
  | .lanemapWrite => true
  | .lpartWrite => true
  | .vpmctlWrite => true
  | .swdWrite => true
  | .radWrite => true
  | .frmWrite => true
  | .kvblkWrite => true
  | .ctxRootWrite => true
  | .contextRegisterWrite => true
  | .stateRegisterWrite => true
  | .moduleReset => true
  | .thermalTrip => true
  | .powerCap => true
  | .notAnInstruction => true
  | .fetchFault => true
  | .eventSlotFree => true

end Sys2Proof
end

