-- ==== Sys2Proof/Decode.lean ====
section
/-! DEFINITION. Decoding and encoding (15 R280, R283-R304; 10 R198): total functions between bytes and instructions. A
bit pattern that is not a well-formed instruction is rejected by name. -/

namespace Sys2Proof

/-- The fields of a 32-bit word (15 R283): W [31:28], F [27:23], B [22:18], A [17:13], D [12:8], OP [7:2]. -/
structure Fields where
  w : BitVec 4
  f : BitVec 5
  b : BitVec 5
  a : BitVec 5
  d : BitVec 5
  op : BitVec 6
  deriving DecidableEq, Repr

/-- The fields of a 16-bit form (15 R299): B [15:11], D [10:6], COP [5:1]. -/
structure Fields16 where
  b : BitVec 5
  d : BitVec 5
  op : BitVec 5
  deriving DecidableEq, Repr

/-- The fields of a 64-bit tile form (10 R198), word 1 above word 0; `hi` is word 1 bits [31:19]. -/
structure Fields64 where
  hi : BitVec 13
  sfmt : BitVec 1
  vsb : BitVec 5
  vsa : BitVec 5
  sl : BitVec 8
  fmt : BitVec 3
  xa : BitVec 5
  vb : BitVec 5
  va : BitVec 5
  tb : BitVec 3
  ta : BitVec 3
  top : BitVec 6
  deriving DecidableEq, Repr

/-- The word with given fields: L = 0b01 in [1:0] (15 R283). -/
def wordOf (F : Fields) : BitVec 32 := F.w ++ F.f ++ F.b ++ F.a ++ F.d ++ F.op ++ 1#2

/-- The fields of a word. -/
def fieldsOf (x : BitVec 32) : Fields :=
  ⟨x.extractLsb' 28 4, x.extractLsb' 23 5, x.extractLsb' 18 5, x.extractLsb' 13 5, x.extractLsb' 8 5, x.extractLsb' 2 6⟩

/-- The halfword with given fields: bit 0 is 0 (15 R299). -/
def halfOf (F : Fields16) : BitVec 16 := F.b ++ F.d ++ F.op ++ 0#1

/-- The fields of a halfword. -/
def fieldsOf16 (x : BitVec 16) : Fields16 := ⟨x.extractLsb' 11 5, x.extractLsb' 6 5, x.extractLsb' 1 5⟩

/-- The two words of a tile form, word 1 in [63:32] (10 R198). -/
def tileOf (F : Fields64) : BitVec 64 :=
  F.hi ++ F.sfmt ++ F.vsb ++ F.vsa ++ F.sl ++ F.fmt ++ F.xa ++ F.vb ++ F.va ++ F.tb ++ F.ta ++ F.top ++ 3#2

/-- The fields of a tile form. -/
def fieldsOf64 (x : BitVec 64) : Fields64 :=
  ⟨x.extractLsb' 51 13, x.extractLsb' 50 1, x.extractLsb' 45 5, x.extractLsb' 40 5, x.extractLsb' 32 8,
    x.extractLsb' 29 3, x.extractLsb' 24 5, x.extractLsb' 19 5, x.extractLsb' 14 5, x.extractLsb' 11 3,
    x.extractLsb' 8 3, x.extractLsb' 2 6⟩

/-- Major opcode 0x01 (15 R291, R292): ADD, SUB, AND, OR, XOR, SHL, SHR, SHA, SLT, SLTW, MIN, MAX, MINW, MAXW, SCADD, CLZ, CTZ, POPC. -/
def decOp01 (F : Fields) : Option Instr :=
  match F.f.toNat with
  | 0 => if F.w.extractLsb' 0 2 = 0#2 then some (.add (F.w.getLsbD 3) (F.w.getLsbD 2) F.b F.a F.d) else none
  | 1 => if F.w.extractLsb' 0 2 = 0#2 then some (.sub (F.w.getLsbD 3) (F.w.getLsbD 2) F.b F.a F.d) else none
  | 2 => if F.w.extractLsb' 0 2 = 0#2 then some (.and (F.w.getLsbD 3) (F.w.getLsbD 2) F.b F.a F.d) else none
  | 3 => if F.w.extractLsb' 0 2 = 0#2 then some (.or (F.w.getLsbD 3) (F.w.getLsbD 2) F.b F.a F.d) else none
  | 4 => if F.w.extractLsb' 0 2 = 0#2 then some (.xor (F.w.getLsbD 3) (F.w.getLsbD 2) F.b F.a F.d) else none
  | 5 => if F.w.extractLsb' 0 2 = 0#2 then some (.shl (F.w.getLsbD 3) (F.w.getLsbD 2) F.b F.a F.d) else none
  | 6 => if F.w.extractLsb' 0 2 = 0#2 then some (.shr (F.w.getLsbD 3) (F.w.getLsbD 2) F.b F.a F.d) else none
  | 7 => if F.w.extractLsb' 0 2 = 0#2 then some (.sha (F.w.getLsbD 3) (F.w.getLsbD 2) F.b F.a F.d) else none
  | 8 => if F.w.extractLsb' 0 2 = 0#2 then some (.slt (F.w.getLsbD 3) (F.w.getLsbD 2) F.b F.a F.d) else none
  | 9 => if F.w.extractLsb' 0 2 = 0#2 then some (.sltw (F.w.getLsbD 3) (F.w.getLsbD 2) F.b F.a F.d) else none
  | 10 => if F.w.extractLsb' 0 2 = 0#2 then some (.min (F.w.getLsbD 3) (F.w.getLsbD 2) F.b F.a F.d) else none
  | 11 => if F.w.extractLsb' 0 2 = 0#2 then some (.max (F.w.getLsbD 3) (F.w.getLsbD 2) F.b F.a F.d) else none
  | 12 => if F.w.extractLsb' 0 2 = 0#2 then some (.minw (F.w.getLsbD 3) (F.w.getLsbD 2) F.b F.a F.d) else none
  | 13 => if F.w.extractLsb' 0 2 = 0#2 then some (.maxw (F.w.getLsbD 3) (F.w.getLsbD 2) F.b F.a F.d) else none
  | 14 => some (.scadd (F.w.getLsbD 3) (F.w.getLsbD 2) (F.w.extractLsb' 0 2) F.b F.a F.d)
  | 15 => if F.w.extractLsb' 0 3 = 0#3 ∧ F.b = 0#5 then some (.clz (F.w.getLsbD 3) F.a F.d) else none
  | 16 => if F.w.extractLsb' 0 3 = 0#3 ∧ F.b = 0#5 then some (.ctz (F.w.getLsbD 3) F.a F.d) else none
  | 17 => if F.w.extractLsb' 0 3 = 0#3 ∧ F.b = 0#5 then some (.popc (F.w.getLsbD 3) F.a F.d) else none
  | _ => none

/-- Major opcode 0x02 (15 R291, R292): MUL, MULH, MULHW, DIV, DIVW, REM, REMW. -/
def decOp02 (F : Fields) : Option Instr :=
  match F.f.toNat with
  | 0 => if F.w.extractLsb' 0 2 = 0#2 then some (.mul (F.w.getLsbD 3) (F.w.getLsbD 2) F.b F.a F.d) else none
  | 1 => if F.w.extractLsb' 0 2 = 0#2 then some (.mulh (F.w.getLsbD 3) (F.w.getLsbD 2) F.b F.a F.d) else none
  | 2 => if F.w.extractLsb' 0 2 = 0#2 then some (.mulhw (F.w.getLsbD 3) (F.w.getLsbD 2) F.b F.a F.d) else none
  | 3 => if F.w.extractLsb' 0 2 = 0#2 then some (.div (F.w.getLsbD 3) (F.w.getLsbD 2) F.b F.a F.d) else none
  | 4 => if F.w.extractLsb' 0 2 = 0#2 then some (.divw (F.w.getLsbD 3) (F.w.getLsbD 2) F.b F.a F.d) else none
  | 5 => if F.w.extractLsb' 0 2 = 0#2 then some (.rem (F.w.getLsbD 3) (F.w.getLsbD 2) F.b F.a F.d) else none
  | 6 => if F.w.extractLsb' 0 2 = 0#2 then some (.remw (F.w.getLsbD 3) (F.w.getLsbD 2) F.b F.a F.d) else none
  | _ => none

/-- Major opcode 0x03 (15 R291, R292): ADDI. -/
def decOp03 (F : Fields) : Option Instr :=
  some (.addi (F.w ++ F.f ++ F.b : BitVec 14) F.a F.d)

/-- Major opcode 0x04 (15 R291, R292): ANDI. -/
def decOp04 (F : Fields) : Option Instr :=
  some (.andi (F.w ++ F.f ++ F.b : BitVec 14) F.a F.d)

/-- Major opcode 0x05 (15 R291, R292): ORI. -/
def decOp05 (F : Fields) : Option Instr :=
  some (.ori (F.w ++ F.f ++ F.b : BitVec 14) F.a F.d)

/-- Major opcode 0x06 (15 R291, R292): XORI. -/
def decOp06 (F : Fields) : Option Instr :=
  some (.xori (F.w ++ F.f ++ F.b : BitVec 14) F.a F.d)

/-- Major opcode 0x07 (15 R291, R292): SHLI, SHRI, SHAI. -/
def decOp07 (F : Fields) : Option Instr :=
  if F.w = 0#4 ∧ F.f.extractLsb' 1 4 = 0#4 then some (.shli (F.f.extractLsb' 0 1 ++ F.b : BitVec 6) F.a F.d)
  else if F.w = 4#4 ∧ F.f.extractLsb' 1 4 = 0#4 then some (.shri (F.f.extractLsb' 0 1 ++ F.b : BitVec 6) F.a F.d)
  else if F.w = 8#4 ∧ F.f.extractLsb' 1 4 = 0#4 then some (.shai (F.f.extractLsb' 0 1 ++ F.b : BitVec 6) F.a F.d)
  else none

/-- Major opcode 0x08 (15 R291, R292): SLTI. -/
def decOp08 (F : Fields) : Option Instr :=
  some (.slti (F.w ++ F.f ++ F.b : BitVec 14) F.a F.d)

/-- Major opcode 0x09 (15 R291, R292): UPI. -/
def decOp09 (F : Fields) : Option Instr :=
  some (.upi (F.w ++ F.f ++ F.b ++ F.a : BitVec 19) F.d)

/-- Major opcode 0x0A (15 R291, R292): AUPC. -/
def decOp0A (F : Fields) : Option Instr :=
  some (.aupc (F.w ++ F.f ++ F.b ++ F.a : BitVec 19) F.d)

/-- Major opcode 0x0B (15 R291, R292): FADD, FSUB, FMUL, FDIV, FSQRT, FMIN, FMAX, FCMP, FCVT, FCLASS, FMA. -/
def decOp0B (F : Fields) : Option Instr :=
  match F.f.toNat with
  | 0 => some (.fadd (F.w.getLsbD 3) (F.w.getLsbD 2) (F.w.extractLsb' 0 2) F.b F.a F.d)
  | 1 => some (.fsub (F.w.getLsbD 3) (F.w.getLsbD 2) (F.w.extractLsb' 0 2) F.b F.a F.d)
  | 2 => some (.fmul (F.w.getLsbD 3) (F.w.getLsbD 2) (F.w.extractLsb' 0 2) F.b F.a F.d)
  | 3 => some (.fdiv (F.w.getLsbD 3) (F.w.getLsbD 2) (F.w.extractLsb' 0 2) F.b F.a F.d)
  | 4 => if F.w.extractLsb' 2 1 = 0#1 ∧ F.b = 0#5 then some (.fsqrt (F.w.getLsbD 3) (F.w.extractLsb' 0 2) F.a F.d) else none
  | 5 => some (.fmin (F.w.getLsbD 3) (F.w.getLsbD 2) (F.w.extractLsb' 0 2) F.b F.a F.d)
  | 6 => some (.fmax (F.w.getLsbD 3) (F.w.getLsbD 2) (F.w.extractLsb' 0 2) F.b F.a F.d)
  | 7 => some (.fcmp (F.w.getLsbD 3) (F.w.getLsbD 2) (F.w.extractLsb' 0 2) F.b F.a (F.d.extractLsb' 3 2) (F.d.extractLsb' 0 3))
  | 8 => if F.w.extractLsb' 2 1 = 0#1 then some (.fcvt (F.w.getLsbD 3) (F.w.extractLsb' 0 2) F.b F.a F.d) else none
  | 9 => if F.w.extractLsb' 2 1 = 0#1 ∧ F.b = 0#5 then some (.fclass (F.w.getLsbD 3) (F.w.extractLsb' 0 2) F.a F.d) else none
  | 10 => some (.fma (F.w.getLsbD 3) (F.w.getLsbD 2) (F.w.extractLsb' 0 2) F.b F.a F.d)
  | _ => none

/-- Major opcode 0x0C (15 R291, R292): LD. -/
def decOp0C (F : Fields) : Option Instr :=
  some (.ld (F.w ++ F.f ++ F.b.extractLsb' 4 1 : BitVec 10) (F.b.getLsbD 3) (F.b.extractLsb' 0 3) F.a F.d)

/-- Major opcode 0x0D (15 R291, R292): ST. -/
def decOp0D (F : Fields) : Option Instr :=
  if F.b.extractLsb' 2 1 = 0#1 then some (.st (F.w ++ F.f ++ F.b.extractLsb' 4 1 : BitVec 10) (F.b.getLsbD 3) (F.b.extractLsb' 0 2) F.a F.d) else none

/-- Major opcode 0x0E (15 R291, R292): AMO. -/
def decOp0E (F : Fields) : Option Instr :=
  if F.w.extractLsb' 1 1 = 1#1 then some (.amo (F.w.getLsbD 3) (F.w.getLsbD 2) (F.w.getLsbD 0) F.f F.b F.a F.d) else none

/-- Major opcode 0x0F (15 R291, R292): CAS. -/
def decOp0F (F : Fields) : Option Instr :=
  if F.w.extractLsb' 1 1 = 1#1 ∧ F.f = 0#5 then some (.cas (F.w.getLsbD 3) (F.w.getLsbD 2) (F.w.getLsbD 0) F.b F.a F.d) else none

/-- Major opcode 0x10 (15 R291, R292): BEQ. -/
def decOp10 (F : Fields) : Option Instr :=
  some (.beq (F.w ++ F.f ++ F.d : BitVec 14) F.b F.a)

/-- Major opcode 0x11 (15 R291, R292): BNE. -/
def decOp11 (F : Fields) : Option Instr :=
  some (.bne (F.w ++ F.f ++ F.d : BitVec 14) F.b F.a)

/-- Major opcode 0x12 (15 R291, R292): BLT. -/
def decOp12 (F : Fields) : Option Instr :=
  some (.blt (F.w ++ F.f ++ F.d : BitVec 14) F.b F.a)

/-- Major opcode 0x13 (15 R291, R292): BGE. -/
def decOp13 (F : Fields) : Option Instr :=
  some (.bge (F.w ++ F.f ++ F.d : BitVec 14) F.b F.a)

/-- Major opcode 0x14 (15 R291, R292): BLTW. -/
def decOp14 (F : Fields) : Option Instr :=
  some (.bltw (F.w ++ F.f ++ F.d : BitVec 14) F.b F.a)

/-- Major opcode 0x15 (15 R291, R292): BGEW. -/
def decOp15 (F : Fields) : Option Instr :=
  some (.bgew (F.w ++ F.f ++ F.d : BitVec 14) F.b F.a)

/-- Major opcode 0x16 (15 R291, R292): JAL. -/
def decOp16 (F : Fields) : Option Instr :=
  some (.jal (F.w ++ F.f ++ F.b ++ F.a : BitVec 19) F.d)

/-- Major opcode 0x17 (15 R291, R292): JALR. -/
def decOp17 (F : Fields) : Option Instr :=
  some (.jalr (F.w ++ F.f ++ F.b : BitVec 14) F.a F.d)

/-- Major opcode 0x18 (15 R291, R292): TRAP, RETT, BREAK, IFLUSH, IDLE, FREEZE, THAW, SCANRD, TLBINV, VPMSET, VPMINV. -/
def decOp18 (F : Fields) : Option Instr :=
  match F.f.toNat with
  | 0 => if F.w.extractLsb' 0 3 = 0#3 ∧ F.b = 0#5 ∧ F.d = 0#5 then some (.trap (F.w.getLsbD 3) F.a) else none
  | 1 => if F.w = 0#4 ∧ F.b = 0#5 ∧ F.a = 0#5 ∧ F.d = 0#5 then some (.rett) else none
  | 2 => if F.w = 0#4 ∧ F.b = 0#5 ∧ F.a = 0#5 ∧ F.d = 0#5 then some (.brk) else none
  | 3 => if F.w = 0#4 ∧ F.b = 0#5 ∧ F.a = 0#5 ∧ F.d = 0#5 then some (.iflush) else none
  | 4 => if F.w.extractLsb' 0 2 = 0#2 then some (.idle (F.w.getLsbD 3) (F.w.getLsbD 2) F.b F.a F.d) else none
  | 5 => if F.w.extractLsb' 0 3 = 0#3 ∧ F.b = 0#5 ∧ F.d = 0#5 then some (.freeze (F.w.getLsbD 3) F.a) else none
  | 6 => if F.w.extractLsb' 0 3 = 0#3 ∧ F.b = 0#5 ∧ F.d = 0#5 then some (.thaw (F.w.getLsbD 3) F.a) else none
  | 7 => if F.w.extractLsb' 0 2 = 0#2 then some (.scanrd (F.w.getLsbD 3) (F.w.getLsbD 2) F.b F.a F.d) else none
  | 8 => if F.w.extractLsb' 0 2 = 0#2 ∧ F.d = 0#5 then some (.tlbinv (F.w.getLsbD 3) (F.w.getLsbD 2) F.b F.a) else none
  | 9 => if F.w.extractLsb' 0 2 = 0#2 ∧ F.d = 0#5 then some (.vpmset (F.w.getLsbD 3) (F.w.getLsbD 2) F.b F.a) else none
  | 10 => if F.w.extractLsb' 0 2 = 0#2 ∧ F.d = 0#5 then some (.vpminv (F.w.getLsbD 3) (F.w.getLsbD 2) F.b F.a) else none
  | _ => none

/-- Major opcode 0x19 (15 R291, R292): SRD, SWR, SSET, SCLR. -/
def decOp19 (F : Fields) : Option Instr :=
  if F.w.extractLsb' 2 2 = 0#2 ∧ F.a = 0#5 then some (.srd (F.w.extractLsb' 0 2 ++ F.f ++ F.b : BitVec 12) F.d)
  else if F.w.extractLsb' 2 2 = 1#2 then some (.swr (F.w.extractLsb' 0 2 ++ F.f ++ F.b : BitVec 12) F.a F.d)
  else if F.w.extractLsb' 2 2 = 2#2 then some (.sset (F.w.extractLsb' 0 2 ++ F.f ++ F.b : BitVec 12) F.a F.d)
  else if F.w.extractLsb' 2 2 = 3#2 then some (.sclr (F.w.extractLsb' 0 2 ++ F.f ++ F.b : BitVec 12) F.a F.d)
  else none

/-- Major opcode 0x1A (15 R291, R292): SPAWN, JOIN, EXIT, LAUNCH, WITHDRAW, CLAIM, YIELD, WMPUB, QSYNC, PIN, UNPIN. -/
def decOp1A (F : Fields) : Option Instr :=
  match F.f.toNat with
  | 0 => if F.w.extractLsb' 0 2 = 0#2 ∧ F.d = 0#5 then some (.spawn (F.w.getLsbD 3) (F.w.getLsbD 2) F.b F.a) else none
  | 1 => if F.w.extractLsb' 0 3 = 0#3 ∧ F.b = 0#5 then some (.join (F.w.getLsbD 3) F.a F.d) else none
  | 2 => if F.w = 0#4 ∧ F.b = 0#5 ∧ F.a = 0#5 ∧ F.d = 0#5 then some (.exit) else none
  | 3 => if F.w.extractLsb' 0 2 = 0#2 then some (.launch (F.w.getLsbD 3) (F.w.getLsbD 2) F.b F.a F.d) else none
  | 4 => if F.w.extractLsb' 0 2 = 0#2 then some (.withdraw (F.w.getLsbD 3) (F.w.getLsbD 2) F.b F.a F.d) else none
  | 5 => if F.w.extractLsb' 0 2 = 0#2 then some (.claim (F.w.getLsbD 3) (F.w.getLsbD 2) F.b F.a F.d) else none
  | 6 => if F.w = 0#4 ∧ F.b = 0#5 ∧ F.a = 0#5 ∧ F.d = 0#5 then some (.yield) else none
  | 7 => if F.w.extractLsb' 0 2 = 0#2 ∧ F.d = 0#5 then some (.wmpub (F.w.getLsbD 3) (F.w.getLsbD 2) F.b F.a) else none
  | 8 => if F.w.extractLsb' 0 3 = 0#3 ∧ F.b = 0#5 then some (.qsync (F.w.getLsbD 3) F.a F.d) else none
  | 9 => if F.w.extractLsb' 0 2 = 0#2 ∧ F.d = 0#5 then some (.pin (F.w.getLsbD 3) (F.w.getLsbD 2) F.b F.a) else none
  | 10 => if F.w.extractLsb' 0 3 = 0#3 ∧ F.b = 0#5 ∧ F.d = 0#5 then some (.unpin (F.w.getLsbD 3) F.a) else none
  | _ => none

/-- Major opcode 0x1B (15 R291, R292): SETVL, SETVLW, SETVLRE, VLOOP. -/
def decOp1B (F : Fields) : Option Instr :=
  match F.f.toNat with
  | 0 => if F.w.extractLsb' 0 3 = 0#3 ∧ F.b = 0#5 then some (.setvl (F.w.getLsbD 3) F.a F.d) else none
  | 1 => if F.w.extractLsb' 0 2 = 0#2 then some (.setvlw (F.w.getLsbD 3) (F.w.getLsbD 2) F.b F.a F.d) else none
  | 2 => if F.w.extractLsb' 0 2 = 0#2 then some (.setvlre (F.w.getLsbD 3) (F.w.getLsbD 2) F.b F.a F.d) else none
  | 3 => if F.w.extractLsb' 0 3 = 0#3 ∧ F.b = 0#5 then some (.vloop (F.w.getLsbD 3) F.a F.d) else none
  | _ => none

/-- Major opcode 0x1C (15 R291, R292): SETVT. -/
def decOp1C (F : Fields) : Option Instr :=
  if F.w = 0#4 ∧ F.f.extractLsb' 4 1 = 0#1 ∧ F.a = 0#5 ∧ F.d = 0#5 then some (.setvt (F.f.extractLsb' 0 4 ++ F.b : BitVec 9)) else none

/-- Major opcode 0x1D (15 R291, R292): WAITV. -/
def decOp1D (F : Fields) : Option Instr :=
  if F.f = 0#5 then some (.waitv (F.w.getLsbD 3) (F.w.getLsbD 2) (F.w.getLsbD 1) (F.w.getLsbD 0) F.b F.a F.d) else none

/-- Major opcode 0x1E (15 R291, R292): VIEWNEW, VIEWSPLIT, NARROW, VIEWDROP, VIEWQ. -/
def decOp1E (F : Fields) : Option Instr :=
  match F.f.toNat with
  | 0 => if F.w.extractLsb' 0 2 = 0#2 then some (.viewnew (F.w.getLsbD 3) (F.w.getLsbD 2) F.b F.a F.d) else none
  | 1 => if F.w.extractLsb' 0 2 = 0#2 then some (.viewsplit (F.w.getLsbD 3) (F.w.getLsbD 2) F.b F.a F.d) else none
  | 2 => if F.w.extractLsb' 0 2 = 0#2 then some (.narrow (F.w.getLsbD 3) (F.w.getLsbD 2) F.b F.a F.d) else none
  | 3 => if F.w.extractLsb' 0 3 = 0#3 ∧ F.b = 0#5 ∧ F.d = 0#5 then some (.viewdrop (F.w.getLsbD 3) F.a) else none
  | 4 => if F.w.extractLsb' 0 2 = 0#2 then some (.viewq (F.w.getLsbD 3) (F.w.getLsbD 2) F.b F.a F.d) else none
  | _ => none

/-- Major opcode 0x1F (15 R291, R292): SPECB, SPECQ, SPECX. -/
def decOp1F (F : Fields) : Option Instr :=
  match F.f.toNat with
  | 0 => if F.w.extractLsb' 0 2 = 0#2 then some (.specb (F.w.getLsbD 3) (F.w.getLsbD 2) F.b F.a F.d) else none
  | 1 => if F.w.extractLsb' 0 2 = 0#2 then some (.specq (F.w.getLsbD 3) (F.w.getLsbD 2) F.b F.a F.d) else none
  | 2 => if F.w.extractLsb' 0 3 = 0#3 ∧ F.b = 0#5 ∧ F.d = 0#5 then some (.specx (F.w.getLsbD 3) F.a) else none
  | _ => none

/-- Major opcode 0x20 (15 R291, R292): VADD_VR, VSUB_VR, VMUL_VR, VMULH_VR, VDIV_VR, VREM_VR, VMIN_VR, VMAX_VR, VAND_VR, VOR_VR, VXOR_VR, VSHL_VR, VSHR_VR, VSHA_VR, VSADD_VR, VSSUB_VR, VWMUL_VR, VWMACC_VR, VNSHR_VR. -/
def decOp20 (F : Fields) : Option Instr :=
  match F.f.toNat with
  | 0 => if F.w.extractLsb' 0 1 = 0#1 then some (.vaddVr (F.w.getLsbD 3) (F.w.getLsbD 2) (F.w.getLsbD 1) F.b F.a F.d) else none
  | 1 => if F.w.extractLsb' 0 1 = 0#1 then some (.vsubVr (F.w.getLsbD 3) (F.w.getLsbD 2) (F.w.getLsbD 1) F.b F.a F.d) else none
  | 2 => if F.w.extractLsb' 0 1 = 0#1 then some (.vmulVr (F.w.getLsbD 3) (F.w.getLsbD 2) (F.w.getLsbD 1) F.b F.a F.d) else none
  | 3 => some (.vmulhVr (F.w.getLsbD 3) (F.w.getLsbD 2) (F.w.getLsbD 1) (F.w.getLsbD 0) F.b F.a F.d)
  | 4 => some (.vdivVr (F.w.getLsbD 3) (F.w.getLsbD 2) (F.w.getLsbD 1) (F.w.getLsbD 0) F.b F.a F.d)
  | 5 => some (.vremVr (F.w.getLsbD 3) (F.w.getLsbD 2) (F.w.getLsbD 1) (F.w.getLsbD 0) F.b F.a F.d)
  | 6 => some (.vminVr (F.w.getLsbD 3) (F.w.getLsbD 2) (F.w.getLsbD 1) (F.w.getLsbD 0) F.b F.a F.d)
  | 7 => some (.vmaxVr (F.w.getLsbD 3) (F.w.getLsbD 2) (F.w.getLsbD 1) (F.w.getLsbD 0) F.b F.a F.d)
  | 8 => if F.w.extractLsb' 0 1 = 0#1 then some (.vandVr (F.w.getLsbD 3) (F.w.getLsbD 2) (F.w.getLsbD 1) F.b F.a F.d) else none
  | 9 => if F.w.extractLsb' 0 1 = 0#1 then some (.vorVr (F.w.getLsbD 3) (F.w.getLsbD 2) (F.w.getLsbD 1) F.b F.a F.d) else none
  | 10 => if F.w.extractLsb' 0 1 = 0#1 then some (.vxorVr (F.w.getLsbD 3) (F.w.getLsbD 2) (F.w.getLsbD 1) F.b F.a F.d) else none
  | 11 => if F.w.extractLsb' 0 1 = 0#1 then some (.vshlVr (F.w.getLsbD 3) (F.w.getLsbD 2) (F.w.getLsbD 1) F.b F.a F.d) else none
  | 12 => if F.w.extractLsb' 0 1 = 0#1 then some (.vshrVr (F.w.getLsbD 3) (F.w.getLsbD 2) (F.w.getLsbD 1) F.b F.a F.d) else none
  | 13 => if F.w.extractLsb' 0 1 = 0#1 then some (.vshaVr (F.w.getLsbD 3) (F.w.getLsbD 2) (F.w.getLsbD 1) F.b F.a F.d) else none
  | 14 => some (.vsaddVr (F.w.getLsbD 3) (F.w.getLsbD 2) (F.w.getLsbD 1) (F.w.getLsbD 0) F.b F.a F.d)
  | 15 => some (.vssubVr (F.w.getLsbD 3) (F.w.getLsbD 2) (F.w.getLsbD 1) (F.w.getLsbD 0) F.b F.a F.d)
  | 16 => some (.vwmulVr (F.w.getLsbD 3) (F.w.getLsbD 2) (F.w.getLsbD 1) (F.w.getLsbD 0) F.b F.a F.d)
  | 17 => some (.vwmaccVr (F.w.getLsbD 3) (F.w.getLsbD 2) (F.w.getLsbD 1) (F.w.getLsbD 0) F.b F.a F.d)
  | 18 => some (.vnshrVr (F.w.getLsbD 3) (F.w.getLsbD 2) (F.w.getLsbD 1) (F.w.getLsbD 0) F.b F.a F.d)
  | _ => none

/-- Major opcode 0x21 (15 R291, R292): VADD_VX, VSUB_VX, VMUL_VX, VMULH_VX, VDIV_VX, VREM_VX, VMIN_VX, VMAX_VX, VAND_VX, VOR_VX, VXOR_VX, VSHL_VX, VSHR_VX, VSHA_VX, VSADD_VX, VSSUB_VX, VWMUL_VX, VWMACC_VX, VNSHR_VX. -/
def decOp21 (F : Fields) : Option Instr :=
  match F.f.toNat with
  | 0 => if F.w.extractLsb' 0 1 = 0#1 then some (.vaddVx (F.w.getLsbD 3) (F.w.getLsbD 2) (F.w.getLsbD 1) F.b F.a F.d) else none
  | 1 => if F.w.extractLsb' 0 1 = 0#1 then some (.vsubVx (F.w.getLsbD 3) (F.w.getLsbD 2) (F.w.getLsbD 1) F.b F.a F.d) else none
  | 2 => if F.w.extractLsb' 0 1 = 0#1 then some (.vmulVx (F.w.getLsbD 3) (F.w.getLsbD 2) (F.w.getLsbD 1) F.b F.a F.d) else none
  | 3 => some (.vmulhVx (F.w.getLsbD 3) (F.w.getLsbD 2) (F.w.getLsbD 1) (F.w.getLsbD 0) F.b F.a F.d)
  | 4 => some (.vdivVx (F.w.getLsbD 3) (F.w.getLsbD 2) (F.w.getLsbD 1) (F.w.getLsbD 0) F.b F.a F.d)
  | 5 => some (.vremVx (F.w.getLsbD 3) (F.w.getLsbD 2) (F.w.getLsbD 1) (F.w.getLsbD 0) F.b F.a F.d)
  | 6 => some (.vminVx (F.w.getLsbD 3) (F.w.getLsbD 2) (F.w.getLsbD 1) (F.w.getLsbD 0) F.b F.a F.d)
  | 7 => some (.vmaxVx (F.w.getLsbD 3) (F.w.getLsbD 2) (F.w.getLsbD 1) (F.w.getLsbD 0) F.b F.a F.d)
  | 8 => if F.w.extractLsb' 0 1 = 0#1 then some (.vandVx (F.w.getLsbD 3) (F.w.getLsbD 2) (F.w.getLsbD 1) F.b F.a F.d) else none
  | 9 => if F.w.extractLsb' 0 1 = 0#1 then some (.vorVx (F.w.getLsbD 3) (F.w.getLsbD 2) (F.w.getLsbD 1) F.b F.a F.d) else none
  | 10 => if F.w.extractLsb' 0 1 = 0#1 then some (.vxorVx (F.w.getLsbD 3) (F.w.getLsbD 2) (F.w.getLsbD 1) F.b F.a F.d) else none
  | 11 => if F.w.extractLsb' 0 1 = 0#1 then some (.vshlVx (F.w.getLsbD 3) (F.w.getLsbD 2) (F.w.getLsbD 1) F.b F.a F.d) else none
  | 12 => if F.w.extractLsb' 0 1 = 0#1 then some (.vshrVx (F.w.getLsbD 3) (F.w.getLsbD 2) (F.w.getLsbD 1) F.b F.a F.d) else none
  | 13 => if F.w.extractLsb' 0 1 = 0#1 then some (.vshaVx (F.w.getLsbD 3) (F.w.getLsbD 2) (F.w.getLsbD 1) F.b F.a F.d) else none
  | 14 => some (.vsaddVx (F.w.getLsbD 3) (F.w.getLsbD 2) (F.w.getLsbD 1) (F.w.getLsbD 0) F.b F.a F.d)
  | 15 => some (.vssubVx (F.w.getLsbD 3) (F.w.getLsbD 2) (F.w.getLsbD 1) (F.w.getLsbD 0) F.b F.a F.d)
  | 16 => some (.vwmulVx (F.w.getLsbD 3) (F.w.getLsbD 2) (F.w.getLsbD 1) (F.w.getLsbD 0) F.b F.a F.d)
  | 17 => some (.vwmaccVx (F.w.getLsbD 3) (F.w.getLsbD 2) (F.w.getLsbD 1) (F.w.getLsbD 0) F.b F.a F.d)
  | 18 => some (.vnshrVx (F.w.getLsbD 3) (F.w.getLsbD 2) (F.w.getLsbD 1) (F.w.getLsbD 0) F.b F.a F.d)
  | _ => none

/-- Major opcode 0x22 (15 R291, R292): VADD_VI, VSUB_VI, VMUL_VI, VMULH_VI, VDIV_VI, VREM_VI, VMIN_VI, VMAX_VI, VAND_VI, VOR_VI, VXOR_VI, VSHL_VI, VSHR_VI, VSHA_VI, VSADD_VI, VSSUB_VI, VWMUL_VI, VWMACC_VI, VNSHR_VI. -/
def decOp22 (F : Fields) : Option Instr :=
  match F.f.toNat with
  | 0 => if F.w.extractLsb' 2 1 = 0#1 ∧ F.w.extractLsb' 0 1 = 0#1 then some (.vaddVi (F.w.getLsbD 3) (F.w.getLsbD 1) F.b F.a F.d) else none
  | 1 => if F.w.extractLsb' 2 1 = 0#1 ∧ F.w.extractLsb' 0 1 = 0#1 then some (.vsubVi (F.w.getLsbD 3) (F.w.getLsbD 1) F.b F.a F.d) else none
  | 2 => if F.w.extractLsb' 2 1 = 0#1 ∧ F.w.extractLsb' 0 1 = 0#1 then some (.vmulVi (F.w.getLsbD 3) (F.w.getLsbD 1) F.b F.a F.d) else none
  | 3 => if F.w.extractLsb' 2 1 = 0#1 then some (.vmulhVi (F.w.getLsbD 3) (F.w.getLsbD 1) (F.w.getLsbD 0) F.b F.a F.d) else none
  | 4 => if F.w.extractLsb' 2 1 = 0#1 then some (.vdivVi (F.w.getLsbD 3) (F.w.getLsbD 1) (F.w.getLsbD 0) F.b F.a F.d) else none
  | 5 => if F.w.extractLsb' 2 1 = 0#1 then some (.vremVi (F.w.getLsbD 3) (F.w.getLsbD 1) (F.w.getLsbD 0) F.b F.a F.d) else none
  | 6 => if F.w.extractLsb' 2 1 = 0#1 then some (.vminVi (F.w.getLsbD 3) (F.w.getLsbD 1) (F.w.getLsbD 0) F.b F.a F.d) else none
  | 7 => if F.w.extractLsb' 2 1 = 0#1 then some (.vmaxVi (F.w.getLsbD 3) (F.w.getLsbD 1) (F.w.getLsbD 0) F.b F.a F.d) else none
  | 8 => if F.w.extractLsb' 2 1 = 0#1 ∧ F.w.extractLsb' 0 1 = 0#1 then some (.vandVi (F.w.getLsbD 3) (F.w.getLsbD 1) F.b F.a F.d) else none
  | 9 => if F.w.extractLsb' 2 1 = 0#1 ∧ F.w.extractLsb' 0 1 = 0#1 then some (.vorVi (F.w.getLsbD 3) (F.w.getLsbD 1) F.b F.a F.d) else none
  | 10 => if F.w.extractLsb' 2 1 = 0#1 ∧ F.w.extractLsb' 0 1 = 0#1 then some (.vxorVi (F.w.getLsbD 3) (F.w.getLsbD 1) F.b F.a F.d) else none
  | 11 => if F.w.extractLsb' 2 1 = 0#1 ∧ F.w.extractLsb' 0 1 = 0#1 then some (.vshlVi (F.w.getLsbD 3) (F.w.getLsbD 1) F.b F.a F.d) else none
  | 12 => if F.w.extractLsb' 2 1 = 0#1 ∧ F.w.extractLsb' 0 1 = 0#1 then some (.vshrVi (F.w.getLsbD 3) (F.w.getLsbD 1) F.b F.a F.d) else none
  | 13 => if F.w.extractLsb' 2 1 = 0#1 ∧ F.w.extractLsb' 0 1 = 0#1 then some (.vshaVi (F.w.getLsbD 3) (F.w.getLsbD 1) F.b F.a F.d) else none
  | 14 => if F.w.extractLsb' 2 1 = 0#1 then some (.vsaddVi (F.w.getLsbD 3) (F.w.getLsbD 1) (F.w.getLsbD 0) F.b F.a F.d) else none
  | 15 => if F.w.extractLsb' 2 1 = 0#1 then some (.vssubVi (F.w.getLsbD 3) (F.w.getLsbD 1) (F.w.getLsbD 0) F.b F.a F.d) else none
  | 16 => if F.w.extractLsb' 2 1 = 0#1 then some (.vwmulVi (F.w.getLsbD 3) (F.w.getLsbD 1) (F.w.getLsbD 0) F.b F.a F.d) else none
  | 17 => if F.w.extractLsb' 2 1 = 0#1 then some (.vwmaccVi (F.w.getLsbD 3) (F.w.getLsbD 1) (F.w.getLsbD 0) F.b F.a F.d) else none
  | 18 => if F.w.extractLsb' 2 1 = 0#1 then some (.vnshrVi (F.w.getLsbD 3) (F.w.getLsbD 1) (F.w.getLsbD 0) F.b F.a F.d) else none
  | _ => none

/-- Major opcode 0x23 (15 R291, R292): VCMP. -/
def decOp23 (F : Fields) : Option Instr :=
  if F.w.extractLsb' 0 1 = 0#1 ∧ F.d.extractLsb' 3 2 = 0#2 then some (.vcmp (F.w.getLsbD 3) (F.w.getLsbD 2) (F.w.getLsbD 1) F.f F.b F.a (F.d.extractLsb' 0 3)) else none

/-- Major opcode 0x24 (15 R291, R292): VBLEND, VMV, VSLIDE, VPICK, VPREPOP, VPACKM, VSPREAD, VCONF, VSCAN, VRED, VREDO, VPOPC, VFIRST. -/
def decOp24 (F : Fields) : Option Instr :=
  match F.f.toNat with
  | 0 => if F.w.extractLsb' 0 2 = 2#2 then some (.vblend (F.w.getLsbD 3) (F.w.getLsbD 2) F.b F.a F.d) else none
  | 1 => if F.w.extractLsb' 2 1 = 0#1 ∧ F.w.extractLsb' 0 1 = 0#1 ∧ F.b = 0#5 then some (.vmv (F.w.getLsbD 3) (F.w.getLsbD 1) F.a F.d) else none
  | 2 => some (.vslide (F.w.getLsbD 3) (F.w.getLsbD 2) (F.w.getLsbD 1) (F.w.getLsbD 0) F.b F.a F.d)
  | 3 => if F.w.extractLsb' 0 1 = 0#1 then some (.vpick (F.w.getLsbD 3) (F.w.getLsbD 2) (F.w.getLsbD 1) F.b F.a F.d) else none
  | 4 => if F.w.extractLsb' 2 2 = 0#2 ∧ F.w.extractLsb' 0 1 = 0#1 ∧ F.b = 0#5 ∧ F.a.extractLsb' 3 2 = 0#2 then some (.vprepop (F.w.getLsbD 1) (F.a.extractLsb' 0 3) F.d) else none
  | 5 => if F.w.extractLsb' 0 3 = 0#3 ∧ F.b.extractLsb' 3 2 = 0#2 then some (.vpackm (F.w.getLsbD 3) (F.b.extractLsb' 0 3) F.a F.d) else none
  | 6 => if F.w.extractLsb' 0 3 = 0#3 ∧ F.b.extractLsb' 3 2 = 0#2 then some (.vspread (F.w.getLsbD 3) (F.b.extractLsb' 0 3) F.a F.d) else none
  | 7 => if F.w.extractLsb' 2 1 = 0#1 ∧ F.b = 0#5 ∧ F.d.extractLsb' 3 2 = 0#2 then some (.vconf (F.w.getLsbD 3) (F.w.getLsbD 1) (F.w.getLsbD 0) F.a (F.d.extractLsb' 0 3)) else none
  | 8 => if F.w.extractLsb' 2 1 = 0#1 ∧ F.w.extractLsb' 0 1 = 0#1 then some (.vscan (F.w.getLsbD 3) (F.w.getLsbD 1) F.b F.a F.d) else none
  | 9 => if F.w.extractLsb' 2 1 = 0#1 ∧ F.w.extractLsb' 0 1 = 0#1 then some (.vred (F.w.getLsbD 3) (F.w.getLsbD 1) F.b F.a F.d) else none
  | 10 => if F.w.extractLsb' 2 1 = 0#1 ∧ F.w.extractLsb' 0 1 = 0#1 then some (.vredo (F.w.getLsbD 3) (F.w.getLsbD 1) F.b F.a F.d) else none
  | 11 => if F.w.extractLsb' 2 2 = 0#2 ∧ F.w.extractLsb' 0 1 = 0#1 ∧ F.b = 0#5 ∧ F.a.extractLsb' 3 2 = 0#2 then some (.vpopc (F.w.getLsbD 1) (F.a.extractLsb' 0 3) F.d) else none
  | 12 => if F.w.extractLsb' 2 2 = 0#2 ∧ F.w.extractLsb' 0 1 = 0#1 ∧ F.b = 0#5 ∧ F.a.extractLsb' 3 2 = 0#2 then some (.vfirst (F.w.getLsbD 1) (F.a.extractLsb' 0 3) F.d) else none
  | _ => none

/-- Major opcode 0x25 (15 R291, R292): MLOG, MMOV_MASK, MMOV_FROM_VECTOR, MMOV_TO_VECTOR. -/
def decOp25 (F : Fields) : Option Instr :=
  match F.f.toNat with
  | 0 => if F.w.extractLsb' 2 2 = 0#2 ∧ F.b.extractLsb' 3 2 = 0#2 ∧ F.a.extractLsb' 3 2 = 0#2 then some (.mlog (F.w.getLsbD 1) (F.w.extractLsb' 0 1 ++ F.d.extractLsb' 3 2 : BitVec 3) (F.b.extractLsb' 0 3) (F.a.extractLsb' 0 3) (F.d.extractLsb' 0 3)) else none
  | 1 =>
      if F.w.extractLsb' 2 2 = 0#2 ∧ F.w.extractLsb' 0 1 = 0#1 ∧ F.b = 0#5 ∧ F.a.extractLsb' 3 2 = 0#2 ∧ F.d.extractLsb' 3 2 = 0#2 then some (.mmovMask (F.w.getLsbD 1) (F.a.extractLsb' 0 3) (F.d.extractLsb' 0 3))
      else if F.w.extractLsb' 2 1 = 0#1 ∧ F.w.extractLsb' 0 1 = 0#1 ∧ F.b = 1#5 ∧ F.d.extractLsb' 3 2 = 0#2 then some (.mmovFromVector (F.w.getLsbD 3) (F.w.getLsbD 1) F.a (F.d.extractLsb' 0 3))
      else if F.w.extractLsb' 2 2 = 0#2 ∧ F.w.extractLsb' 0 1 = 0#1 ∧ F.b = 2#5 ∧ F.a.extractLsb' 3 2 = 0#2 then some (.mmovToVector (F.w.getLsbD 1) (F.a.extractLsb' 0 3) F.d)
      else none
  | _ => none

/-- Major opcode 0x26 (15 R291, R292): VFADD_VR, VFSUB_VR, VFMUL_VR, VFDIV_VR, VFMA_VR, VFMIN_VR, VFMAX_VR, VFCMP_VR, VFCVT, VSCACC_VR. -/
def decOp26 (F : Fields) : Option Instr :=
  match F.f.toNat with
  | 0 => if F.w.extractLsb' 0 1 = 0#1 then some (.vfaddVr (F.w.getLsbD 3) (F.w.getLsbD 2) (F.w.getLsbD 1) F.b F.a F.d) else none
  | 1 => if F.w.extractLsb' 0 1 = 0#1 then some (.vfsubVr (F.w.getLsbD 3) (F.w.getLsbD 2) (F.w.getLsbD 1) F.b F.a F.d) else none
  | 2 => if F.w.extractLsb' 0 1 = 0#1 then some (.vfmulVr (F.w.getLsbD 3) (F.w.getLsbD 2) (F.w.getLsbD 1) F.b F.a F.d) else none
  | 3 => if F.w.extractLsb' 0 1 = 0#1 then some (.vfdivVr (F.w.getLsbD 3) (F.w.getLsbD 2) (F.w.getLsbD 1) F.b F.a F.d) else none
  | 4 => if F.w.extractLsb' 0 1 = 0#1 then some (.vfmaVr (F.w.getLsbD 3) (F.w.getLsbD 2) (F.w.getLsbD 1) F.b F.a F.d) else none
  | 5 => if F.w.extractLsb' 0 1 = 0#1 then some (.vfminVr (F.w.getLsbD 3) (F.w.getLsbD 2) (F.w.getLsbD 1) F.b F.a F.d) else none
  | 6 => if F.w.extractLsb' 0 1 = 0#1 then some (.vfmaxVr (F.w.getLsbD 3) (F.w.getLsbD 2) (F.w.getLsbD 1) F.b F.a F.d) else none
  | 7 => if F.w.extractLsb' 0 1 = 0#1 then some (.vfcmpVr (F.w.getLsbD 3) (F.w.getLsbD 2) (F.w.getLsbD 1) F.b F.a (F.d.extractLsb' 3 2) (F.d.extractLsb' 0 3)) else none
  | 8 => if F.w.extractLsb' 2 1 = 0#1 then some (.vfcvt (F.w.getLsbD 3) (F.w.getLsbD 1) (F.w.getLsbD 0) F.b F.a F.d) else none
  | 9 => some (.vscaccVr (F.w.getLsbD 3) (F.w.getLsbD 2) (F.w.getLsbD 1) (F.w.getLsbD 0) F.b F.a F.d)
  | _ => none

/-- Major opcode 0x27 (15 R291, R292): VFADD_VX, VFSUB_VX, VFMUL_VX, VFDIV_VX, VFMA_VX, VFMIN_VX, VFMAX_VX, VFCMP_VX, VSCACC_VX. -/
def decOp27 (F : Fields) : Option Instr :=
  match F.f.toNat with
  | 0 => if F.w.extractLsb' 0 1 = 0#1 then some (.vfaddVx (F.w.getLsbD 3) (F.w.getLsbD 2) (F.w.getLsbD 1) F.b F.a F.d) else none
  | 1 => if F.w.extractLsb' 0 1 = 0#1 then some (.vfsubVx (F.w.getLsbD 3) (F.w.getLsbD 2) (F.w.getLsbD 1) F.b F.a F.d) else none
  | 2 => if F.w.extractLsb' 0 1 = 0#1 then some (.vfmulVx (F.w.getLsbD 3) (F.w.getLsbD 2) (F.w.getLsbD 1) F.b F.a F.d) else none
  | 3 => if F.w.extractLsb' 0 1 = 0#1 then some (.vfdivVx (F.w.getLsbD 3) (F.w.getLsbD 2) (F.w.getLsbD 1) F.b F.a F.d) else none
  | 4 => if F.w.extractLsb' 0 1 = 0#1 then some (.vfmaVx (F.w.getLsbD 3) (F.w.getLsbD 2) (F.w.getLsbD 1) F.b F.a F.d) else none
  | 5 => if F.w.extractLsb' 0 1 = 0#1 then some (.vfminVx (F.w.getLsbD 3) (F.w.getLsbD 2) (F.w.getLsbD 1) F.b F.a F.d) else none
  | 6 => if F.w.extractLsb' 0 1 = 0#1 then some (.vfmaxVx (F.w.getLsbD 3) (F.w.getLsbD 2) (F.w.getLsbD 1) F.b F.a F.d) else none
  | 7 => if F.w.extractLsb' 0 1 = 0#1 then some (.vfcmpVx (F.w.getLsbD 3) (F.w.getLsbD 2) (F.w.getLsbD 1) F.b F.a (F.d.extractLsb' 3 2) (F.d.extractLsb' 0 3)) else none
  | 9 => some (.vscaccVx (F.w.getLsbD 3) (F.w.getLsbD 2) (F.w.getLsbD 1) (F.w.getLsbD 0) F.b F.a F.d)
  | _ => none

/-- Major opcode 0x28 (15 R291, R292): VSF. -/
def decOp28 (F : Fields) : Option Instr :=
  if F.w.extractLsb' 2 1 = 0#1 ∧ F.w.extractLsb' 0 1 = 0#1 ∧ F.b = 0#5 then some (.vsf (F.w.getLsbD 3) (F.w.getLsbD 1) F.f F.a F.d) else none

/-- Major opcode 0x29 (15 R291, R292): VLD. -/
def decOp29 (F : Fields) : Option Instr :=
  if F.w.extractLsb' 2 1 = 0#1 ∧ F.w.extractLsb' 0 1 = 0#1 ∧ F.f.extractLsb' 3 2 = 0#2 then some (.vld (F.w.getLsbD 3) (F.w.getLsbD 1) (F.f.getLsbD 2) (F.f.getLsbD 1) (F.f.getLsbD 0) F.b F.a F.d) else none

/-- Major opcode 0x2A (15 R291, R292): VLDS. -/
def decOp2A (F : Fields) : Option Instr :=
  if F.w.extractLsb' 0 1 = 0#1 ∧ F.f.extractLsb' 3 2 = 0#2 then some (.vlds (F.w.getLsbD 3) (F.w.getLsbD 2) (F.w.getLsbD 1) (F.f.getLsbD 2) (F.f.getLsbD 1) (F.f.getLsbD 0) F.b F.a F.d) else none

/-- Major opcode 0x2B (15 R291, R292): VST. -/
def decOp2B (F : Fields) : Option Instr :=
  if F.w.extractLsb' 2 1 = 0#1 ∧ F.w.extractLsb' 0 1 = 0#1 ∧ F.f.extractLsb' 3 2 = 0#2 ∧ F.f.extractLsb' 1 1 = 0#1 then some (.vst (F.w.getLsbD 3) (F.w.getLsbD 1) (F.f.getLsbD 2) (F.f.getLsbD 0) F.b F.a F.d) else none

/-- Major opcode 0x2C (15 R291, R292): VSTS. -/
def decOp2C (F : Fields) : Option Instr :=
  if F.w.extractLsb' 0 1 = 0#1 ∧ F.f.extractLsb' 3 2 = 0#2 ∧ F.f.extractLsb' 1 1 = 0#1 then some (.vsts (F.w.getLsbD 3) (F.w.getLsbD 2) (F.w.getLsbD 1) (F.f.getLsbD 2) (F.f.getLsbD 0) F.b F.a F.d) else none

/-- Major opcode 0x2D (15 R291, R292): VLDQ. -/
def decOp2D (F : Fields) : Option Instr :=
  if F.w.extractLsb' 0 3 = 0#3 ∧ F.f.extractLsb' 3 2 = 0#2 ∧ F.f.extractLsb' 1 1 = 0#1 ∧ F.d.extractLsb' 2 3 = 0#3 then some (.vldq (F.w.getLsbD 3) (F.f.getLsbD 2) (F.f.getLsbD 0) F.b F.a (F.d.extractLsb' 0 2)) else none

/-- Major opcode 0x2E (15 R291, R292): VSTQ. -/
def decOp2E (F : Fields) : Option Instr :=
  if F.w.extractLsb' 0 3 = 0#3 ∧ F.f.extractLsb' 3 2 = 0#2 ∧ F.f.extractLsb' 1 1 = 0#1 ∧ F.d.extractLsb' 2 3 = 0#3 then some (.vstq (F.w.getLsbD 3) (F.f.getLsbD 2) (F.f.getLsbD 0) F.b F.a (F.d.extractLsb' 0 2)) else none

/-- Major opcode 0x2F (15 R291, R292): VSORT, VMERGE, VMERGEC, VINTER, VUNIQ, VRANK, VPART, VRUN, VRUN_LEN, VUNRUN. -/
def decOp2F (F : Fields) : Option Instr :=
  match F.f.toNat with
  | 0 => if F.w.extractLsb' 1 2 = 0#2 ∧ F.b.extractLsb' 3 2 = 0#2 then some (.vsort (F.w.getLsbD 3) (F.w.getLsbD 0) (F.b.extractLsb' 1 2) (F.b.getLsbD 0) F.a F.d) else none
  | 1 => if F.w.extractLsb' 1 1 = 0#1 then some (.vmerge (F.w.getLsbD 3) (F.w.getLsbD 2) (F.w.getLsbD 0) F.b F.a F.d) else none
  | 2 => if F.w.extractLsb' 1 1 = 0#1 then some (.vmergec (F.w.getLsbD 3) (F.w.getLsbD 2) (F.w.getLsbD 0) F.b F.a F.d) else none
  | 3 => if F.w.extractLsb' 1 1 = 0#1 then some (.vinter (F.w.getLsbD 3) (F.w.getLsbD 2) (F.w.getLsbD 0) F.b F.a F.d) else none
  | 4 => if F.w.extractLsb' 1 2 = 0#2 ∧ F.b = 0#5 then some (.vuniq (F.w.getLsbD 3) (F.w.getLsbD 0) F.a F.d) else none
  | 5 => some (.vrank (F.w.getLsbD 3) (F.w.getLsbD 2) (F.w.getLsbD 1) (F.w.getLsbD 0) F.b F.a F.d)
  | 6 => if F.w.extractLsb' 1 1 = 0#1 then some (.vpart (F.w.getLsbD 3) (F.w.getLsbD 2) (F.w.getLsbD 0) F.b F.a F.d) else none
  | 7 =>
      if F.w.extractLsb' 1 3 = 0#3 ∧ F.b.extractLsb' 3 2 = 0#2 ∧ F.a = 0#5 then some (.vrun (F.w.getLsbD 0) (F.b.extractLsb' 1 2) (F.b.getLsbD 0) F.d)
      else if F.w.extractLsb' 0 3 = 0#3 ∧ F.b = 8#5 then some (.vrunLen (F.w.getLsbD 3) F.a F.d)
      else none
  | 8 => if F.w = 0#4 ∧ F.b = 0#5 ∧ F.a = 0#5 then some (.vunrun F.d) else none
  | _ => none

/-- Major opcode 0x30 (15 R291, R292): EISSUE, EWAIT, ESEQ, EPUB. -/
def decOp30 (F : Fields) : Option Instr :=
  match F.f.toNat with
  | 0 => if F.w.extractLsb' 0 1 = 0#1 ∧ F.d.extractLsb' 3 2 = 0#2 then some (.eissue (F.w.getLsbD 3) (F.w.getLsbD 2) (F.w.getLsbD 1) F.b F.a (F.d.extractLsb' 0 3)) else none
  | 1 => if F.w.extractLsb' 0 2 = 0#2 ∧ F.d = 0#5 then some (.ewait (F.w.getLsbD 3) (F.w.getLsbD 2) F.b F.a) else none
  | 2 => if F.w.extractLsb' 0 3 = 0#3 ∧ F.b = 0#5 then some (.eseq (F.w.getLsbD 3) F.a F.d) else none
  | 3 => if F.w.extractLsb' 0 2 = 0#2 ∧ F.d = 0#5 then some (.epub (F.w.getLsbD 3) (F.w.getLsbD 2) F.b F.a) else none
  | _ => none

/-- Major opcode 0x31 (15 R291, R292): SGATH, SSCAT. -/
def decOp31 (F : Fields) : Option Instr :=
  match F.f.toNat with
  | 0 => if F.w.extractLsb' 0 1 = 0#1 then some (.sgath (F.w.getLsbD 3) (F.w.getLsbD 2) (F.w.getLsbD 1) F.b F.a F.d) else none
  | 1 => some (.sscat (F.w.getLsbD 3) (F.w.getLsbD 2) (F.w.getLsbD 1) (F.w.getLsbD 0) F.b F.a F.d)
  | _ => none

/-- The instruction of a 32-bit word by its fields; none for major opcodes 0x00 and 0x32-0x3F (15 R291). -/
def decodeFields (F : Fields) : Option Instr :=
  match F.op.toNat with
  | 1 => decOp01 F
  | 2 => decOp02 F
  | 3 => decOp03 F
  | 4 => decOp04 F
  | 5 => decOp05 F
  | 6 => decOp06 F
  | 7 => decOp07 F
  | 8 => decOp08 F
  | 9 => decOp09 F
  | 10 => decOp0A F
  | 11 => decOp0B F
  | 12 => decOp0C F
  | 13 => decOp0D F
  | 14 => decOp0E F
  | 15 => decOp0F F
  | 16 => decOp10 F
  | 17 => decOp11 F
  | 18 => decOp12 F
  | 19 => decOp13 F
  | 20 => decOp14 F
  | 21 => decOp15 F
  | 22 => decOp16 F
  | 23 => decOp17 F
  | 24 => decOp18 F
  | 25 => decOp19 F
  | 26 => decOp1A F
  | 27 => decOp1B F
  | 28 => decOp1C F
  | 29 => decOp1D F
  | 30 => decOp1E F
  | 31 => decOp1F F
  | 32 => decOp20 F
  | 33 => decOp21 F
  | 34 => decOp22 F
  | 35 => decOp23 F
  | 36 => decOp24 F
  | 37 => decOp25 F
  | 38 => decOp26 F
  | 39 => decOp27 F
  | 40 => decOp28 F
  | 41 => decOp29 F
  | 42 => decOp2A F
  | 43 => decOp2B F
  | 44 => decOp2C F
  | 45 => decOp2D F
  | 46 => decOp2E F
  | 47 => decOp2F F
  | 48 => decOp30 F
  | 49 => decOp31 F
  | _ => none

/-- The instruction of a 16-bit form by its fields (15 R299, R301); COP 15 and 28-31 are none. -/
def decodeFields16 (F : Fields16) : Option Instr :=
  match F.op.toNat with
  | 0 => some (.cMv F.b F.d)
  | 1 => some (.cAdd F.b F.d)
  | 2 => some (.cSub F.b F.d)
  | 3 => some (.cAnd F.b F.d)
  | 4 => some (.cOr F.b F.d)
  | 5 => some (.cXor F.b F.d)
  | 6 => some (.cShli F.b F.d)
  | 7 => some (.cShri F.b F.d)
  | 8 => some (.cAddi F.b F.d)
  | 9 => some (.cMul F.b F.d)
  | 10 => some (.cFadd F.b F.d)
  | 11 => some (.cFmul F.b F.d)
  | 12 => some (.cFma F.b F.d)
  | 13 => some (.cLd F.b F.d)
  | 14 => some (.cSt F.b F.d)
  | 16 => some (.cVadd F.b F.d)
  | 17 => some (.cVsub F.b F.d)
  | 18 => some (.cVmul F.b F.d)
  | 19 => some (.cVfadd F.b F.d)
  | 20 => some (.cVfsub F.b F.d)
  | 21 => some (.cVfmul F.b F.d)
  | 22 => some (.cVfma F.b F.d)
  | 23 => some (.cVmax F.b F.d)
  | 24 => some (.cVfmax F.b F.d)
  | 25 => some (.cVand F.b F.d)
  | 26 => some (.cVxor F.b F.d)
  | 27 => some (.cVmv F.b F.d)
  | _ => none

/-- TOFF of a tile. -/
def toffOf (ta : BitVec 3) : Instr :=
  match ta.toNat with
  | 0 => .toff0
  | 1 => .toff1
  | 2 => .toff2
  | 3 => .toff3
  | 4 => .toff4
  | 5 => .toff5
  | 6 => .toff6
  | _ => .toff7

/-- TZERO of a tile. -/
def tzeroOf (ta : BitVec 3) : Instr :=
  match ta.toNat with
  | 0 => .tzero0
  | 1 => .tzero1
  | 2 => .tzero2
  | 3 => .tzero3
  | 4 => .tzero4
  | 5 => .tzero5
  | 6 => .tzero6
  | _ => .tzero7

/-- TPRED of an x register. -/
def tpredOf (xa : Reg) : Instr :=
  match xa.toNat with
  | 0 => .tpred0
  | 1 => .tpred1
  | 2 => .tpred2
  | 3 => .tpred3
  | 4 => .tpred4
  | 5 => .tpred5
  | 6 => .tpred6
  | 7 => .tpred7
  | 8 => .tpred8
  | 9 => .tpred9
  | 10 => .tpred10
  | 11 => .tpred11
  | 12 => .tpred12
  | 13 => .tpred13
  | 14 => .tpred14
  | 15 => .tpred15
  | 16 => .tpred16
  | 17 => .tpred17
  | 18 => .tpred18
  | 19 => .tpred19
  | 20 => .tpred20
  | 21 => .tpred21
  | 22 => .tpred22
  | 23 => .tpred23
  | 24 => .tpred24
  | 25 => .tpred25
  | 26 => .tpred26
  | 27 => .tpred27
  | 28 => .tpred28
  | 29 => .tpred29
  | 30 => .tpred30
  | _ => .tpred31

/-- The instruction of a 64-bit tile form (10 R198). Every field a form does not use must be 0; TOP 10-63 are none. -/
def decodeFields64 (F : Fields64) : Option Instr :=
  if F.hi ≠ 0#13 then none
  else
    match F.top.toNat with
    | 0 => if F.tb = 0#3 ∧ F.va = 0#5 ∧ F.vb = 0#5 ∧ F.xa = 0#5 ∧ F.sl = 0#8 ∧ F.vsa = 0#5 ∧ F.vsb = 0#5 ∧ F.sfmt = 0#1
           then some (.tcfg F.fmt F.ta) else none
    | 1 => if F.fmt = 0#3 ∧ F.tb = 0#3 ∧ F.va = 0#5 ∧ F.vb = 0#5 ∧ F.xa = 0#5 ∧ F.sl = 0#8 ∧ F.vsa = 0#5 ∧ F.vsb = 0#5
             ∧ F.sfmt = 0#1 then some (toffOf F.ta) else none
    | 2 => if F.fmt = 0#3 ∧ F.tb = 0#3 ∧ F.va = 0#5 ∧ F.vb = 0#5 ∧ F.xa = 0#5 ∧ F.sl = 0#8 ∧ F.vsa = 0#5 ∧ F.vsb = 0#5
             ∧ F.sfmt = 0#1 then some (tzeroOf F.ta) else none
    | 3 => if F.fmt = 0#3 ∧ F.ta = 0#3 ∧ F.tb = 0#3 ∧ F.va = 0#5 ∧ F.vb = 0#5 ∧ F.sl = 0#8 ∧ F.vsa = 0#5 ∧ F.vsb = 0#5
             ∧ F.sfmt = 0#1 then some (tpredOf F.xa) else none
    | 4 => if F.tb = 0#3 ∧ F.xa = 0#5 ∧ F.sl = 0#8 ∧ F.vsa = 0#5 ∧ F.vsb = 0#5 ∧ F.sfmt = 0#1
           then some (.mopa F.fmt F.ta F.va F.vb) else none
    | 5 => if F.fmt = 0#3 ∧ F.va = 0#5 ∧ F.vb = 0#5 ∧ F.xa = 0#5 ∧ F.sl = 0#8
           then some (.tsacc (F.sfmt.getLsbD 0) F.ta F.tb F.vsa F.vsb) else none
    | 6 => if F.fmt = 0#3 ∧ F.tb = 0#3 ∧ F.vb = 0#5 ∧ F.vsa = 0#5 ∧ F.vsb = 0#5 ∧ F.sfmt = 0#1
           then some (.tmovr F.va F.ta F.xa F.sl) else none
    | 7 => if F.fmt = 0#3 ∧ F.tb = 0#3 ∧ F.vb = 0#5 ∧ F.vsa = 0#5 ∧ F.vsb = 0#5 ∧ F.sfmt = 0#1
           then some (.tmovc F.va F.ta F.xa F.sl) else none
    | 8 => if F.fmt = 0#3 ∧ F.tb = 0#3 ∧ F.va = 0#5 ∧ F.vb = 0#5 ∧ F.vsa = 0#5 ∧ F.vsb = 0#5 ∧ F.sfmt = 0#1
           then some (.tld F.ta F.xa F.sl) else none
    | 9 => if F.fmt = 0#3 ∧ F.tb = 0#3 ∧ F.va = 0#5 ∧ F.vb = 0#5 ∧ F.vsa = 0#5 ∧ F.vsb = 0#5 ∧ F.sfmt = 0#1
           then some (.tst F.ta F.xa F.sl) else none
    | _ => none

/-- A well-formed instruction or nothing: the breaches of `Instr.wf` are no instructions (15 R304). -/
def keepWf (o : Option Instr) : Option Instr :=
  match o with
  | some i => if i.wf then some i else none
  | none => none

/-- The instruction of a 32-bit word. -/
def decodeWord (x : BitVec 32) : Option Instr := keepWf (decodeFields (fieldsOf x))

/-- The instruction of a halfword with bit 0 clear. -/
def decodeHalf (x : BitVec 16) : Option Instr := keepWf (decodeFields16 (fieldsOf16 x))

/-- The instruction of the two words of a tile form. -/
def decodeTile (x : BitVec 64) : Option Instr := keepWf (decodeFields64 (fieldsOf64 x))

/-- Why bytes hold no instruction: too few of them, or the named length's bits are not an instruction (15 R304). -/
inductive DecodeError where
  | short
  | notAnInstruction (bits : Word)
  deriving DecidableEq, Repr

/-- How many halfwords the instruction has that begins with a halfword (15 R280). -/
def parcels (h : BitVec 16) : Nat :=
  if h.getLsbD 0 = false then 1 else if h.getLsbD 1 = false then 2 else 4

/-- Reject by name, or answer with the rest. -/
def decoded (o : Option Instr) (bits : Word) (rest : List Byte) : Except DecodeError (Instr × List Byte) :=
  match o with
  | some i => .ok (i, rest)
  | none => .error (.notAnInstruction bits)

/-- Decode the instruction at the head of little-endian bytes (15 R280), total on any bytes. -/
def decode : List Byte → Except DecodeError (Instr × List Byte)
  | b0 :: b1 :: rest =>
    if b0.getLsbD 0 = false then decoded (decodeHalf (b1 ++ b0)) ((b1 ++ b0).setWidth 64) rest
    else
      match rest with
      | b2 :: b3 :: rest' =>
        if b0.getLsbD 1 = false then
          decoded (decodeWord (b3 ++ b2 ++ b1 ++ b0)) ((b3 ++ b2 ++ b1 ++ b0).setWidth 64) rest'
        else
          match rest' with
          | b4 :: b5 :: b6 :: b7 :: rest'' =>
            decoded (decodeTile (b7 ++ b6 ++ b5 ++ b4 ++ b3 ++ b2 ++ b1 ++ b0))
              (b7 ++ b6 ++ b5 ++ b4 ++ b3 ++ b2 ++ b1 ++ b0) rest''
          | _ => .error .short
      | _ => .error .short
  | _ => .error .short

/-- The fields of the word of each 32-bit instruction, from the encoding of its reference entry; `none` for the other
constructors. -/
def encodeFields : Instr → Option Fields
  | .add p q b a d => some ⟨(BitVec.ofBool p ++ BitVec.ofBool q ++ 0#2 : BitVec 4), 0#5, b, a, d, 1#6⟩
  | .sub p q b a d => some ⟨(BitVec.ofBool p ++ BitVec.ofBool q ++ 0#2 : BitVec 4), 1#5, b, a, d, 1#6⟩
  | .and p q b a d => some ⟨(BitVec.ofBool p ++ BitVec.ofBool q ++ 0#2 : BitVec 4), 2#5, b, a, d, 1#6⟩
  | .or p q b a d => some ⟨(BitVec.ofBool p ++ BitVec.ofBool q ++ 0#2 : BitVec 4), 3#5, b, a, d, 1#6⟩
  | .xor p q b a d => some ⟨(BitVec.ofBool p ++ BitVec.ofBool q ++ 0#2 : BitVec 4), 4#5, b, a, d, 1#6⟩
  | .shl p q b a d => some ⟨(BitVec.ofBool p ++ BitVec.ofBool q ++ 0#2 : BitVec 4), 5#5, b, a, d, 1#6⟩
  | .shr p q b a d => some ⟨(BitVec.ofBool p ++ BitVec.ofBool q ++ 0#2 : BitVec 4), 6#5, b, a, d, 1#6⟩
  | .sha p q b a d => some ⟨(BitVec.ofBool p ++ BitVec.ofBool q ++ 0#2 : BitVec 4), 7#5, b, a, d, 1#6⟩
  | .slt p q b a d => some ⟨(BitVec.ofBool p ++ BitVec.ofBool q ++ 0#2 : BitVec 4), 8#5, b, a, d, 1#6⟩
  | .sltw p q b a d => some ⟨(BitVec.ofBool p ++ BitVec.ofBool q ++ 0#2 : BitVec 4), 9#5, b, a, d, 1#6⟩
  | .min p q b a d => some ⟨(BitVec.ofBool p ++ BitVec.ofBool q ++ 0#2 : BitVec 4), 10#5, b, a, d, 1#6⟩
  | .max p q b a d => some ⟨(BitVec.ofBool p ++ BitVec.ofBool q ++ 0#2 : BitVec 4), 11#5, b, a, d, 1#6⟩
  | .minw p q b a d => some ⟨(BitVec.ofBool p ++ BitVec.ofBool q ++ 0#2 : BitVec 4), 12#5, b, a, d, 1#6⟩
  | .maxw p q b a d => some ⟨(BitVec.ofBool p ++ BitVec.ofBool q ++ 0#2 : BitVec 4), 13#5, b, a, d, 1#6⟩
  | .scadd p q s b a d => some ⟨(BitVec.ofBool p ++ BitVec.ofBool q ++ s : BitVec 4), 14#5, b, a, d, 1#6⟩
  | .clz p a d => some ⟨(BitVec.ofBool p ++ 0#3 : BitVec 4), 15#5, 0#5, a, d, 1#6⟩
  | .ctz p a d => some ⟨(BitVec.ofBool p ++ 0#3 : BitVec 4), 16#5, 0#5, a, d, 1#6⟩
  | .popc p a d => some ⟨(BitVec.ofBool p ++ 0#3 : BitVec 4), 17#5, 0#5, a, d, 1#6⟩
  | .mul p q b a d => some ⟨(BitVec.ofBool p ++ BitVec.ofBool q ++ 0#2 : BitVec 4), 0#5, b, a, d, 2#6⟩
  | .mulh p q b a d => some ⟨(BitVec.ofBool p ++ BitVec.ofBool q ++ 0#2 : BitVec 4), 1#5, b, a, d, 2#6⟩
  | .mulhw p q b a d => some ⟨(BitVec.ofBool p ++ BitVec.ofBool q ++ 0#2 : BitVec 4), 2#5, b, a, d, 2#6⟩
  | .div p q b a d => some ⟨(BitVec.ofBool p ++ BitVec.ofBool q ++ 0#2 : BitVec 4), 3#5, b, a, d, 2#6⟩
  | .divw p q b a d => some ⟨(BitVec.ofBool p ++ BitVec.ofBool q ++ 0#2 : BitVec 4), 4#5, b, a, d, 2#6⟩
  | .rem p q b a d => some ⟨(BitVec.ofBool p ++ BitVec.ofBool q ++ 0#2 : BitVec 4), 5#5, b, a, d, 2#6⟩
  | .remw p q b a d => some ⟨(BitVec.ofBool p ++ BitVec.ofBool q ++ 0#2 : BitVec 4), 6#5, b, a, d, 2#6⟩
  | .addi i a d => some ⟨i.extractLsb' 10 4, i.extractLsb' 5 5, i.extractLsb' 0 5, a, d, 3#6⟩
  | .andi i a d => some ⟨i.extractLsb' 10 4, i.extractLsb' 5 5, i.extractLsb' 0 5, a, d, 4#6⟩
  | .ori i a d => some ⟨i.extractLsb' 10 4, i.extractLsb' 5 5, i.extractLsb' 0 5, a, d, 5#6⟩
  | .xori i a d => some ⟨i.extractLsb' 10 4, i.extractLsb' 5 5, i.extractLsb' 0 5, a, d, 6#6⟩
  | .shli s a d => some ⟨0#4, (0#4 ++ s.extractLsb' 5 1 : BitVec 5), s.extractLsb' 0 5, a, d, 7#6⟩
  | .shri s a d => some ⟨4#4, (0#4 ++ s.extractLsb' 5 1 : BitVec 5), s.extractLsb' 0 5, a, d, 7#6⟩
  | .shai s a d => some ⟨8#4, (0#4 ++ s.extractLsb' 5 1 : BitVec 5), s.extractLsb' 0 5, a, d, 7#6⟩
  | .slti i a d => some ⟨i.extractLsb' 10 4, i.extractLsb' 5 5, i.extractLsb' 0 5, a, d, 8#6⟩
  | .upi i d => some ⟨i.extractLsb' 15 4, i.extractLsb' 10 5, i.extractLsb' 5 5, i.extractLsb' 0 5, d, 9#6⟩
  | .aupc i d => some ⟨i.extractLsb' 15 4, i.extractLsb' 10 5, i.extractLsb' 5 5, i.extractLsb' 0 5, d, 10#6⟩
  | .ld i e s a d => some ⟨i.extractLsb' 6 4, i.extractLsb' 1 5, (i.extractLsb' 0 1 ++ BitVec.ofBool e ++ s : BitVec 5), a, d, 12#6⟩
  | .st i e s a d => some ⟨i.extractLsb' 6 4, i.extractLsb' 1 5, (i.extractLsb' 0 1 ++ BitVec.ofBool e ++ 0#1 ++ s : BitVec 5), a, d, 13#6⟩
  | .beq o b a => some ⟨o.extractLsb' 10 4, o.extractLsb' 5 5, b, a, o.extractLsb' 0 5, 16#6⟩
  | .bne o b a => some ⟨o.extractLsb' 10 4, o.extractLsb' 5 5, b, a, o.extractLsb' 0 5, 17#6⟩
  | .blt o b a => some ⟨o.extractLsb' 10 4, o.extractLsb' 5 5, b, a, o.extractLsb' 0 5, 18#6⟩
  | .bge o b a => some ⟨o.extractLsb' 10 4, o.extractLsb' 5 5, b, a, o.extractLsb' 0 5, 19#6⟩
  | .bltw o b a => some ⟨o.extractLsb' 10 4, o.extractLsb' 5 5, b, a, o.extractLsb' 0 5, 20#6⟩
  | .bgew o b a => some ⟨o.extractLsb' 10 4, o.extractLsb' 5 5, b, a, o.extractLsb' 0 5, 21#6⟩
  | .jal i d => some ⟨i.extractLsb' 15 4, i.extractLsb' 10 5, i.extractLsb' 5 5, i.extractLsb' 0 5, d, 22#6⟩
  | .jalr i a d => some ⟨i.extractLsb' 10 4, i.extractLsb' 5 5, i.extractLsb' 0 5, a, d, 23#6⟩
  | .fadd p q s b a d => some ⟨(BitVec.ofBool p ++ BitVec.ofBool q ++ s : BitVec 4), 0#5, b, a, d, 11#6⟩
  | .fsub p q s b a d => some ⟨(BitVec.ofBool p ++ BitVec.ofBool q ++ s : BitVec 4), 1#5, b, a, d, 11#6⟩
  | .fmul p q s b a d => some ⟨(BitVec.ofBool p ++ BitVec.ofBool q ++ s : BitVec 4), 2#5, b, a, d, 11#6⟩
  | .fdiv p q s b a d => some ⟨(BitVec.ofBool p ++ BitVec.ofBool q ++ s : BitVec 4), 3#5, b, a, d, 11#6⟩
  | .fsqrt p s a d => some ⟨(BitVec.ofBool p ++ 0#1 ++ s : BitVec 4), 4#5, 0#5, a, d, 11#6⟩
  | .fmin p q s b a d => some ⟨(BitVec.ofBool p ++ BitVec.ofBool q ++ s : BitVec 4), 5#5, b, a, d, 11#6⟩
  | .fmax p q s b a d => some ⟨(BitVec.ofBool p ++ BitVec.ofBool q ++ s : BitVec 4), 6#5, b, a, d, 11#6⟩
  | .fcmp p q s b a c d => some ⟨(BitVec.ofBool p ++ BitVec.ofBool q ++ s : BitVec 4), 7#5, b, a, (c ++ d : BitVec 5), 11#6⟩
  | .fcvt p s b a d => some ⟨(BitVec.ofBool p ++ 0#1 ++ s : BitVec 4), 8#5, b, a, d, 11#6⟩
  | .fclass p s a d => some ⟨(BitVec.ofBool p ++ 0#1 ++ s : BitVec 4), 9#5, 0#5, a, d, 11#6⟩
  | .fma p q s b a d => some ⟨(BitVec.ofBool p ++ BitVec.ofBool q ++ s : BitVec 4), 10#5, b, a, d, 11#6⟩
  | .amo p q s f b a d => some ⟨(BitVec.ofBool p ++ BitVec.ofBool q ++ 1#1 ++ BitVec.ofBool s : BitVec 4), f, b, a, d, 14#6⟩
  | .cas p q s b a d => some ⟨(BitVec.ofBool p ++ BitVec.ofBool q ++ 1#1 ++ BitVec.ofBool s : BitVec 4), 0#5, b, a, d, 15#6⟩
  | .trap p a => some ⟨(BitVec.ofBool p ++ 0#3 : BitVec 4), 0#5, 0#5, a, 0#5, 24#6⟩
  | .rett => some ⟨0#4, 1#5, 0#5, 0#5, 0#5, 24#6⟩
  | .brk => some ⟨0#4, 2#5, 0#5, 0#5, 0#5, 24#6⟩
  | .iflush => some ⟨0#4, 3#5, 0#5, 0#5, 0#5, 24#6⟩
  | .idle p q b a d => some ⟨(BitVec.ofBool p ++ BitVec.ofBool q ++ 0#2 : BitVec 4), 4#5, b, a, d, 24#6⟩
  | .freeze p a => some ⟨(BitVec.ofBool p ++ 0#3 : BitVec 4), 5#5, 0#5, a, 0#5, 24#6⟩
  | .thaw p a => some ⟨(BitVec.ofBool p ++ 0#3 : BitVec 4), 6#5, 0#5, a, 0#5, 24#6⟩
  | .scanrd p q b a d => some ⟨(BitVec.ofBool p ++ BitVec.ofBool q ++ 0#2 : BitVec 4), 7#5, b, a, d, 24#6⟩
  | .tlbinv p q b a => some ⟨(BitVec.ofBool p ++ BitVec.ofBool q ++ 0#2 : BitVec 4), 8#5, b, a, 0#5, 24#6⟩
  | .vpmset p q b a => some ⟨(BitVec.ofBool p ++ BitVec.ofBool q ++ 0#2 : BitVec 4), 9#5, b, a, 0#5, 24#6⟩
  | .vpminv p q b a => some ⟨(BitVec.ofBool p ++ BitVec.ofBool q ++ 0#2 : BitVec 4), 10#5, b, a, 0#5, 24#6⟩
  | .srd n d => some ⟨(0#2 ++ n.extractLsb' 10 2 : BitVec 4), n.extractLsb' 5 5, n.extractLsb' 0 5, 0#5, d, 25#6⟩
  | .swr n a d => some ⟨(1#2 ++ n.extractLsb' 10 2 : BitVec 4), n.extractLsb' 5 5, n.extractLsb' 0 5, a, d, 25#6⟩
  | .sset n a d => some ⟨(2#2 ++ n.extractLsb' 10 2 : BitVec 4), n.extractLsb' 5 5, n.extractLsb' 0 5, a, d, 25#6⟩
  | .sclr n a d => some ⟨(3#2 ++ n.extractLsb' 10 2 : BitVec 4), n.extractLsb' 5 5, n.extractLsb' 0 5, a, d, 25#6⟩
  | .spawn p q b a => some ⟨(BitVec.ofBool p ++ BitVec.ofBool q ++ 0#2 : BitVec 4), 0#5, b, a, 0#5, 26#6⟩
  | .join p a d => some ⟨(BitVec.ofBool p ++ 0#3 : BitVec 4), 1#5, 0#5, a, d, 26#6⟩
  | .exit => some ⟨0#4, 2#5, 0#5, 0#5, 0#5, 26#6⟩
  | .launch p q b a d => some ⟨(BitVec.ofBool p ++ BitVec.ofBool q ++ 0#2 : BitVec 4), 3#5, b, a, d, 26#6⟩
  | .withdraw p q b a d => some ⟨(BitVec.ofBool p ++ BitVec.ofBool q ++ 0#2 : BitVec 4), 4#5, b, a, d, 26#6⟩
  | .claim p q b a d => some ⟨(BitVec.ofBool p ++ BitVec.ofBool q ++ 0#2 : BitVec 4), 5#5, b, a, d, 26#6⟩
  | .yield => some ⟨0#4, 6#5, 0#5, 0#5, 0#5, 26#6⟩
  | .wmpub p q b a => some ⟨(BitVec.ofBool p ++ BitVec.ofBool q ++ 0#2 : BitVec 4), 7#5, b, a, 0#5, 26#6⟩
  | .qsync p a d => some ⟨(BitVec.ofBool p ++ 0#3 : BitVec 4), 8#5, 0#5, a, d, 26#6⟩
  | .pin p q b a => some ⟨(BitVec.ofBool p ++ BitVec.ofBool q ++ 0#2 : BitVec 4), 9#5, b, a, 0#5, 26#6⟩
  | .unpin p a => some ⟨(BitVec.ofBool p ++ 0#3 : BitVec 4), 10#5, 0#5, a, 0#5, 26#6⟩
  | .setvl p a d => some ⟨(BitVec.ofBool p ++ 0#3 : BitVec 4), 0#5, 0#5, a, d, 27#6⟩
  | .setvlw p q b a d => some ⟨(BitVec.ofBool p ++ BitVec.ofBool q ++ 0#2 : BitVec 4), 1#5, b, a, d, 27#6⟩
  | .setvlre p q b a d => some ⟨(BitVec.ofBool p ++ BitVec.ofBool q ++ 0#2 : BitVec 4), 2#5, b, a, d, 27#6⟩
  | .vloop p a n => some ⟨(BitVec.ofBool p ++ 0#3 : BitVec 4), 3#5, 0#5, a, n, 27#6⟩
  | .setvt v => some ⟨0#4, (0#1 ++ v.extractLsb' 5 4 : BitVec 5), v.extractLsb' 0 5, 0#5, 0#5, 28#6⟩
  | .waitv p q m g b a d => some ⟨(BitVec.ofBool p ++ BitVec.ofBool q ++ BitVec.ofBool m ++ BitVec.ofBool g : BitVec 4), 0#5, b, a, d, 29#6⟩
  | .viewnew p q b a d => some ⟨(BitVec.ofBool p ++ BitVec.ofBool q ++ 0#2 : BitVec 4), 0#5, b, a, d, 30#6⟩
  | .viewsplit p q b a d => some ⟨(BitVec.ofBool p ++ BitVec.ofBool q ++ 0#2 : BitVec 4), 1#5, b, a, d, 30#6⟩
  | .narrow p q b a d => some ⟨(BitVec.ofBool p ++ BitVec.ofBool q ++ 0#2 : BitVec 4), 2#5, b, a, d, 30#6⟩
  | .viewdrop p a => some ⟨(BitVec.ofBool p ++ 0#3 : BitVec 4), 3#5, 0#5, a, 0#5, 30#6⟩
  | .viewq p q b a d => some ⟨(BitVec.ofBool p ++ BitVec.ofBool q ++ 0#2 : BitVec 4), 4#5, b, a, d, 30#6⟩
  | .specb p q b a d => some ⟨(BitVec.ofBool p ++ BitVec.ofBool q ++ 0#2 : BitVec 4), 0#5, b, a, d, 31#6⟩
  | .specq p q b a d => some ⟨(BitVec.ofBool p ++ BitVec.ofBool q ++ 0#2 : BitVec 4), 1#5, b, a, d, 31#6⟩
  | .specx p a => some ⟨(BitVec.ofBool p ++ 0#3 : BitVec 4), 2#5, 0#5, a, 0#5, 31#6⟩
  | .vaddVr p q m b a d => some ⟨(BitVec.ofBool p ++ BitVec.ofBool q ++ BitVec.ofBool m ++ 0#1 : BitVec 4), 0#5, b, a, d, 32#6⟩
  | .vaddVx p q m b a d => some ⟨(BitVec.ofBool p ++ BitVec.ofBool q ++ BitVec.ofBool m ++ 0#1 : BitVec 4), 0#5, b, a, d, 33#6⟩
  | .vaddVi p m i a d => some ⟨(BitVec.ofBool p ++ 0#1 ++ BitVec.ofBool m ++ 0#1 : BitVec 4), 0#5, i, a, d, 34#6⟩
  | .vsubVr p q m b a d => some ⟨(BitVec.ofBool p ++ BitVec.ofBool q ++ BitVec.ofBool m ++ 0#1 : BitVec 4), 1#5, b, a, d, 32#6⟩
  | .vsubVx p q m b a d => some ⟨(BitVec.ofBool p ++ BitVec.ofBool q ++ BitVec.ofBool m ++ 0#1 : BitVec 4), 1#5, b, a, d, 33#6⟩
  | .vsubVi p m i a d => some ⟨(BitVec.ofBool p ++ 0#1 ++ BitVec.ofBool m ++ 0#1 : BitVec 4), 1#5, i, a, d, 34#6⟩
  | .vmulVr p q m b a d => some ⟨(BitVec.ofBool p ++ BitVec.ofBool q ++ BitVec.ofBool m ++ 0#1 : BitVec 4), 2#5, b, a, d, 32#6⟩
  | .vmulVx p q m b a d => some ⟨(BitVec.ofBool p ++ BitVec.ofBool q ++ BitVec.ofBool m ++ 0#1 : BitVec 4), 2#5, b, a, d, 33#6⟩
  | .vmulVi p m i a d => some ⟨(BitVec.ofBool p ++ 0#1 ++ BitVec.ofBool m ++ 0#1 : BitVec 4), 2#5, i, a, d, 34#6⟩
  | .vmulhVr p q m g b a d => some ⟨(BitVec.ofBool p ++ BitVec.ofBool q ++ BitVec.ofBool m ++ BitVec.ofBool g : BitVec 4), 3#5, b, a, d, 32#6⟩
  | .vmulhVx p q m g b a d => some ⟨(BitVec.ofBool p ++ BitVec.ofBool q ++ BitVec.ofBool m ++ BitVec.ofBool g : BitVec 4), 3#5, b, a, d, 33#6⟩
  | .vmulhVi p m g i a d => some ⟨(BitVec.ofBool p ++ 0#1 ++ BitVec.ofBool m ++ BitVec.ofBool g : BitVec 4), 3#5, i, a, d, 34#6⟩
  | .vdivVr p q m g b a d => some ⟨(BitVec.ofBool p ++ BitVec.ofBool q ++ BitVec.ofBool m ++ BitVec.ofBool g : BitVec 4), 4#5, b, a, d, 32#6⟩
  | .vdivVx p q m g b a d => some ⟨(BitVec.ofBool p ++ BitVec.ofBool q ++ BitVec.ofBool m ++ BitVec.ofBool g : BitVec 4), 4#5, b, a, d, 33#6⟩
  | .vdivVi p m g i a d => some ⟨(BitVec.ofBool p ++ 0#1 ++ BitVec.ofBool m ++ BitVec.ofBool g : BitVec 4), 4#5, i, a, d, 34#6⟩
  | .vremVr p q m g b a d => some ⟨(BitVec.ofBool p ++ BitVec.ofBool q ++ BitVec.ofBool m ++ BitVec.ofBool g : BitVec 4), 5#5, b, a, d, 32#6⟩
  | .vremVx p q m g b a d => some ⟨(BitVec.ofBool p ++ BitVec.ofBool q ++ BitVec.ofBool m ++ BitVec.ofBool g : BitVec 4), 5#5, b, a, d, 33#6⟩
  | .vremVi p m g i a d => some ⟨(BitVec.ofBool p ++ 0#1 ++ BitVec.ofBool m ++ BitVec.ofBool g : BitVec 4), 5#5, i, a, d, 34#6⟩
  | .vminVr p q m g b a d => some ⟨(BitVec.ofBool p ++ BitVec.ofBool q ++ BitVec.ofBool m ++ BitVec.ofBool g : BitVec 4), 6#5, b, a, d, 32#6⟩
  | .vminVx p q m g b a d => some ⟨(BitVec.ofBool p ++ BitVec.ofBool q ++ BitVec.ofBool m ++ BitVec.ofBool g : BitVec 4), 6#5, b, a, d, 33#6⟩
  | .vminVi p m g i a d => some ⟨(BitVec.ofBool p ++ 0#1 ++ BitVec.ofBool m ++ BitVec.ofBool g : BitVec 4), 6#5, i, a, d, 34#6⟩
  | .vmaxVr p q m g b a d => some ⟨(BitVec.ofBool p ++ BitVec.ofBool q ++ BitVec.ofBool m ++ BitVec.ofBool g : BitVec 4), 7#5, b, a, d, 32#6⟩
  | .vmaxVx p q m g b a d => some ⟨(BitVec.ofBool p ++ BitVec.ofBool q ++ BitVec.ofBool m ++ BitVec.ofBool g : BitVec 4), 7#5, b, a, d, 33#6⟩
  | .vmaxVi p m g i a d => some ⟨(BitVec.ofBool p ++ 0#1 ++ BitVec.ofBool m ++ BitVec.ofBool g : BitVec 4), 7#5, i, a, d, 34#6⟩
  | .vandVr p q m b a d => some ⟨(BitVec.ofBool p ++ BitVec.ofBool q ++ BitVec.ofBool m ++ 0#1 : BitVec 4), 8#5, b, a, d, 32#6⟩
  | .vandVx p q m b a d => some ⟨(BitVec.ofBool p ++ BitVec.ofBool q ++ BitVec.ofBool m ++ 0#1 : BitVec 4), 8#5, b, a, d, 33#6⟩
  | .vandVi p m i a d => some ⟨(BitVec.ofBool p ++ 0#1 ++ BitVec.ofBool m ++ 0#1 : BitVec 4), 8#5, i, a, d, 34#6⟩
  | .vorVr p q m b a d => some ⟨(BitVec.ofBool p ++ BitVec.ofBool q ++ BitVec.ofBool m ++ 0#1 : BitVec 4), 9#5, b, a, d, 32#6⟩
  | .vorVx p q m b a d => some ⟨(BitVec.ofBool p ++ BitVec.ofBool q ++ BitVec.ofBool m ++ 0#1 : BitVec 4), 9#5, b, a, d, 33#6⟩
  | .vorVi p m i a d => some ⟨(BitVec.ofBool p ++ 0#1 ++ BitVec.ofBool m ++ 0#1 : BitVec 4), 9#5, i, a, d, 34#6⟩
  | .vxorVr p q m b a d => some ⟨(BitVec.ofBool p ++ BitVec.ofBool q ++ BitVec.ofBool m ++ 0#1 : BitVec 4), 10#5, b, a, d, 32#6⟩
  | .vxorVx p q m b a d => some ⟨(BitVec.ofBool p ++ BitVec.ofBool q ++ BitVec.ofBool m ++ 0#1 : BitVec 4), 10#5, b, a, d, 33#6⟩
  | .vxorVi p m i a d => some ⟨(BitVec.ofBool p ++ 0#1 ++ BitVec.ofBool m ++ 0#1 : BitVec 4), 10#5, i, a, d, 34#6⟩
  | .vshlVr p q m b a d => some ⟨(BitVec.ofBool p ++ BitVec.ofBool q ++ BitVec.ofBool m ++ 0#1 : BitVec 4), 11#5, b, a, d, 32#6⟩
  | .vshlVx p q m b a d => some ⟨(BitVec.ofBool p ++ BitVec.ofBool q ++ BitVec.ofBool m ++ 0#1 : BitVec 4), 11#5, b, a, d, 33#6⟩
  | .vshlVi p m i a d => some ⟨(BitVec.ofBool p ++ 0#1 ++ BitVec.ofBool m ++ 0#1 : BitVec 4), 11#5, i, a, d, 34#6⟩
  | .vshrVr p q m b a d => some ⟨(BitVec.ofBool p ++ BitVec.ofBool q ++ BitVec.ofBool m ++ 0#1 : BitVec 4), 12#5, b, a, d, 32#6⟩
  | .vshrVx p q m b a d => some ⟨(BitVec.ofBool p ++ BitVec.ofBool q ++ BitVec.ofBool m ++ 0#1 : BitVec 4), 12#5, b, a, d, 33#6⟩
  | .vshrVi p m i a d => some ⟨(BitVec.ofBool p ++ 0#1 ++ BitVec.ofBool m ++ 0#1 : BitVec 4), 12#5, i, a, d, 34#6⟩
  | .vshaVr p q m b a d => some ⟨(BitVec.ofBool p ++ BitVec.ofBool q ++ BitVec.ofBool m ++ 0#1 : BitVec 4), 13#5, b, a, d, 32#6⟩
  | .vshaVx p q m b a d => some ⟨(BitVec.ofBool p ++ BitVec.ofBool q ++ BitVec.ofBool m ++ 0#1 : BitVec 4), 13#5, b, a, d, 33#6⟩
  | .vshaVi p m i a d => some ⟨(BitVec.ofBool p ++ 0#1 ++ BitVec.ofBool m ++ 0#1 : BitVec 4), 13#5, i, a, d, 34#6⟩
  | .vsaddVr p q m g b a d => some ⟨(BitVec.ofBool p ++ BitVec.ofBool q ++ BitVec.ofBool m ++ BitVec.ofBool g : BitVec 4), 14#5, b, a, d, 32#6⟩
  | .vsaddVx p q m g b a d => some ⟨(BitVec.ofBool p ++ BitVec.ofBool q ++ BitVec.ofBool m ++ BitVec.ofBool g : BitVec 4), 14#5, b, a, d, 33#6⟩
  | .vsaddVi p m g i a d => some ⟨(BitVec.ofBool p ++ 0#1 ++ BitVec.ofBool m ++ BitVec.ofBool g : BitVec 4), 14#5, i, a, d, 34#6⟩
  | .vssubVr p q m g b a d => some ⟨(BitVec.ofBool p ++ BitVec.ofBool q ++ BitVec.ofBool m ++ BitVec.ofBool g : BitVec 4), 15#5, b, a, d, 32#6⟩
  | .vssubVx p q m g b a d => some ⟨(BitVec.ofBool p ++ BitVec.ofBool q ++ BitVec.ofBool m ++ BitVec.ofBool g : BitVec 4), 15#5, b, a, d, 33#6⟩
  | .vssubVi p m g i a d => some ⟨(BitVec.ofBool p ++ 0#1 ++ BitVec.ofBool m ++ BitVec.ofBool g : BitVec 4), 15#5, i, a, d, 34#6⟩
  | .vwmulVr p q m g b a d => some ⟨(BitVec.ofBool p ++ BitVec.ofBool q ++ BitVec.ofBool m ++ BitVec.ofBool g : BitVec 4), 16#5, b, a, d, 32#6⟩
  | .vwmulVx p q m g b a d => some ⟨(BitVec.ofBool p ++ BitVec.ofBool q ++ BitVec.ofBool m ++ BitVec.ofBool g : BitVec 4), 16#5, b, a, d, 33#6⟩
  | .vwmulVi p m g i a d => some ⟨(BitVec.ofBool p ++ 0#1 ++ BitVec.ofBool m ++ BitVec.ofBool g : BitVec 4), 16#5, i, a, d, 34#6⟩
  | .vwmaccVr p q m g b a d => some ⟨(BitVec.ofBool p ++ BitVec.ofBool q ++ BitVec.ofBool m ++ BitVec.ofBool g : BitVec 4), 17#5, b, a, d, 32#6⟩
  | .vwmaccVx p q m g b a d => some ⟨(BitVec.ofBool p ++ BitVec.ofBool q ++ BitVec.ofBool m ++ BitVec.ofBool g : BitVec 4), 17#5, b, a, d, 33#6⟩
  | .vwmaccVi p m g i a d => some ⟨(BitVec.ofBool p ++ 0#1 ++ BitVec.ofBool m ++ BitVec.ofBool g : BitVec 4), 17#5, i, a, d, 34#6⟩
  | .vnshrVr p q m g b a d => some ⟨(BitVec.ofBool p ++ BitVec.ofBool q ++ BitVec.ofBool m ++ BitVec.ofBool g : BitVec 4), 18#5, b, a, d, 32#6⟩
  | .vnshrVx p q m g b a d => some ⟨(BitVec.ofBool p ++ BitVec.ofBool q ++ BitVec.ofBool m ++ BitVec.ofBool g : BitVec 4), 18#5, b, a, d, 33#6⟩
  | .vnshrVi p m g i a d => some ⟨(BitVec.ofBool p ++ 0#1 ++ BitVec.ofBool m ++ BitVec.ofBool g : BitVec 4), 18#5, i, a, d, 34#6⟩
  | .vcmp p q m c b a d => some ⟨(BitVec.ofBool p ++ BitVec.ofBool q ++ BitVec.ofBool m ++ 0#1 : BitVec 4), c, b, a, (0#2 ++ d : BitVec 5), 35#6⟩
  | .vblend p q b a d => some ⟨(BitVec.ofBool p ++ BitVec.ofBool q ++ 2#2 : BitVec 4), 0#5, b, a, d, 36#6⟩
  | .vmv p m a d => some ⟨(BitVec.ofBool p ++ 0#1 ++ BitVec.ofBool m ++ 0#1 : BitVec 4), 1#5, 0#5, a, d, 36#6⟩
  | .vslide p q m u b a d => some ⟨(BitVec.ofBool p ++ BitVec.ofBool q ++ BitVec.ofBool m ++ BitVec.ofBool u : BitVec 4), 2#5, b, a, d, 36#6⟩
  | .vpick p q m b a d => some ⟨(BitVec.ofBool p ++ BitVec.ofBool q ++ BitVec.ofBool m ++ 0#1 : BitVec 4), 3#5, b, a, d, 36#6⟩
  | .vprepop m a d => some ⟨(0#2 ++ BitVec.ofBool m ++ 0#1 : BitVec 4), 4#5, 0#5, (0#2 ++ a : BitVec 5), d, 36#6⟩
  | .vpackm p k a d => some ⟨(BitVec.ofBool p ++ 0#3 : BitVec 4), 5#5, (0#2 ++ k : BitVec 5), a, d, 36#6⟩
  | .vspread p k a d => some ⟨(BitVec.ofBool p ++ 0#3 : BitVec 4), 6#5, (0#2 ++ k : BitVec 5), a, d, 36#6⟩
  | .vconf p m l a d => some ⟨(BitVec.ofBool p ++ 0#1 ++ BitVec.ofBool m ++ BitVec.ofBool l : BitVec 4), 7#5, 0#5, a, (0#2 ++ d : BitVec 5), 36#6⟩
  | .vscan p m b a d => some ⟨(BitVec.ofBool p ++ 0#1 ++ BitVec.ofBool m ++ 0#1 : BitVec 4), 8#5, b, a, d, 36#6⟩
  | .vred p m b a d => some ⟨(BitVec.ofBool p ++ 0#1 ++ BitVec.ofBool m ++ 0#1 : BitVec 4), 9#5, b, a, d, 36#6⟩
  | .vredo p m b a d => some ⟨(BitVec.ofBool p ++ 0#1 ++ BitVec.ofBool m ++ 0#1 : BitVec 4), 10#5, b, a, d, 36#6⟩
  | .vpopc m a d => some ⟨(0#2 ++ BitVec.ofBool m ++ 0#1 : BitVec 4), 11#5, 0#5, (0#2 ++ a : BitVec 5), d, 36#6⟩
  | .vfirst m a d => some ⟨(0#2 ++ BitVec.ofBool m ++ 0#1 : BitVec 4), 12#5, 0#5, (0#2 ++ a : BitVec 5), d, 36#6⟩
  | .mlog m o b a d => some ⟨(0#2 ++ BitVec.ofBool m ++ o.extractLsb' 2 1 : BitVec 4), 0#5, (0#2 ++ b : BitVec 5), (0#2 ++ a : BitVec 5), (o.extractLsb' 0 2 ++ d : BitVec 5), 37#6⟩
  | .mmovMask m a d => some ⟨(0#2 ++ BitVec.ofBool m ++ 0#1 : BitVec 4), 1#5, 0#5, (0#2 ++ a : BitVec 5), (0#2 ++ d : BitVec 5), 37#6⟩
  | .mmovFromVector p m a d => some ⟨(BitVec.ofBool p ++ 0#1 ++ BitVec.ofBool m ++ 0#1 : BitVec 4), 1#5, 1#5, a, (0#2 ++ d : BitVec 5), 37#6⟩
  | .mmovToVector m a d => some ⟨(0#2 ++ BitVec.ofBool m ++ 0#1 : BitVec 4), 1#5, 2#5, (0#2 ++ a : BitVec 5), d, 37#6⟩
  | .vfaddVr p q m b a d => some ⟨(BitVec.ofBool p ++ BitVec.ofBool q ++ BitVec.ofBool m ++ 0#1 : BitVec 4), 0#5, b, a, d, 38#6⟩
  | .vfaddVx p q m b a d => some ⟨(BitVec.ofBool p ++ BitVec.ofBool q ++ BitVec.ofBool m ++ 0#1 : BitVec 4), 0#5, b, a, d, 39#6⟩
  | .vfsubVr p q m b a d => some ⟨(BitVec.ofBool p ++ BitVec.ofBool q ++ BitVec.ofBool m ++ 0#1 : BitVec 4), 1#5, b, a, d, 38#6⟩
  | .vfsubVx p q m b a d => some ⟨(BitVec.ofBool p ++ BitVec.ofBool q ++ BitVec.ofBool m ++ 0#1 : BitVec 4), 1#5, b, a, d, 39#6⟩
  | .vfmulVr p q m b a d => some ⟨(BitVec.ofBool p ++ BitVec.ofBool q ++ BitVec.ofBool m ++ 0#1 : BitVec 4), 2#5, b, a, d, 38#6⟩
  | .vfmulVx p q m b a d => some ⟨(BitVec.ofBool p ++ BitVec.ofBool q ++ BitVec.ofBool m ++ 0#1 : BitVec 4), 2#5, b, a, d, 39#6⟩
  | .vfdivVr p q m b a d => some ⟨(BitVec.ofBool p ++ BitVec.ofBool q ++ BitVec.ofBool m ++ 0#1 : BitVec 4), 3#5, b, a, d, 38#6⟩
  | .vfdivVx p q m b a d => some ⟨(BitVec.ofBool p ++ BitVec.ofBool q ++ BitVec.ofBool m ++ 0#1 : BitVec 4), 3#5, b, a, d, 39#6⟩
  | .vfmaVr p q m b a d => some ⟨(BitVec.ofBool p ++ BitVec.ofBool q ++ BitVec.ofBool m ++ 0#1 : BitVec 4), 4#5, b, a, d, 38#6⟩
  | .vfmaVx p q m b a d => some ⟨(BitVec.ofBool p ++ BitVec.ofBool q ++ BitVec.ofBool m ++ 0#1 : BitVec 4), 4#5, b, a, d, 39#6⟩
  | .vfminVr p q m b a d => some ⟨(BitVec.ofBool p ++ BitVec.ofBool q ++ BitVec.ofBool m ++ 0#1 : BitVec 4), 5#5, b, a, d, 38#6⟩
  | .vfminVx p q m b a d => some ⟨(BitVec.ofBool p ++ BitVec.ofBool q ++ BitVec.ofBool m ++ 0#1 : BitVec 4), 5#5, b, a, d, 39#6⟩
  | .vfmaxVr p q m b a d => some ⟨(BitVec.ofBool p ++ BitVec.ofBool q ++ BitVec.ofBool m ++ 0#1 : BitVec 4), 6#5, b, a, d, 38#6⟩
  | .vfmaxVx p q m b a d => some ⟨(BitVec.ofBool p ++ BitVec.ofBool q ++ BitVec.ofBool m ++ 0#1 : BitVec 4), 6#5, b, a, d, 39#6⟩
  | .vfcmpVr p q m b a c d => some ⟨(BitVec.ofBool p ++ BitVec.ofBool q ++ BitVec.ofBool m ++ 0#1 : BitVec 4), 7#5, b, a, (c ++ d : BitVec 5), 38#6⟩
  | .vfcmpVx p q m b a c d => some ⟨(BitVec.ofBool p ++ BitVec.ofBool q ++ BitVec.ofBool m ++ 0#1 : BitVec 4), 7#5, b, a, (c ++ d : BitVec 5), 39#6⟩
  | .vfcvt p m w b a d => some ⟨(BitVec.ofBool p ++ 0#1 ++ BitVec.ofBool m ++ BitVec.ofBool w : BitVec 4), 8#5, b, a, d, 38#6⟩
  | .vscaccVr p q m g b a d => some ⟨(BitVec.ofBool p ++ BitVec.ofBool q ++ BitVec.ofBool m ++ BitVec.ofBool g : BitVec 4), 9#5, b, a, d, 38#6⟩
  | .vscaccVx p q m g b a d => some ⟨(BitVec.ofBool p ++ BitVec.ofBool q ++ BitVec.ofBool m ++ BitVec.ofBool g : BitVec 4), 9#5, b, a, d, 39#6⟩
  | .vsf p m f a d => some ⟨(BitVec.ofBool p ++ 0#1 ++ BitVec.ofBool m ++ 0#1 : BitVec 4), f, 0#5, a, d, 40#6⟩
  | .vld p m e f l b a d => some ⟨(BitVec.ofBool p ++ 0#1 ++ BitVec.ofBool m ++ 0#1 : BitVec 4), (0#2 ++ BitVec.ofBool e ++ BitVec.ofBool f ++ BitVec.ofBool l : BitVec 5), b, a, d, 41#6⟩
  | .vlds p q m e f l b a d => some ⟨(BitVec.ofBool p ++ BitVec.ofBool q ++ BitVec.ofBool m ++ 0#1 : BitVec 4), (0#2 ++ BitVec.ofBool e ++ BitVec.ofBool f ++ BitVec.ofBool l : BitVec 5), b, a, d, 42#6⟩
  | .vst p m e l b a d => some ⟨(BitVec.ofBool p ++ 0#1 ++ BitVec.ofBool m ++ 0#1 : BitVec 4), (0#2 ++ BitVec.ofBool e ++ 0#1 ++ BitVec.ofBool l : BitVec 5), b, a, d, 43#6⟩
  | .vsts p q m e l b a d => some ⟨(BitVec.ofBool p ++ BitVec.ofBool q ++ BitVec.ofBool m ++ 0#1 : BitVec 4), (0#2 ++ BitVec.ofBool e ++ 0#1 ++ BitVec.ofBool l : BitVec 5), b, a, d, 44#6⟩
  | .vldq p e l b a n => some ⟨(BitVec.ofBool p ++ 0#3 : BitVec 4), (0#2 ++ BitVec.ofBool e ++ 0#1 ++ BitVec.ofBool l : BitVec 5), b, a, (0#3 ++ n : BitVec 5), 45#6⟩
  | .vstq p e l b a n => some ⟨(BitVec.ofBool p ++ 0#3 : BitVec 4), (0#2 ++ BitVec.ofBool e ++ 0#1 ++ BitVec.ofBool l : BitVec 5), b, a, (0#3 ++ n : BitVec 5), 46#6⟩
  | .vsort p g k r a d => some ⟨(BitVec.ofBool p ++ 0#2 ++ BitVec.ofBool g : BitVec 4), 0#5, (0#2 ++ k ++ BitVec.ofBool r : BitVec 5), a, d, 47#6⟩
  | .vmerge p q g b a d => some ⟨(BitVec.ofBool p ++ BitVec.ofBool q ++ 0#1 ++ BitVec.ofBool g : BitVec 4), 1#5, b, a, d, 47#6⟩
  | .vmergec p q g b a d => some ⟨(BitVec.ofBool p ++ BitVec.ofBool q ++ 0#1 ++ BitVec.ofBool g : BitVec 4), 2#5, b, a, d, 47#6⟩
  | .vinter p q g b a d => some ⟨(BitVec.ofBool p ++ BitVec.ofBool q ++ 0#1 ++ BitVec.ofBool g : BitVec 4), 3#5, b, a, d, 47#6⟩
  | .vuniq p g a d => some ⟨(BitVec.ofBool p ++ 0#2 ++ BitVec.ofBool g : BitVec 4), 4#5, 0#5, a, d, 47#6⟩
  | .vrank p q m g b a d => some ⟨(BitVec.ofBool p ++ BitVec.ofBool q ++ BitVec.ofBool m ++ BitVec.ofBool g : BitVec 4), 5#5, b, a, d, 47#6⟩
  | .vpart p q g b a d => some ⟨(BitVec.ofBool p ++ BitVec.ofBool q ++ 0#1 ++ BitVec.ofBool g : BitVec 4), 6#5, b, a, d, 47#6⟩
  | .vrun g k r d => some ⟨(0#3 ++ BitVec.ofBool g : BitVec 4), 7#5, (0#2 ++ k ++ BitVec.ofBool r : BitVec 5), 0#5, d, 47#6⟩
  | .vrunLen p a d => some ⟨(BitVec.ofBool p ++ 0#3 : BitVec 4), 7#5, 8#5, a, d, 47#6⟩
  | .vunrun d => some ⟨0#4, 8#5, 0#5, 0#5, d, 47#6⟩
  | .eissue p q m b a k => some ⟨(BitVec.ofBool p ++ BitVec.ofBool q ++ BitVec.ofBool m ++ 0#1 : BitVec 4), 0#5, b, a, (0#2 ++ k : BitVec 5), 48#6⟩
  | .ewait p q b a => some ⟨(BitVec.ofBool p ++ BitVec.ofBool q ++ 0#2 : BitVec 4), 1#5, b, a, 0#5, 48#6⟩
  | .eseq p a d => some ⟨(BitVec.ofBool p ++ 0#3 : BitVec 4), 2#5, 0#5, a, d, 48#6⟩
  | .epub p q b a => some ⟨(BitVec.ofBool p ++ BitVec.ofBool q ++ 0#2 : BitVec 4), 3#5, b, a, 0#5, 48#6⟩
  | .sgath p q m b a d => some ⟨(BitVec.ofBool p ++ BitVec.ofBool q ++ BitVec.ofBool m ++ 0#1 : BitVec 4), 0#5, b, a, d, 49#6⟩
  | .sscat p q m g b a d => some ⟨(BitVec.ofBool p ++ BitVec.ofBool q ++ BitVec.ofBool m ++ BitVec.ofBool g : BitVec 4), 1#5, b, a, d, 49#6⟩
  | _ => none

/-- The fields of each 16-bit form. -/
def encodeFields16 : Instr → Option Fields16
  | .cMv b d => some ⟨b, d, 0#5⟩
  | .cAdd b d => some ⟨b, d, 1#5⟩
  | .cSub b d => some ⟨b, d, 2#5⟩
  | .cAnd b d => some ⟨b, d, 3#5⟩
  | .cOr b d => some ⟨b, d, 4#5⟩
  | .cXor b d => some ⟨b, d, 5#5⟩
  | .cShli i d => some ⟨i, d, 6#5⟩
  | .cShri i d => some ⟨i, d, 7#5⟩
  | .cAddi i d => some ⟨i, d, 8#5⟩
  | .cMul b d => some ⟨b, d, 9#5⟩
  | .cFadd b d => some ⟨b, d, 10#5⟩
  | .cFmul b d => some ⟨b, d, 11#5⟩
  | .cFma b d => some ⟨b, d, 12#5⟩
  | .cLd i d => some ⟨i, d, 13#5⟩
  | .cSt i d => some ⟨i, d, 14#5⟩
  | .cVadd b d => some ⟨b, d, 16#5⟩
  | .cVsub b d => some ⟨b, d, 17#5⟩
  | .cVmul b d => some ⟨b, d, 18#5⟩
  | .cVfadd b d => some ⟨b, d, 19#5⟩
  | .cVfsub b d => some ⟨b, d, 20#5⟩
  | .cVfmul b d => some ⟨b, d, 21#5⟩
  | .cVfma b d => some ⟨b, d, 22#5⟩
  | .cVmax b d => some ⟨b, d, 23#5⟩
  | .cVfmax b d => some ⟨b, d, 24#5⟩
  | .cVand b d => some ⟨b, d, 25#5⟩
  | .cVxor b d => some ⟨b, d, 26#5⟩
  | .cVmv b d => some ⟨b, d, 27#5⟩
  | _ => none

/-- The fields of each tile form (10 R198). -/
def encodeFields64 : Instr → Option Fields64
  | .tcfg fmt ta => some ⟨0, 0, 0, 0, 0, fmt, 0, 0, 0, 0, ta, 0⟩
  | .toff0 => some ⟨0, 0, 0, 0, 0, 0, 0, 0, 0, 0, 0, 1⟩
  | .toff1 => some ⟨0, 0, 0, 0, 0, 0, 0, 0, 0, 0, 1, 1⟩
  | .toff2 => some ⟨0, 0, 0, 0, 0, 0, 0, 0, 0, 0, 2, 1⟩
  | .toff3 => some ⟨0, 0, 0, 0, 0, 0, 0, 0, 0, 0, 3, 1⟩
  | .toff4 => some ⟨0, 0, 0, 0, 0, 0, 0, 0, 0, 0, 4, 1⟩
  | .toff5 => some ⟨0, 0, 0, 0, 0, 0, 0, 0, 0, 0, 5, 1⟩
  | .toff6 => some ⟨0, 0, 0, 0, 0, 0, 0, 0, 0, 0, 6, 1⟩
  | .toff7 => some ⟨0, 0, 0, 0, 0, 0, 0, 0, 0, 0, 7, 1⟩
  | .tzero0 => some ⟨0, 0, 0, 0, 0, 0, 0, 0, 0, 0, 0, 2⟩
  | .tzero1 => some ⟨0, 0, 0, 0, 0, 0, 0, 0, 0, 0, 1, 2⟩
  | .tzero2 => some ⟨0, 0, 0, 0, 0, 0, 0, 0, 0, 0, 2, 2⟩
  | .tzero3 => some ⟨0, 0, 0, 0, 0, 0, 0, 0, 0, 0, 3, 2⟩
  | .tzero4 => some ⟨0, 0, 0, 0, 0, 0, 0, 0, 0, 0, 4, 2⟩
  | .tzero5 => some ⟨0, 0, 0, 0, 0, 0, 0, 0, 0, 0, 5, 2⟩
  | .tzero6 => some ⟨0, 0, 0, 0, 0, 0, 0, 0, 0, 0, 6, 2⟩
  | .tzero7 => some ⟨0, 0, 0, 0, 0, 0, 0, 0, 0, 0, 7, 2⟩
  | .tpred0 => some ⟨0, 0, 0, 0, 0, 0, 0, 0, 0, 0, 0, 3⟩
  | .tpred1 => some ⟨0, 0, 0, 0, 0, 0, 1, 0, 0, 0, 0, 3⟩
  | .tpred2 => some ⟨0, 0, 0, 0, 0, 0, 2, 0, 0, 0, 0, 3⟩
  | .tpred3 => some ⟨0, 0, 0, 0, 0, 0, 3, 0, 0, 0, 0, 3⟩
  | .tpred4 => some ⟨0, 0, 0, 0, 0, 0, 4, 0, 0, 0, 0, 3⟩
  | .tpred5 => some ⟨0, 0, 0, 0, 0, 0, 5, 0, 0, 0, 0, 3⟩
  | .tpred6 => some ⟨0, 0, 0, 0, 0, 0, 6, 0, 0, 0, 0, 3⟩
  | .tpred7 => some ⟨0, 0, 0, 0, 0, 0, 7, 0, 0, 0, 0, 3⟩
  | .tpred8 => some ⟨0, 0, 0, 0, 0, 0, 8, 0, 0, 0, 0, 3⟩
  | .tpred9 => some ⟨0, 0, 0, 0, 0, 0, 9, 0, 0, 0, 0, 3⟩
  | .tpred10 => some ⟨0, 0, 0, 0, 0, 0, 10, 0, 0, 0, 0, 3⟩
  | .tpred11 => some ⟨0, 0, 0, 0, 0, 0, 11, 0, 0, 0, 0, 3⟩
  | .tpred12 => some ⟨0, 0, 0, 0, 0, 0, 12, 0, 0, 0, 0, 3⟩
  | .tpred13 => some ⟨0, 0, 0, 0, 0, 0, 13, 0, 0, 0, 0, 3⟩
  | .tpred14 => some ⟨0, 0, 0, 0, 0, 0, 14, 0, 0, 0, 0, 3⟩
  | .tpred15 => some ⟨0, 0, 0, 0, 0, 0, 15, 0, 0, 0, 0, 3⟩
  | .tpred16 => some ⟨0, 0, 0, 0, 0, 0, 16, 0, 0, 0, 0, 3⟩
  | .tpred17 => some ⟨0, 0, 0, 0, 0, 0, 17, 0, 0, 0, 0, 3⟩
  | .tpred18 => some ⟨0, 0, 0, 0, 0, 0, 18, 0, 0, 0, 0, 3⟩
  | .tpred19 => some ⟨0, 0, 0, 0, 0, 0, 19, 0, 0, 0, 0, 3⟩
  | .tpred20 => some ⟨0, 0, 0, 0, 0, 0, 20, 0, 0, 0, 0, 3⟩
  | .tpred21 => some ⟨0, 0, 0, 0, 0, 0, 21, 0, 0, 0, 0, 3⟩
  | .tpred22 => some ⟨0, 0, 0, 0, 0, 0, 22, 0, 0, 0, 0, 3⟩
  | .tpred23 => some ⟨0, 0, 0, 0, 0, 0, 23, 0, 0, 0, 0, 3⟩
  | .tpred24 => some ⟨0, 0, 0, 0, 0, 0, 24, 0, 0, 0, 0, 3⟩
  | .tpred25 => some ⟨0, 0, 0, 0, 0, 0, 25, 0, 0, 0, 0, 3⟩
  | .tpred26 => some ⟨0, 0, 0, 0, 0, 0, 26, 0, 0, 0, 0, 3⟩
  | .tpred27 => some ⟨0, 0, 0, 0, 0, 0, 27, 0, 0, 0, 0, 3⟩
  | .tpred28 => some ⟨0, 0, 0, 0, 0, 0, 28, 0, 0, 0, 0, 3⟩
  | .tpred29 => some ⟨0, 0, 0, 0, 0, 0, 29, 0, 0, 0, 0, 3⟩
  | .tpred30 => some ⟨0, 0, 0, 0, 0, 0, 30, 0, 0, 0, 0, 3⟩
  | .tpred31 => some ⟨0, 0, 0, 0, 0, 0, 31, 0, 0, 0, 0, 3⟩
  | .mopa fmt ta va vb => some ⟨0, 0, 0, 0, 0, fmt, 0, vb, va, 0, ta, 4⟩
  | .tsacc sf ta tb vsa vsb => some ⟨0, BitVec.ofBool sf, vsb, vsa, 0, 0, 0, 0, 0, tb, ta, 5⟩
  | .tmovr vd ta xa sl => some ⟨0, 0, 0, 0, sl, 0, xa, 0, vd, 0, ta, 6⟩
  | .tmovc vd ta xa sl => some ⟨0, 0, 0, 0, sl, 0, xa, 0, vd, 0, ta, 7⟩
  | .tld ta xa sl => some ⟨0, 0, 0, 0, sl, 0, xa, 0, 0, 0, ta, 8⟩
  | .tst ta xa sl => some ⟨0, 0, 0, 0, sl, 0, xa, 0, 0, 0, ta, 9⟩
  | _ => none

/-- The encoding of an instruction: its length in halfwords and its bits, the first halfword lowest. The device's own
steps have none. -/
def encodeBits (i : Instr) : Option (Nat × Word) :=
  match encodeFields i with
  | some F => some (2, (wordOf F).setWidth 64)
  | none =>
    match encodeFields16 i with
    | some F => some (1, (halfOf F).setWidth 64)
    | none =>
      match encodeFields64 i with
      | some F => some (4, tileOf F)
      | none => none

/-- The low `n` bytes of a word, lowest first (15 R280). -/
def bytesOf : Nat → Word → List Byte
  | 0, _ => []
  | n + 1, x => x.setWidth 8 :: bytesOf n (x >>> 8)

/-- The bytes of an instruction as memory holds them. -/
def encode (i : Instr) : List Byte :=
  match encodeBits i with
  | some (n, x) => bytesOf (2 * n) x
  | none => []

/-- The instruction's bits as `tval` reports them (13 R243, 15 R282). -/
def Instr.bits (i : Instr) : Word :=
  match encodeBits i with
  | some (_, x) => x
  | none => 0

/-- The instruction's length in bytes; the device's own steps have length 0. -/
def Instr.size (i : Instr) : Nat :=
  match encodeBits i with
  | some (n, _) => 2 * n
  | none => 0

/-- What the decoder reads from an instruction whose bits are `w`, bit 0 the lowest bit of the first halfword; the bits
above `nbits`, up to the longest form of 64, are 0. -/
def decodeTableWord (nbits w : Nat) : Option Instr :=
  match decode (bytesOf 8 (BitVec.ofNat 64 (w % 2 ^ nbits))) with
  | .ok (i, _) => some i
  | .error _ => none

end Sys2Proof
end

