-- ==== Sys2Proof/Config.lean ====
section
/-! DEFINITION. What an implementation fixes and the free values: constants without a body, so that no proof can see
what they are (00 R6; log entries 2 and 5 to 11). A value that must be fresh each time is a function of the cycle counter
and of the place it is written to. -/

namespace Sys2Proof.Config

/-- A register's value at dispatch (01 R9): cycle, place (64 x slot + register). -/
opaque freeWord : Nat → Nat → Word

/-- A vector register's value at dispatch. -/
opaque freeVector : Nat → Nat → BitVec 16384

/-- A mask register's value at dispatch. -/
opaque freeMask : Nat → Nat → BitVec 32768

/-- A byte whose value the spec leaves undefined: of a race (08 R153), of overlapped copies (09 R178), of an image byte
or host access that R271 or R273 leaves undefined. -/
opaque freeByte : Nat → Nat → Byte

/-- Whether a front still holds a cached translation whose page-table entry has changed (07 R131). -/
opaque tlbHolds : Nat → Nat → Bool

/-- Which of 16 differing level-1 entries of a 64 KiB page an access uses (07 R130). -/
opaque s64Pick : Nat → Nat → Nat

/-- A VSF result that R102 bounds and does not determine: function, operand format (0 F16, 1 BF16, 2 F32), operand
bits. -/
opaque vsf : Nat → Nat → Nat → Nat

/-- Whether the device at the other end of a port accepts a PEERCOPY record (14 R270): cycle, port. -/
opaque peerAccepts : Nat → Nat → Bool

/-- Whether an image verifies against the fused public key (14 R274). -/
opaque imageVerifies : List Byte → Bool

/-- The security version in an image's header (14 R274). -/
opaque imageVersion : List Byte → BitVec 32

/-- The fused minimum of the security version (14 R274). -/
opaque fusedMinimum : BitVec 32

/-- The device serial number (14 R276). -/
opaque serialNumber : Word

/-- The signed report of an attestation (14 R276), of whose layout the spec says nothing: measurement, security version,
fused minimum, serial number, nonce. -/
opaque attestReport : BitVec 256 → BitVec 32 → BitVec 32 → Word → List Byte → List Byte

/-- The HBM row that holds a physical address (14 R278). -/
opaque hbmRow : Nat → Nat

end Sys2Proof.Config
end

