-- ==== Sys2Proof/Machine/Table.lean ====
section
/-! DEFINITION. Sparse tables: lists of key and value pairs in one canonical form (keys strictly rising, no entry equal
to the value that an unlisted key reads as), so that equal tables are equal lists. Register files, memories, fronts,
cores, contexts and the device's other numbered structures are all held in this form. -/

namespace Sys2Proof.Machine

/-- A table from natural numbers: what an unlisted key reads as is an argument of the operations. -/
abbrev Table (α : Type) := List (Nat × α)

/-- What key `k` reads as. -/
def Table.get {α : Type} (d : α) : Table α → Nat → α
  | [], _ => d
  | (j, v) :: t, k => if j = k then v else Table.get d t k

/-- Remove every entry of key `k`. -/
def Table.erase {α : Type} (t : Table α) (k : Nat) : Table α := t.filter (fun e => e.1 != k)

/-- Put an entry before the first larger key. -/
def Table.insert {α : Type} : Table α → Nat → α → Table α
  | [], k, v => [(k, v)]
  | (j, w) :: t, k, v => if k < j then (k, v) :: (j, w) :: t else (j, w) :: Table.insert t k v

/-- Write key `k`; writing the default removes the entry. -/
def Table.set {α : Type} [DecidableEq α] (d : α) (t : Table α) (k : Nat) (v : α) : Table α :=
  if v = d then t.erase k else (t.erase k).insert k v

/-- Remove the keys of [lo, hi). -/
def Table.clear {α : Type} (t : Table α) (lo hi : Nat) : Table α := t.filter (fun e => e.1 < lo || hi ≤ e.1)

/-- Every listed key is above `n`, and they rise. -/
def Table.sortedFrom {α : Type} : Table α → Nat → Bool
  | [], _ => true
  | (j, _) :: t, n => n ≤ j && Table.sortedFrom t (j + 1)

/-- The canonical form. -/
def Table.wf {α : Type} [DecidableEq α] (d : α) (t : Table α) : Bool :=
  t.sortedFrom 0 && t.all (fun e => e.2 != d)

/-- The `n` bytes from key `k` upwards of a byte table whose unlisted keys read 0. -/
def Table.bytes (t : Table Byte) (k : Nat) : Nat → List Byte
  | 0 => []
  | n + 1 => t.get 0 k :: Table.bytes t (k + 1) n

/-- Write bytes at `k` upwards. -/
def Table.setBytes (t : Table Byte) (k : Nat) : List Byte → Table Byte
  | [] => t
  | b :: bs => Table.setBytes (t.set 0 k b) (k + 1) bs

/-- A little-endian number (15 R280). -/
def ofBytes : List Byte → Nat
  | [] => 0
  | b :: bs => b.toNat + 256 * ofBytes bs

/-- The low `n` bytes of a number, lowest first. -/
def toBytes : Nat → Nat → List Byte
  | 0, _ => []
  | n + 1, x => BitVec.ofNat 8 x :: toBytes n (x / 256)

end Sys2Proof.Machine
end

