-- ==== Sys2Proof/Machine/State.lean ====
section
/-! DEFINITION. The state of the Gnonus XG-940 as plain data: every piece of state the spec names, each under the rule
that names it, and the few fields of the model's own (the agenda of turns not yet taken, the current front and slot, the
operands of a step of the device), each marked so. A field with no rule after it belongs to the rule above it. Tables are sparse
(`Machine/Table.lean`); the default of each is named where it is read. -/

namespace Sys2Proof.Machine

/-- Bytes by address; an unlisted byte reads 0 (DESIGN CHOICE, log entry 3). -/
abbrev Memory := Table Byte

/-- The canonical form of a memory. -/
def Memory.wf (m : Memory) : Bool := Table.wf 0 m

/-- The registers of a hart slot that the strip checkpoint saves (04 R52, R70), and its pc. -/
structure Regs where
  /-- x1-x31, 64 bits (R52); x0 reads 0. -/
  x : Table Word := []
  /-- Bit k: x register k is empty (R68). -/
  xEmpty : BitVec 32 := 0
  /-- v0-v31 (02 R11): 64 lanes of 256 bits. -/
  v : Table (BitVec 16384) := []
  vEmpty : BitVec 32 := 0
  /-- m0-m7 (18 R364). -/
  m : Table (BitVec 32768) := []
  /-- Run tags stag0-stag31 (06 R105). -/
  stag : Table Word := []
  /-- 04 R56. -/
  vl : BitVec 16 := 0
  /-- 04 R54: MP, TP, GRP, FMT, SEW. -/
  vtype : BitVec 9 := 3#9
  /-- 05 R94: NV, DZ, OF, UF, NX from bit 4 down, as the map gives. -/
  fflags : BitVec 5 := 0
  /-- 05 R90. -/
  frm : BitVec 3 := 0
  /-- 05 R93. -/
  erc : BitVec 32 := 0
  /-- 05 R104. -/
  vsflags : BitVec 3 := 0
  /-- 06 R117. -/
  seam : Word := 0
  /-- 08 R162. -/
  wmbase : Word := 0
  /-- 15 R297. -/
  lastd : BitVec 16 := 0
  /-- 04 R79. -/
  loopi : Word := 0
  /-- 04 R66. -/
  rad : BitVec 5 := 16#5
  /-- 15 R298. -/
  fex : Word := 0
  fev : Word := 0
  /-- 10 R197. -/
  tpred : BitVec 16 := 0x8080#16
  /-- The model's own: the address of the VLOOP one of whose iterations runs (04 R78). -/
  loop : Option Word := none
  /-- The address of the next instruction (04 R61, 13 R252). -/
  pc : Word := 0
  deriving DecidableEq, Repr, Inhabited

/-- The states of a tile (10 R195, R196). -/
inductive TileSt where
  | off | idle | busy | draining
  deriving DecidableEq, Repr, Inhabited

/-- An accumulator tile (10 R194-R196): 128 x 128 cells of 32 bits, cell (i, j) at bits from 32 (128 i + j). -/
structure Tile where
  st : TileSt := .off
  fmt : BitVec 3 := 0
  /-- Accumulator kind: true I32. -/
  int : Bool := false
  retired : Bool := false
  /-- The front and serial of the CR that owns it; front 256 is no owner. -/
  front : Nat := 256
  serial : Nat := 0
  cells : BitVec 524288 := 0
  /-- The model's own: how many matrix commands have taken it (10 R207). -/
  uses : Nat := 0
  deriving DecidableEq, Repr, Inhabited

/-- The states of a swatch (07 R137, R138). -/
inductive SwSt where
  | empty | filling | ready | draining
  deriving DecidableEq, Repr, Inhabited

/-- A swatch descriptor of a core (07 R137) and the CR that owns it (front 256: none). -/
structure Swatch where
  st : SwSt := .empty
  len : BitVec 21 := 0
  base : BitVec 21 := 0
  front : Nat := 256
  serial : Nat := 0
  /-- The model's own: the agent number of the Sorus command that had it last, 0 for none (09 R193). -/
  engine : Nat := 0
  deriving DecidableEq, Repr, Inhabited

/-- A vector entry of a load queue or of a store queue's data (04 R63): its elements as one bit string. -/
structure QEntry where
  vl : Nat := 0
  sew : Nat := 3
  bits : Nat := 0
  /-- The end entry that EXIT pushes (R66). -/
  stop : Bool := false
  deriving DecidableEq, Repr, Inhabited

/-- An address entry of a store queue (04 R63, R65). -/
structure AEntry where
  base : Nat := 0
  /-- The range is local. -/
  loc : Bool := false
  /-- Bit offset at SEW 6 (15 R288). -/
  bo : Nat := 0
  vl : Nat := 0
  sew : Nat := 3
  /-- The cycle of its push, which orders the front's store-queue stores (R65). -/
  time : Nat := 0
  deriving DecidableEq, Repr, Inhabited

/-- A write held in the store buffer of a strip (04 R73, 07 R137), with the pc of the store instruction. -/
inductive Buffered where
  /-- Bytes of global memory, by virtual address and memory key, part of an access of `size` bytes. -/
  | global (addr key size : Nat) (data : List Byte) (pc : Word)
  /-- Bytes of the core's scratchpad. -/
  | local (addr : Nat) (data : List Byte) (pc : Word)
  /-- Bits of one byte, global or local, that a store of 6-bit elements writes (20 R458). -/
  | part (loc : Bool) (addr key : Nat) (mask val : Byte) (pc : Word)
  /-- A swatch descriptor, by the core's number of it. -/
  | swatch (k : Nat) (v : Word)
  deriving DecidableEq, Repr, Inhabited

/-- A byte that a strip has read, and as what: by address in the core's scratchpad, or by virtual address and memory key
(04 R75, 07 R135). A read that raced has no value to keep, only its place. -/
structure Lease where
  loc : Bool := false
  va : Nat := 0
  key : Nat := 0
  byte : Option Byte := none
  deriving DecidableEq, Repr, Inhabited

/-- A value on its way to an empty register (04 R68, R69): x register, or v register of a group. `old` when the strip
that issued it has committed. -/
structure Fill where
  vec : Bool := false
  reg : Nat := 0
  val : Nat := 0
  old : Bool := false
  deriving DecidableEq, Repr, Inhabited

/-- What a hart waits for. `none`: nothing, it can take a turn. -/
inductive Wait where
  | none
  /-- A full register, or a fill (R68, R69). -/
  | register
  /-- The head of a load queue (R64, R66): what R67 asks of the execute hart. -/
  | head (q : Nat)
  /-- Room in a queue (R63, R66). -/
  | room
  /-- A load held by an address entry of a store queue (R67), by its address. -/
  | load (addr : Nat)
  /-- A swatch or tile that is busy (07 R139, 10 R195). -/
  | resource
  | setvlw | waitv | ewait | epub | specq | idle
  deriving DecidableEq, Repr, Inhabited

/-- A trap to deliver at an instruction boundary (04 R65). -/
structure Pend where
  cause : Nat := 0
  val : Word := 0
  deriving DecidableEq, Repr, Inhabited

/-- A hart slot (04 R52). -/
structure Hart where
  regs : Regs := {}
  /-- The strip checkpoint (04 R70). -/
  ckpt : Regs := {}
  /-- The checkpoint's copies of the CR's tiles, by the CR's tile number (10 R207). -/
  ckTiles : List Tile := []
  /-- 11 R217: not checkpointed. -/
  kvblk : BitVec 16 := 0
  /-- `kvblk` as a trap saved it, for RETT (R218). -/
  kvSaved : BitVec 16 := 0
  /-- The store buffer, oldest first (R73). -/
  buf : List Buffered := []
  /-- Load-queue entries popped within the strip, oldest first, with their queue (R74). -/
  popped : List (Nat × QEntry) := []
  /-- The bytes that the strip must find unchanged at its commit: those it has read after a store that is not yet in memory
  (R65, R75; 07 R135). -/
  reads : List Lease := []
  reruns : Nat := 0
  /-- This run of the strip holds its leases (R75). -/
  holds : Bool := false
  /-- The holding hart (2 x front + slot) whose lease stopped this hart's last access (R75). -/
  blockedOn : Option Nat := none
  fills : List Fill := []
  /-- 13 R254: DIRTY, and VLEN in bytes, of each v register. -/
  dirty : BitVec 32 := 0
  vlen : Table Nat := []
  /-- 13 R242: tcause, tval, tpc, and tstat's ASYNC, ROLE and PRIV. They are the slot's, whatever CR runs in it. -/
  tcause : BitVec 8 := 0
  tval : Word := 0
  tpc : Word := 0
  tasync : Bool := false
  trole : BitVec 2 := 0
  priv : Bool := false
  wait : Wait := .none
  /-- The instruction that waits, and the cycle at which its wait began. -/
  waitInstr : Option Instr := none
  waitFrom : Nat := 0
  /-- Traps of store-queue stores, oldest first (R65). -/
  pend : List Pend := []
  /-- Stopped after DEADLOCK (R67). -/
  stopped : Bool := false
  /-- The hart runs a CR and has not executed EXIT (03 R32). -/
  live : Bool := false
  deriving DecidableEq, Repr, Inhabited

/-- A continuation record (03 R27): the fields of its 64 bytes. -/
structure CR where
  code : Word := 0
  frame : Word := 0
  joinaddr : Word := 0
  weight : Word := 0
  tag : BitVec 32 := 0
  region : Nat := 0
  lanemin : Nat := 0
  lanemax : Nat := 0
  kind : Nat := 0
  ticket : Nat := 0
  /-- The save area, 0 for none. -/
  save : Nat := 0
  /-- It is its region's root CR, whose entry is never charged (R39). -/
  root : Bool := false
  /-- It has been dispatched and has come back unsaved (R48; 04 R81). -/
  ran : Bool := false
  /-- The JOIN that woke it (R35; 11 R222): its number among the wakes of the device, 0 for none. -/
  woke : Nat := 0
  deriving DecidableEq, Repr, Inhabited

/-- What a front holds of the CR it runs (03 R27, R28; 13 R249). -/
structure Run where
  cr : CR := {}
  ctx : Nat := 0
  /-- Which CR this is (the model's own number, never given twice). -/
  serial : Nat := 0
  /-- When it was dispatched (03 R45). -/
  since : Nat := 0
  /-- 03 R28. -/
  cweight : Word := 0
  /-- 13 R249. -/
  spawns : Nat := 0
  joins : Nat := 0
  gather : Nat := 0
  wmaddr : Word := 0
  wmval : Word := 0
  /-- 09 R174: an engine command has bound it to this front. -/
  bound : Bool := false
  /-- 10 R194, 07 R137: the core's tiles and swatch descriptors that the CR holds, in its own numbering. -/
  tiles : List Nat := []
  swatches : List Nat := []
  /-- Rolled back without a save area, waiting for lanes (04 R60). -/
  laneless : Bool := false
  deriving DecidableEq, Repr, Inhabited

/-- Where an engine command stands. -/
inductive Phase where
  | waiting
  | running
  /-- Stopped on a fault; the ENGINE trap is to be delivered (09 R183). -/
  | faulted
  /-- The trap has been delivered and the handler has not returned. -/
  | delivered
  /-- The handler has returned; the engine is to try again. -/
  | retry
  /-- All its work is done and its completion record is to be written. -/
  | finished
  deriving DecidableEq, Repr, Inhabited

/-- A command of an engine chain (09 R168) and how far it has got. -/
structure Cmd where
  /-- The record as issued (09 R175, 10 R210, R213); a follow-on has bytes 16-63 zero. -/
  raw : BitVec 512 := 0
  /-- The issuing CR's serial, region, ticket and context; the hart slot that issued it. -/
  serial : Nat := 0
  region : Nat := 0
  /-- The issuing CR's region by its place in the order of launches: ids are given again (03 R38, R40). -/
  launch : Nat := 0
  ticket : Nat := 0
  ticketGen : Nat := 0
  ctx : Nat := 0
  slot : Slot := .e
  /-- It has issuing hart to trap: false for a record that PEERCOPY appended (14 R270). -/
  owned : Bool := true
  /-- Its CR, or its hart, has exited: no hart takes its faults (09 R174). -/
  orphaned : Bool := false
  /-- A follow-on, the sequence number of its copy, and whether that has completed whole or otherwise (09 R187). -/
  follow : Bool := false
  copySeq : Nat := 0
  started : Bool := true
  dropped : Bool := false
  /-- The model's own: a command that RESTORE has placed and whose CR is not back on its front (14 R273); its swatches and tile are
  then the CR's own numbers. -/
  away : Bool := false
  /-- The core's numbers of the swatches it reads and writes, and of its tile. -/
  srcs : List Nat := []
  dsts : List Nat := []
  tile : Option Nat := none
  phase : Phase := .waiting
  /-- Destination bytes, K-steps, rows or Rhizoid's blocks done; for SKIP, the next segment. -/
  pos : Nat := 0
  /-- The word of the source read last, or what has been read of Rhizoid's input vector: address and bytes (09 R178, 10 R216). -/
  kept : Option (Nat × List Byte) := none
  done : Nat := 0
  flags : BitVec 5 := 0
  status : BitVec 8 := 0
  /-- SKIP: segments skipped and not yet retried, how many are delivered, and where its one trap stands (09 R185). -/
  skipped : List Nat := []
  delivered : Nat := 0
  skipTrap : Phase := .waiting
  /-- The list of a listed COPY, read when the command starts (09 R177). -/
  sources : List Nat := []
  loaded : Bool := false
  /-- The source bytes that travelled with a record that PEERCOPY appended (14 R270). -/
  payload : Option (List Byte) := none
  /-- Granules that have raised their one ENGINE trap (09 R183). -/
  trapped : List Nat := []
  failAddr : Word := 0
  failCause : Nat := 0
  /-- The write of the completion record has failed once (09 R181). -/
  recordFailed : Bool := false
  /-- Bytes of the shadow, by window address (08 R159). -/
  shadow : Memory := []
  published : Bool := false
  complete : Bool := false
  /-- The sequence number that its completion makes the front's number, and the number that harts of its context see then: the same
  but after RESTORE (14 R273). -/
  seq : Nat := 0
  label : Nat := 0
  deriving DecidableEq, Repr, Inhabited

/-- A cached scalar translation (07 R131): a leaf, its context, base and size. -/
structure TlbEntry where
  ctx : Nat := 0
  base : Nat := 0
  size : Nat := 4096
  pa : Nat := 0
  x : Bool := false
  w : Bool := false
  r : Bool := false
  u : Bool := false
  deriving DecidableEq, Repr, Inhabited

/-- A SOLO CR that has executed EXIT and whose last vector instruction queue entry has not retired (04 R80, R81; 03 R37): what
the front holds of it, its hart with the strip that is still to commit, its grant and lanes, and what it fetched from. -/
structure Drain where
  run : Run := {}
  hart : Hart := {}
  grant : Nat := 0
  lanes : Word := 0
  image : Memory := []
  deriving DecidableEq, Repr, Inhabited

/-- A front (02 R10): the CR it runs, its two hart slots and what they share. -/
structure Front where
  run : Option Run := none
  /-- The CR whose queue drains, behind which another may run ahead (04 R80). -/
  drain : Option Drain := none
  /-- Lanes granted (04 R56), 0 none, and which lanes of the core they are (04 R59). -/
  grant : Nat := 0
  lanes : Word := 0
  a : Hart := {}
  e : Hart := {}
  /-- Load queues lq0-lq3, store queues sq0-sq3: data and address entries, oldest first (04 R63). -/
  lq : Table (List QEntry) := []
  sqData : Table (List QEntry) := []
  sqAddr : Table (List AEntry) := []
  /-- Bytes that committed loads of the access hart took while a store-queue store before them was not performed, each with the
  push time of the last such store: they stay as read until it is (04 R65, R75). -/
  held : List (Nat × Lease) := []
  /-- Sequence number and chain of each engine selector (09 R168). -/
  seq : Table Word := []
  /-- The sequence number of each engine selector as a context sees it that RESTORE has rebuilt (14 R273), by 3 x context +
  selector. -/
  own : Table (Option Word) := []
  chain : Table (List Cmd) := []
  /-- Completed commands whose shadows no EPUB has published, by selector (08 R159). -/
  shadows : Table (List Cmd) := []
  /-- Memory as of the last IFLUSH or dispatch: what instruction fetch reads (08 R149). -/
  image : Memory := []
  tlb : List TlbEntry := []
  /-- Gated by FREEZE (13 R259). -/
  frozen : Bool := false
  deriving DecidableEq, Repr, Inhabited

/-- A gather or scatter of the Sorus engine with its captured operands (09 R188-R190). -/
structure Sorus where
  scatter : Bool := false
  add : Bool := false
  fp : Bool := false
  signed : Bool := false
  /-- Bytes of an element. -/
  size : Nat := 1
  base : Word := 0
  /-- The index elements and which are active. -/
  idx : List Nat := []
  act : List Bool := []
  ctx : Nat := 0
  region : Nat := 0
  front : Nat := 0
  /-- The model's own: its number among the agents (08 R148). -/
  agent : Nat := 0
  deriving DecidableEq, Repr, Inhabited

/-- A stream core. -/
structure Core where
  /-- 07 R135. -/
  scratch : Memory := []
  swatches : Table Swatch := []
  tiles : Table Tile := []
  /-- 04 R58. -/
  lpart : BitVec 2 := 0
  /-- 04 R59. -/
  lanemap : Word := 0
  /-- 14 R278, by slice (lanes 0-63, tiles from 64): errors corrected; and by 2^24 x slice + word: one more than the cycle
  of the last correction. -/
  corrected : Table Nat := []
  lastError : Table Nat := []
  /-- The Sorus command that fills or drains each swatch (09 R190). -/
  sorus : Table (Option Sorus) := []
  deriving DecidableEq, Repr, Inhabited

/-- A retention register (07 R140). -/
structure Retention where
  base : Nat := 0
  len : Nat := 0
  ways : Nat := 0
  /-- When it was written, among all of the device. -/
  order : Nat := 0
  deriving DecidableEq, Repr, Inhabited

/-- What a context holds (13 R242, R249; 08 R154, R164; 07 R129, R140; 14 R267). -/
structure Ctx where
  tvec : Word := 0
  mixtrap : Bool := false
  stallmax : BitVec 32 := 0
  frec : Word := 0
  root : BitVec 28 := 0
  retention : Table Retention := []
  qentries : BitVec 32 := 0
  scratch : BitVec 32 := 0
  tiles : BitVec 4 := 0
  deriving DecidableEq, Repr, Inhabited

/-- A region (03 R22): the fields of its RCB, its ready and parked CRs and what the dispatcher keeps of it. Status 1 is
ACTIVE. -/
structure Region where
  rcb : Nat := 0
  parent : Nat := 0
  status : Nat := 0
  override : BitVec 32 := 0
  priority : Nat := 0
  propagate : Bool := false
  preemptible : Bool := false
  share : Nat := 0
  fronts : Nat := 0
  lanemin : Nat := 0
  lanemax : Nat := 0
  tiles : Nat := 0
  scratch : Nat := 0
  qentries : Nat := 0
  drawn : Word := 0
  returned : Word := 0
  ring : Nat := 0
  ringlen : Nat := 0
  head : Nat := 0
  tail : Nat := 0
  reserve : Table Nat := []
  charged : Table Nat := []
  rootframe : Word := 0
  done : Word := 0
  roottag : BitVec 32 := 0
  faults : BitVec 32 := 0
  /-- Header values that SPAWNs take (03 R27, R29, R41). -/
  hkind : Nat := 0
  hmin : Nat := 0
  hmax : Nat := 0
  hswatches : Nat := 0
  htiles : Nat := 0
  /-- Ready CRs, head first; parked CRs, oldest first (03 R34, R35). -/
  ready : List CR := []
  parked : List CR := []
  /-- CRs of CHAIN tickets held until the parent is DONE (12 R231). -/
  held : List CR := []
  /-- 03 R43. -/
  aging : Nat := 0
  steps : Nat := 0
  /-- Place in the order of launches (03 R42). -/
  order : Nat := 0
  /-- Failing under PROPAGATE (03 R51). -/
  failing : Bool := false
  frozen : Bool := false
  deriving DecidableEq, Repr, Inhabited

/-- An effect that a ticket logs (12 R234). -/
inductive Effect where
  /-- `priv`: logged in privileged mode, in which its checks passed. -/
  | join (addr : Nat) (priv : Bool)
  | wmpub (addr : Nat) (v : Word) (priv : Bool)
  | amo (f : Nat) (addr : Nat) (size : Nat) (v : Word) (priv : Bool)
  | epub (front sel : Nat) (target : Word)
  deriving DecidableEq, Repr, Inhabited

/-- The states of a ticket (12 R232); `free` before its number is first given out. -/
inductive TicketSt where
  | free | opened | done | committed | squashed | abandoned
  deriving DecidableEq, Repr, Inhabited

/-- A speculation ticket (12 R230-R240). -/
structure Ticket where
  st : TicketSt := .free
  gen : Nat := 0
  ctx : Nat := 0
  region : Nat := 0
  chain : Bool := false
  parent : Nat := 0
  die : Nat := 0
  /-- FIDDLE: descriptor, buffer, element count and format, watermark word, target, tolerances (R225, R230). -/
  desc : Nat := 0
  buf : Nat := 0
  count : Nat := 0
  fmt : Nat := 0
  wm : Nat := 0
  target : Word := 0
  tauAbs : BitVec 32 := 0
  tauRel : BitVec 32 := 0
  /-- CHAIN: the input range. -/
  inBase : Nat := 0
  inLen : Nat := 0
  rejoin : Word := 0
  /-- Output ranges: base and length. -/
  outs : List (Nat × Nat) := []
  /-- Prediction and output shadows, by window address (R227, R234). -/
  pred : Memory := []
  shadow : Memory := []
  /-- Which output bytes the shadow holds. -/
  written : List Nat := []
  log : List Effect := []
  pool : Word := 0
  /-- The weight that SPECB gave and every draw since: what the pool must reach (R237). -/
  total : Word := 0
  image : CR := {}
  /-- The 64 bytes of the CR image that SPECB read (R237). -/
  bytes : List Byte := []
  /-- What the Gauge has read of the real version, right after the event that publishes it (R235): the cause with which the read
  fails, 0 for none, and the bytes. -/
  real : Option (Nat × List Byte) := none
  /-- Which of the events that published something it was (R226). -/
  event : Nat := 0
  /-- Verdict of the Gauge, once given. -/
  verdict : Option Bool := none
  first : BitVec 32 := 0xFFFFFFFF#32
  cause : BitVec 8 := 0
  /-- The pool is still to be delivered: pushed again after a squash, or returned after an abandonment. -/
  owing : Bool := false
  deriving DecidableEq, Repr, Inhabited

/-- A view-table entry (07 R143). -/
structure View where
  live : Bool := false
  gen : Nat := 1
  lo : Nat := 0
  hi : Nat := 0
  ctx : Nat := 0
  deriving DecidableEq, Repr, Inhabited

/-- A save area (13 R254-R256). -/
structure Save where
  /-- 64 KiB units that it takes of the save pool of each die (R256). -/
  units0 : Nat := 0
  units1 : Nat := 0
  run : Run := {}
  grant : Nat := 0
  a : Hart := {}
  e : Hart := {}
  lq : Table (List QEntry) := []
  sqData : Table (List QEntry) := []
  sqAddr : Table (List AEntry) := []
  /-- The front's `held`: the CR's store-queue stores are still to come (04 R65). -/
  held : List (Nat × Lease) := []
  /-- Length in bytes of each register copy: key 32 x slot + register. -/
  lens : Table Nat := []
  tiles : List Tile := []
  /-- The CR's swatches and the bytes of those that are READY. -/
  swatches : List (Swatch × List Byte) := []
  /-- In a checkpoint image: the Sorus commands that fill or drain them, by the CR's own number of the swatch (14 R273). -/
  sorus : List (Nat × Sorus) := []
  /-- It must get the same grant again (R252). -/
  sameGrant : Bool := false
  /-- vtype and vl of each hart whose VLMAX must reach its saved vl (R253). -/
  needs : List (BitVec 9 × Nat) := []
  /-- PREEMPT (0x1C) after an abort pre-emption (R253). -/
  cause : Nat := 0
  front : Nat := 0
  deriving DecidableEq, Repr, Inhabited

/-- The latest write of a byte by an agent at a size in a context, and when (08 R152-R154). -/
structure Mark where
  agent : Nat := 0
  size : Nat := 0
  ctx : Nat := 0
  time : Nat := 0
  /-- Synchronising operations of the context before it. -/
  syncs : Nat := 0
  deriving DecidableEq, Repr, Inhabited

/-- The model's own (08 R153): a write that is still to come and races with what a turn reads: who reads, who will write, the size of
its accesses, and the bytes by memory key; once the turn has begun, the reader's time then. -/
structure Coming where
  reader : Nat := 0
  writer : Nat := 0
  size : Nat := 0
  key : Nat := 0
  len : Nat := 0
  since : Nat := 0
  deriving DecidableEq, Repr, Inhabited

/-- What the model records to tell which accesses race (08 R152-R154). -/
structure Order where
  /-- The writes of each byte, by memory key. -/
  marks : Table (List Mark) := []
  /-- The cycle of the last write of each byte (18 R356). -/
  cycles : Table Nat := []
  /-- What each agent has observed: for each agent, the time of its latest access known. Agents are numbered in
  `Machine/Mem.lean`; synchronisation words, sequence numbers and tickets stand among them under keys of their own. -/
  seen : Table (Table Nat) := []
  /-- Times of the agents. -/
  time : Table Nat := []
  /-- Synchronising operations of each context. -/
  syncs : Table Nat := []
  /-- The model's own: the later writes that what this turn reads races with, and those of earlier turns that have not come yet
  (08 R153). -/
  ahead : List Coming := []
  owed : List Coming := []
  deriving DecidableEq, Repr, Inhabited

/-- The commands of a job on one front (14 R272): its sequence numbers, chains and shadows. -/
structure Chains where
  seq : Table Word := []
  chain : Table (List Cmd) := []
  shadows : Table (List Cmd) := []
  /-- The core's tiles and descriptors, which commands whose CR has ended still hold. -/
  tiles : Table Tile := []
  swatches : Table Swatch := []
  deriving DecidableEq, Repr, Inhabited

/-- A granule record of a checkpoint image (14 R272): entry number, entry, data by offset, and for a covered granule its
allocated patches. -/
structure Granule where
  index : Nat := 0
  entry : Word := 0
  data : Memory := []
  patches : List Nat := []
  deriving DecidableEq, Repr, Inhabited

/-- A checkpoint image (14 R272): what the header says, the front and save-area records, the parts of the device-state
record, the granule records. -/
structure Image where
  ctx : Nat := 0
  region : Nat := 0
  /-- By front, and by save area. -/
  fronts : List (Nat × Save) := []
  saves : List (Nat × Save) := []
  /-- By 65,536 x context + id; the deficits of each die by the same. -/
  regions : List (Nat × Region) := []
  deficits : Table (Table Nat) := []
  chains : List (Nat × Chains) := []
  tickets : List (Nat × Ticket) := []
  views : List (Nat × View) := []
  patches : Table Nat := []
  regs : Ctx := {}
  granules : List Granule := []
  deriving DecidableEq, Repr, Inhabited

/-- A checkpoint stream under way (14 R271): its mailbox slot, safe-tier base and image, and when it began. -/
structure Stream where
  slot : Nat := 0
  base : Nat := 0
  image : Image := {}
  since : Nat := 0
  deriving DecidableEq, Repr, Inhabited

/-- A record sent over a Rhovan port (14 R270). -/
structure Sent where
  port : Nat := 0
  front : Nat := 0
  ctx : Nat := 0
  record : BitVec 512 := 0
  bytes : List Byte := []
  deriving DecidableEq, Repr, Inhabited

/-- The speculative, host and module side of the device. -/
structure Dev where
  /-- Vector Page Map (07 R125): one map for both dies (02 R16). -/
  vpm : Table Word := []
  /-- 07 R126. -/
  pool : Nat := 0
  savePool : Nat := 0
  /-- Allocated patches by window address ÷ 65,536, with coverage counts (07 R142). -/
  patches : Table Nat := []
  views : Table View := []
  /-- Generation of each save area and the areas themselves. -/
  saves : Table Save := []
  tickets : Table Ticket := []
  /-- Mailbox slots (14 R266) and the slots rung and not yet performed, oldest first. -/
  mailbox : Table (BitVec 512) := []
  doorbells : List Nat := []
  /-- Events that wait for a slot (14 R269): OP, CTX, REGION, A0, A1. -/
  events : List (Nat × Nat × Nat × Word × Word) := []
  /-- 14 R267. -/
  hctx : BitVec 4 := 0
  hwbase : Table Word := []
  hwlim : Table Word := []
  /-- The checkpoint stream under way, and the images held by the safe tier, by base address (14 R271). -/
  streaming : Option Stream := none
  images : List (Nat × Image) := []
  /-- How often MSI-X vector 0 has been raised (14 R269). -/
  msix : Nat := 0
  /-- What the host's last read of the HDM range returned, none for CXL poison (14 R263). -/
  answer : Option (List Byte) := none
  /-- Firmware image in flash, and whether the boot ROM is in recovery (14 R274, R275). -/
  flash : List Byte := []
  measurement : BitVec 256 := 0
  secVersion : BitVec 32 := 0
  recovery : Bool := false
  /-- 14 R277. -/
  clockStopped : Bool := false
  clockLowered : Bool := false
  /-- Physical addresses of HBM bytes whose reads are uncorrectable (14 R278). -/
  poison : List Nat := []
  /-- HBM errors corrected, by row (14 R278). -/
  corrected : Table Nat := []
  /-- Records sent over Rhovan, oldest first (14 R270). -/
  sent : List Sent := []
  /-- Dispatcher: deficits by 65,536 x context + region, and the cursor, of each die (03 R42): one more than the launch
  order of the region whose turn goes on, 0 none. -/
  deficits : Table (Table Nat) := []
  cursor : Table Nat := []
  /-- Launches so far. -/
  launches : Nat := 0
  retentions : Nat := 0
  serials : Nat := 0
  /-- The model's own: JOINs so far that woke a CR, and events so far that published a version to a Gauge. -/
  wakes : Nat := 0
  gauges : Nat := 0
  deriving DecidableEq, Repr, Inhabited

/-- Which SRAM word or HBM byte an error names (14 R278). `core` is 64 x die + core. -/
inductive ErrUnit where
  | lane (core lane word : Nat)
  | tile (core tile word : Nat)
  /-- A byte of an HBM4E stack, by physical address. -/
  | hbm (addr : Nat)
  deriving DecidableEq, Repr, Inhabited

/-- What a step of the device is about (the model's own: the operands of the steps that have no encoding). -/
structure Arg where
  front : Nat := 0
  slot : Slot := .e
  /-- Queue, engine selector, state register, or context. -/
  sel : Nat := 0
  /-- Entry of a chain, and units of work to perform. -/
  k : Nat := 0
  n : Nat := 1
  core : Nat := 0
  ticket : Nat := 0
  /-- Mailbox slot. -/
  mslot : Nat := 0
  /-- Address, HDM or BAR0 offset, and size. -/
  off : Nat := 0
  size : Nat := 0
  data : List Byte := []
  /-- A value written, or the bits of what is not an instruction. -/
  val : Word := 0
  record : BitVec 512 := 0
  unit : ErrUnit := .hbm 0
  flag : Bool := false
  /-- The later writes that what the step reads races with (08 R153). -/
  ahead : List Coming := []
  deriving DecidableEq, Repr, Inhabited

/-- A turn of an agent (the model's own). -/
inductive Turn where
  /-- A hart performs its next instruction, or goes on waiting. `late`: what the instruction loads fills its register
  later (04 R68), and the queue of a CR that exits drains later (R80). `ahead`: the later writes that what it reads races with
  (08 R153). -/
  | hart (front : Nat) (slot : Slot) (late : Bool) (ahead : List Coming)
  /-- The oldest pending fill of a hart lands. -/
  | fill (front : Nat) (slot : Slot)
  /-- The queue of the CR that exited from a front has drained (03 R37, 04 R80). -/
  | drain (front : Nat)
  /-- A step of the device. -/
  | event (i : Instr) (arg : Arg)
  deriving DecidableEq, Repr

/-- The machine. -/
structure State where
  /-- Global memory (07 R125): by physical address, and covered storage (R142) at 2^40 + window address. -/
  mem : Memory
  fronts : Table Front
  cores : Table Core
  ctxs : Table Ctx
  /-- Regions by 65,536 x context + id. -/
  regions : Table Region
  dev : Dev
  order : Order
  /-- Cycles since `State.reset`; one for each step of the model. -/
  cycle : Nat
  /-- The model's own: the front and slot whose instruction or step is being performed. -/
  fid : Nat
  slot : Slot
  /-- The model's own: whether what the instruction brings about comes later (04 R68, R80). -/
  late : Bool
  /-- The model's own: operands of the device's steps. -/
  arg : Arg
  /-- The model's own: turns not yet taken, next first. -/
  agenda : List Turn
  deriving DecidableEq, Repr

/-- Reasons the machine stops with a fault. There is none: the spec turns every failure of an access into a trap, which
is a next state. -/
inductive Fault where
  deriving DecidableEq, Repr

/-- Reasons a step is refused. -/
inductive Refusal where
  /-- An instruction that has no meaning yet. Raised by `exec`'s arms alone. Safe. -/
  | notModelled (mnemonic : String)
  deriving DecidableEq, Repr

/-- The machine right after module reset (14 R274): no CR runs, every context's registers and budgets are 0, the Vector
Page Map is 0, memory lists nothing; registers that the spec gives no reset value hold 0 (log entry 1), and the flash
holds the empty image, in which the boot ROM has found nothing wrong and whose SHA-256 it has recorded (log entry 1). -/
def State.reset : State where
  mem := []
  fronts := []
  cores := []
  ctxs := []
  regions := []
  dev := { measurement := 0xe3b0c44298fc1c149afbf4c8996fb92427ae41e4649b934ca495991b7852b855#256 }
  order := {}
  cycle := 0
  fid := 0
  slot := .e
  late := false
  arg := {}
  agenda := []

end Sys2Proof.Machine
end

