-- ==== Sys2Proof/Machine/Fields.lean ====
section
/-! DEFINITION. The fields of engine records (09 R175-R177, R181, R187; 10 R213) and the writes that a command is still to make. -/

namespace Sys2Proof.Machine

/-- Dword `j` of a record. -/
def dword (r : BitVec 512) (j : Nat) : Nat := (r.extractLsb' (64 * j) 64).toNat

/-- `n` bits of a number from bit `k` up. -/
def bitsOf (v k n : Nat) : Nat := v / 2 ^ k % 2 ^ n

/-! Copy records (R175-R177) -/

def copyOp (r : BitVec 512) : Nat := bitsOf (dword r 0) 0 8
def copyFF (r : BitVec 512) : Bool := (dword r 0).testBit 8
def copySkip (r : BitVec 512) : Bool := (dword r 0).testBit 9
def copyShd (r : BitVec 512) : Bool := (dword r 0).testBit 10
def copyFol (r : BitVec 512) : Bool := (dword r 0).testBit 12
def copySegl (r : BitVec 512) : Nat := bitsOf (dword r 0) 16 6
def copySfmt (r : BitVec 512) : Nat := bitsOf (dword r 0) 22 4
def copyDfmt (r : BitVec 512) : Nat := bitsOf (dword r 0) 26 4
def copyRm (r : BitVec 512) : Nat := bitsOf (dword r 0) 32 3
def copyLen (r : BitVec 512) : Nat := dword r 1
def copySrc (r : BitVec 512) : Nat := dword r 2
def copyDst (r : BitVec 512) : Nat := dword r 3
def copyComp (r : BitVec 512) : Nat := dword r 4
def copyParam (r : BitVec 512) : Nat := dword r 5
/-- A listed COPY. -/
def copyListed (r : BitVec 512) : Bool := copyOp r == 0 && copyParam r != 0
/-- Table address and PERIOD of a ROT. -/
def rotTable (r : BitVec 512) : Nat := bitsOf (copyParam r) 0 42
def rotPeriod (r : BitVec 512) : Nat := bitsOf (copyParam r) 48 16

/-- Width in bits of a format code. -/
def codeWidth : Nat → Nat
  | 0 | 5 | 6 => 32
  | 1 | 2 | 7 | 8 => 16
  | 4 => 6
  | 11 | 12 | 13 => 64
  | _ => 8

/-- Bytes of the source and of the destination of one unit (R177): a byte, an element, a pair, or four T6 elements. -/
def unitElems (r : BitVec 512) : Nat :=
  if copyOp r = 3 then 2
  else if copyOp r = 2 ∧ (codeWidth (copySfmt r) = 6 ∨ codeWidth (copyDfmt r) = 6) then 4 else 1
def srcUnit (r : BitVec 512) : Nat := if copyOp r ≤ 1 then 1 else unitElems r * codeWidth (copySfmt r) / 8
def dstUnit (r : BitVec 512) : Nat := if copyOp r ≤ 1 then 1 else unitElems r * codeWidth (copyDfmt r) / 8

/-- Source and destination bytes of a transfer. -/
def copyDstBytes (r : BitVec 512) : Nat := copyLen r / unitElems r * dstUnit r
def copySrcBytes (r : BitVec 512) : Nat := if copyOp r = 1 then 0 else copyLen r / unitElems r * srcUnit r

/-- Segments (R177). -/
def segBytes (r : BitVec 512) : Nat := 2 ^ (if copySegl r = 0 then 26 else copySegl r)
def segCount (r : BitVec 512) : Nat := (copyDstBytes r + segBytes r - 1) / segBytes r

/-- A local operand (R176). -/
def isLocal (a : Nat) : Bool := a.testBit 63
/-- Its local address. -/
def localAddr (a : Nat) : Nat := a % 2 ^ 21

/-- Bytes of a completion record (R181). -/
def compBytes (r : BitVec 512) : Nat := if copySkip r then 24 + 8 * segCount r else 16

/-- The destination bytes of segment `k`, whole units. -/
def segSpan (r : BitVec 512) (k : Nat) : Nat × Nat :=
  let d0 := k * segBytes r
  let d1 := min ((k + 1) * segBytes r) (copyDstBytes r)
  let g := dstUnit r
  ((d0 + g - 1) / g * g, (d1 + g - 1) / g * g)

/-- Bytes of the accesses of an element. -/
def accessBytes (code : Nat) : Nat := max 1 (codeWidth code / 8)

/-! Rhizoid records (R213), and completion records -/

def rhizFmt (r : BitVec 512) : Nat := bitsOf (dword r 0) 13 3
def rhizStack (r : BitVec 512) : Nat := bitsOf (dword r 0) 8 3
def rhizM (r : BitVec 512) : Nat := bitsOf (dword r 1) 0 32
def rhizK (r : BitVec 512) : Nat := bitsOf (dword r 1) 32 32
def rhizW (r : BitVec 512) : Nat := dword r 2
def rhizX (r : BitVec 512) : Nat := dword r 3
def rhizY (r : BitVec 512) : Nat := dword r 4
def rhizComp (r : BitVec 512) : Nat := dword r 5
/-- Bytes of an element, blocks of a row. -/
def rhizSize (r : BitVec 512) : Nat := if rhizFmt r = 0 then 2 else 1
def rhizBlocks (r : BitVec 512) : Nat := rhizK r / 32

def matComp (r : BitVec 512) : Nat := dword r 2

/-- The completion record's address: 0 for none. -/
def compAddr (sel : Nat) (r : BitVec 512) : Nat := if sel = 0 then copyComp r else if sel = 1 then matComp r else rhizComp r

/-- The address of a command's completion record. -/
def Cmd.compAt (c : Cmd) (sel : Nat) : Nat := if c.follow then 0 else compAddr sel c.raw

/-! Direct writes to come (R178, R181, R186; 10 R215) -/

/-- Bytes that a command is still to write: their first address, their number, and the size of the access that writes each. -/
structure Due where
  va : Nat
  len : Nat
  size : Nat → Nat

/-- Destination bytes [lo, hi) of a copy, by the accesses of its operation. -/
def Cmd.dueSpan (c : Cmd) (x : Nat × Nat) : Due :=
  let lo := copyDst c.raw + x.1
  let hi := copyDst c.raw + x.2
  ⟨lo, x.2 - x.1, fun a =>
    if 2 ≤ copyOp c.raw then accessBytes (copyDfmt c.raw) else if lo ≤ a / 8 * 8 ∧ a / 8 * 8 + 8 ≤ hi then 8 else 1⟩

/-- The destination bytes of a command of engine `sel` that are still to be written, where they are direct writes. -/
def Cmd.dueBytes (c : Cmd) (sel : Nat) : List Due :=
  let r := c.raw
  if c.phase = .finished then []
  else if sel = 0 then
    if copyShd r || isLocal (copyDst r) then []
    else if copySkip r then (c.skipped ++ (List.range (segCount r)).drop c.pos).map (fun k => c.dueSpan (segSpan r k))
    else [c.dueSpan (c.pos, copyDstBytes r)]
  else if sel = 2 then [⟨rhizY r + 4 * c.pos, 4 * (rhizM r * rhizBlocks r - c.pos), fun _ => 4⟩]
  else []

/-- Its completion record, but under a ticket (12 R234). -/
def Cmd.dueRecord (c : Cmd) (sel : Nat) : List Due :=
  if c.compAt sel = 0 ∨ c.ticket ≠ 0 then [] else [⟨c.compAt sel, if sel = 0 then compBytes c.raw else 16, fun _ => 8⟩]

/-- All that a command is still to write. -/
def Cmd.due (c : Cmd) (sel : Nat) : List Due := if c.complete || c.dropped then [] else c.dueBytes sel ++ c.dueRecord sel

/-- The address of the element of index `x` of a Sorus command (R190). -/
def Sorus.addr (c : Sorus) (x : Nat) : Nat :=
  let e := if c.signed then (BitVec.ofNat 32 x).signExtend 64 else (BitVec.ofNat 32 x).setWidth 64
  (c.base + e * BitVec.ofNat 64 c.size).toNat

/-- The elements that a scatter is still to write (R190, R192). -/
def Sorus.due (c : Sorus) : List Due :=
  if c.scatter then
    ((c.act.zip c.idx).filter (fun x => x.1 && c.addr x.2 % min c.size 8 == 0)).map (fun x => ⟨c.addr x.2, c.size, fun _ => c.size⟩)
  else []

end Sys2Proof.Machine
end

