-- ==== Sys2Proof/Machine/Mem.lean ====
section
/-! DEFINITION. Places in the state, translation (07 R123-R131), and the accesses to global memory: what every hart,
engine and host access goes through, with the errors and races of 08 R152-R154 and 14 R278. -/

namespace Sys2Proof.Machine

/-! Places -/

/-- The front of a number. -/
def State.frontAt (s : State) (f : Nat) : Front := s.fronts.get {} f

def State.setFrontAt (s : State) (f : Nat) (F : Front) : State := { s with fronts := s.fronts.set {} f F }

/-- The current front. -/
def State.front (s : State) : Front := s.frontAt s.fid

def State.setFront (s : State) (F : Front) : State := s.setFrontAt s.fid F

def Front.hart (F : Front) : Slot → Hart
  | .a => F.a
  | .e => F.e

def Front.setHart (F : Front) (sl : Slot) (h : Hart) : Front :=
  match sl with
  | .a => { F with a := h }
  | .e => { F with e := h }

/-- The current hart. -/
def State.hart (s : State) : Hart := s.front.hart s.slot

def State.setHart (s : State) (h : Hart) : State := s.setFront (s.front.setHart s.slot h)

/-- The current hart's checkpointed registers. -/
def State.regs (s : State) : Regs := s.hart.regs

def State.setRegs (s : State) (r : Regs) : State := s.setHart { s.hart with regs := r }

/-- The core of the current front: 64 x die + core (13 R249). -/
def State.coreNo (s : State) : Nat := s.fid / 2

def State.coreAt (s : State) (c : Nat) : Core := s.cores.get {} c

def State.setCoreAt (s : State) (c : Nat) (C : Core) : State := { s with cores := s.cores.set {} c C }

def State.core (s : State) : Core := s.coreAt s.coreNo

def State.setCore (s : State) (C : Core) : State := s.setCoreAt s.coreNo C

/-- What the front holds of its CR; a front with none reads as the empty record. -/
def Front.theRun (F : Front) : Run := F.run.getD {}

def State.run (s : State) : Run := s.front.theRun

def State.setRun (s : State) (r : Run) : State := s.setFront { s.front with run := some r }

/-- The running context (07 R129). -/
def State.ctx (s : State) : Nat := s.run.ctx

def State.ctxAt (s : State) (c : Nat) : Ctx := s.ctxs.get {} c

def State.setCtxAt (s : State) (c : Nat) (C : Ctx) : State := { s with ctxs := s.ctxs.set {} c C }

def State.ticketAt (s : State) (t : Nat) : Ticket := s.dev.tickets.get {} t

def State.setTicketAt (s : State) (t : Nat) (T : Ticket) : State :=
  { s with dev := { s.dev with tickets := s.dev.tickets.set {} t T } }

/-- Regions stand at 65,536 x context + id. -/
def regionKey (ctx id : Nat) : Nat := 65536 * ctx + id

def State.regionAt (s : State) (k : Nat) : Region := s.regions.get {} k

def State.setRegionAt (s : State) (k : Nat) (R : Region) : State := { s with regions := s.regions.set {} k R }

/-- The number of a slot (13 R249). -/
def slotNum : Slot → Nat
  | .a => 0
  | .e => 1

/-- The agent number of a hart slot (13 R249, 08 R148). -/
def hartAgent (f : Nat) (sl : Slot) : Nat := 2 * f + slotNum sl

def State.agent (s : State) : Nat := hartAgent s.fid s.slot

/-- The key under which the sequence number of a front on an engine stands among the agents. -/
def seqKey (f sel : Nat) : Nat := 2 ^ 50 + 3 * f + sel

/-- The agent number of a command: that of the front's engine and the sequence number that its completion makes the front's
number (08 R158: the writes of commands not yet counted have no order). -/
def engineAgent (f sel seq : Nat) : Nat := 2 ^ 64 * (1 + 3 * f + sel) + seq

/-- The host's agent number. -/
def hostAgent : Nat := 1500

/-- The agent number of the Sorus command that takes descriptor `k` of a core at a cycle. -/
def sorusAgent (core k cycle : Nat) : Nat := 2 ^ 51 + 64 * core + k + 2 ^ 70 * cycle

/-! Causes (13 R243) -/

namespace Cause
def illegal : Nat := 0x01
def priv : Nat := 0x02
def misalign : Nat := 0x03
def pageabs : Nat := 0x04
def pageperm : Nat := 0x05
def outwin : Nat := 0x06
def uncovered : Nat := 0x07
def widen : Nat := 0x08
def emptysrc : Nat := 0x09
def runreq : Nat := 0x0A
def runmis : Nat := 0x0B
def runcap : Nat := 0x0C
def groupovl : Nat := 0x0D
def tileoff : Nat := 0x0E
def tileret : Nat := 0x0F
def swatch : Nat := 0x10
def deadlock : Nat := 0x11
def wmstall : Nat := 0x12
def specst : Nat := 0x13
def weight : Nat := 0x14
def queue : Nat := 0x15
def mixsize : Nat := 0x16
def breakpt : Nat := 0x17
def trapcall : Nat := 0x18
def ecc : Nat := 0x19
def nolast : Nat := 0x1A
def engine : Nat := 0x1B
def preempt : Nat := 0x1C
def stripcap : Nat := 0x1D
end Cause

/-! Order and races (08 R152-R154) -/

/-- The key under which what an EPUB publishes stands among the agents. -/
def epubKey : Nat := 2047

/-- What agent `g` knows of agent `h`: what it has observed, and what every access placed after an EPUB observes (R152, third
case). -/
def Order.knows (o : Order) (g h : Nat) : Nat :=
  max (Table.get 0 (o.seen.get [] g) h) (Table.get 0 (o.seen.get [] epubKey) h)

/-- Every write of a byte so far is ordered before a coming access of agent `g`, or cannot race with it. -/
def Order.ordered (o : Order) (g size key : Nat) : Bool :=
  (o.marks.get [] key).all (fun w => w.agent == g || w.size == size || w.time ≤ o.knows g w.agent)

/-- A write still to come overlaps a byte and races with a read of agent `g` at an access of `size` bytes (08 R153: equal sizes never
race). -/
def Coming.frees (w : Coming) (g size key : Nat) : Bool :=
  w.reader == g && w.writer != g && w.size != size && w.key ≤ key && key < w.key + w.len

/-- A coming read of a byte by agent `g` races with no earlier write, and with none of those that the turn names. -/
def Order.settled (o : Order) (g size key : Nat) : Bool := o.ordered g size key && !o.ahead.any (fun w => w.frees g size key)

/-- Without one of its bytes. -/
def Coming.without (w : Coming) (key : Nat) : List Coming :=
  [{ w with len := key - w.key }, { w with key := key + 1, len := w.key + w.len - (key + 1) }].filter (fun v => v.len != 0)

/-- A write of a byte by the agent of mark `m` is one that was to come: of its agent and size, and not ordered after the read. -/
def Order.keeps (o : Order) (m : Mark) (key : Nat) (w : Coming) : Bool :=
  w.writer == m.agent && w.size == m.size && w.key ≤ key && key < w.key + w.len && decide (o.knows m.agent w.reader < w.since)

/-- A detected mixed-size race (08 R154): the byte was written at another size by another agent of the context, and the
context has had no synchronising operation since. -/
def Order.detected (o : Order) (ctx g size key : Nat) : Bool :=
  (o.marks.get [] key).any (fun w => w.agent != g && w.size != size && w.ctx == ctx && w.syncs == o.syncs.get 0 ctx)

/-- Two marks are of the same agent, size and context: the later one stands for both. -/
def Mark.alike (a b : Mark) : Bool := a.agent == b.agent && a.size == b.size && a.ctx == b.ctx

/-- Record a write of one byte at a cycle. -/
def Order.mark (o : Order) (now : Nat) (m : Mark) (key : Nat) : Order :=
  { o with
    owed := o.owed.flatMap (fun w => if o.keeps m key w then w.without key else [w])
    marks := o.marks.set [] key (m :: (o.marks.get [] key).filter (fun w => !m.alike w))
    cycles := o.cycles.set 0 key now }

/-- What a write by agent `g` at this time leaves as its mark. -/
def Order.stamp (o : Order) (ctx g size : Nat) : Mark := ⟨g, size, ctx, o.time.get 0 g, o.syncs.get 0 ctx⟩

/-- Record a write of `n` bytes from `key`. -/
def Order.wrote (o : Order) (now ctx g size key : Nat) : Nat → Order
  | 0 => o
  | n + 1 => Order.wrote (o.mark now (o.stamp ctx g size) key) now ctx g size (key + 1) n

/-- Record a write of `n` bytes from `key` that no earlier write races with: a publication (R160), or a write of the device's
own that no size is stated of (size 0). -/
def Order.rewrote (o : Order) (now ctx g size key : Nat) : Nat → Order
  | 0 => o
  | n + 1 =>
    Order.rewrote
      { o with
        marks := o.marks.set [] key (if size = 0 then [] else [o.stamp ctx g size]), cycles := o.cycles.set 0 key now }
      now ctx g size (key + 1) n

/-- Agent `g` passes to a new time of its own. -/
def Order.tick (o : Order) (g : Nat) : Order :=
  let t := o.time.get 0 g + 1
  { o with time := o.time.set 0 g t, seen := o.seen.set [] g (Table.set 0 (o.seen.get [] g) g t) }

/-- The later of two observations, agent by agent. -/
def joinSeen : Table Nat → Table Nat → Table Nat
  | [], b => b
  | (k, v) :: a, b => joinSeen a (if b.get 0 k < v then b.set 0 k v else b)

/-- The key under which a synchronisation word stands among the agents. -/
def syncKey (key : Nat) : Nat := 2048 + key

/-- Agent `g` observes what stands at key `k`. -/
def Order.observe (o : Order) (g k : Nat) : Order :=
  { o with seen := o.seen.set [] g (joinSeen (o.seen.get [] k) (o.seen.get [] g)) }

/-- What agent `g` has observed is there to be observed at key `k`. -/
def Order.offer (o : Order) (g k : Nat) : Order :=
  { o with seen := o.seen.set [] k (joinSeen (o.seen.get [] g) (o.seen.get [] k)) }

/-- What a synchronising operation of agent `g` on the word at `key` observes (08 R152): the EPUBs before it, and the operations
on the word. -/
def Order.acquire (o : Order) (g key : Nat) : Order := (o.observe g (syncKey key)).observe g epubKey

/-- The context has had one more synchronising operation. -/
def Order.synced (o : Order) (ctx : Nat) : Order := { o with syncs := o.syncs.set 0 ctx (o.syncs.get 0 ctx + 1) }

/-- A synchronising operation of agent `g` on the word at `key` has entered the order; one that `writes` the word is
there to be observed. -/
def Order.release (o : Order) (ctx g key : Nat) (writes : Bool) : Order :=
  ((if writes then o.offer g (syncKey key) else o).synced ctx).tick g

/-- A publication of agent `g` (R160): it follows the publications before it, and later accesses follow it. -/
def Order.publish (o : Order) (ctx g : Nat) : Order := (((o.observe g epubKey).offer g epubKey).synced ctx).tick g

/-- A turn begins that reads what later writes race with: they are still to come (08 R153; log entry 73). -/
def Order.expecting (o : Order) (ws : List Coming) : Order :=
  let o := ws.foldl (fun o w => o.tick w.reader) o
  { o with ahead := ws, owed := o.owed ++ ws.map (fun w => { w with since := o.time.get 0 w.reader }) }

/-- The key under which what wake `n` of the device has observed stands among the agents (03 R35; 11 R222). -/
def wakeKey (n : Nat) : Nat := 2 ^ 53 + n

/-- The key under which what the hart of a slot of a CR has observed stands while the CR is in a save area. -/
def crKey (serial slot : Nat) : Nat := 2 ^ 54 + 2 * serial + slot

/-- Agent `h` starts work that follows every earlier access of agent `g` (R157, 09 R193). -/
def Order.handOver (o : Order) (g h : Nat) : Order := (((o.observe g epubKey).offer g h)).tick g

/-- The sequence number of a front on an engine rises to `seq` (R158): the writes of the command counted are there to be
observed. -/
def Order.rise (o : Order) (f sel seq : Nat) : Order :=
  let h := engineAgent f sel seq
  ((o.observe h epubKey).offer h (seqKey f sel)).tick h

/-- Agent `g` of a context observes what stands at a key other than a word's: a sequence number, a ticket (R152, 12 R239). -/
def Order.observeAt (o : Order) (ctx g key : Nat) : Order := (((o.observe g key).observe g epubKey).synced ctx).tick g

/-- The agent number of a ticket's Gauge, its commit and its end, under which what they have observed stands (12 R235-R239). -/
def ticketKey (n : Nat) : Nat := 1700 + n % 256

/-! The vector window (07 R123, R125, R142) -/

/-- What an access does (07 R125, R130). -/
inductive Acc where
  | read | write | both | fetch
  deriving DecidableEq, Repr

/-- Whether permissions suffice. -/
def Acc.allowed (a : Acc) (r w x : Bool) : Bool :=
  match a with
  | .read => r
  | .write => w
  | .both => r && w
  | .fetch => x

/-- The memory key of byte `va` of covered storage. -/
def coveredKey (va : Nat) : Nat := 2 ^ 40 + va

/-- A window byte of a context: its memory key, or the cause it traps with (07 R125, R142). -/
def window (s : State) (ctx : Nat) (acc : Acc) (va : Nat) : Except Nat Nat :=
  let e := s.dev.vpm.get 0 (va / 2 ^ 26)
  if e.getLsbD 23 = false ∨ e.getLsbD (48 + ctx) = false then .error Cause.pageabs
  else if acc.allowed (e.getLsbD 21) (e.getLsbD 20) (e.getLsbD 19) = false then .error Cause.pageperm
  else if e.getLsbD 22 = false then
    .ok ((e.extractLsb' 14 3).toNat * 2 ^ 37 + (e.extractLsb' 0 11).toNat * 2 ^ 26 + va % 2 ^ 26)
  else if s.dev.patches.get 0 (va / 65536) = 0 then .error Cause.uncovered
  else .ok (coveredKey va)

/-- A byte of a vector, engine or host access (07 R123). -/
def vectorByte (s : State) (ctx : Nat) (acc : Acc) (va : Nat) : Except Nat Nat :=
  if 2 ^ 42 ≤ va then .error Cause.outwin else window s ctx acc va

/-- A run of bytes that translate together: address, memory key, length. -/
structure Piece where
  va : Nat
  key : Nat
  len : Nat
  deriving DecidableEq, Repr

/-- The pieces of [va, va + n), cut where units of `unit` bytes end; `fuel` pieces at most. The lowest failing byte's cause
and address otherwise. -/
def pieces (unit : Nat) (byte : Nat → Except Nat Nat) : Nat → Nat → Nat → Except (Nat × Nat) (List Piece)
  | 0, _, _ => .ok []
  | fuel + 1, va, n =>
    if n = 0 then .ok []
    else
      match byte va with
      | .error c => .error (c, va)
      | .ok k =>
        let m := min n (unit - va % unit)
        match pieces unit byte fuel (va + m) (n - m) with
        | .error e => .error e
        | .ok ps => .ok (⟨va, k, m⟩ :: ps)

/-- The pieces of a window range: patches are of 64 KiB (07 R142). -/
def windowPieces (s : State) (ctx : Nat) (acc : Acc) (va n : Nat) : Except (Nat × Nat) (List Piece) :=
  pieces 65536 (vectorByte s ctx acc) (n / 65536 + 2) va n

/-! Reading memory -/

/-- A byte at a memory key is among those of a write still to come, at another size. -/
def State.dueAt (s : State) (ctx size key : Nat) (d : Due) : Bool :=
  match windowPieces s ctx .write d.va d.len with
  | .ok ps => ps.any (fun p => p.key ≤ key && key < p.key + p.len && d.size (p.va + (key - p.key)) != size)
  | .error _ => false

/-- A command is still to write the byte directly, and races with a read of agent `g` at an access of `size` bytes: nothing orders a
read before the writes of a command that the front or the Sorus engine has accepted (08 R152, R158; 11 R221; 09 R193). -/
def State.engineDue (s : State) (g size key : Nat) : Bool :=
  s.fronts.any (fun e => [0, 1, 2].any (fun sel => (e.2.chain.get [] sel).any (fun c =>
    engineAgent e.1 sel c.seq != g && (c.due sel).any (s.dueAt c.ctx size key)))) ||
  s.cores.any (fun e => e.2.sorus.any (fun x => x.2.any (fun c => c.agent != g && c.due.any (s.dueAt c.ctx size key))))

/-- What a coming read of a byte by agent `g` at an access of `size` bytes returns stands in memory: no write races with it, earlier
or later (08 R153). -/
def State.stands (s : State) (g size key : Nat) : Bool := s.order.settled g size key && !s.engineDue g size key

/-- Whether a byte's read is uncorrectable (14 R278). -/
def State.poisoned (s : State) (key n : Nat) : Bool := s.dev.poison.any (fun p => key ≤ p && p < key + n)

/-- A detected race in [key, key + n), with `mixtrap` on in the context (08 R154). -/
def State.mixed (s : State) (ctx g size key n : Nat) : Bool :=
  (s.ctxAt ctx).mixtrap && (List.range n).any (fun i => s.order.detected ctx g size (key + i))

/-- One byte as agent `g` reads it at an access of `size` bytes: undefined when the read races (08 R153). -/
def State.readByte (s : State) (g size key : Nat) : Byte :=
  if s.stands g size key then s.mem.get 0 key else Config.freeByte s.cycle key

/-- The bytes of [key, key + n) at an access of `size` bytes, or MIXSIZE or ECC. -/
def State.readMem (s : State) (ctx g size key n : Nat) : Except Nat (List Byte) :=
  if s.mixed ctx g size key n then .error Cause.mixsize
  else if s.poisoned key n then .error Cause.ecc
  else .ok ((List.range n).map (fun i => s.readByte g size (key + i)))

/-! Translation -/

/-- An 8-byte word of physical memory as it stands. -/
def physWord (s : State) (pa : Nat) : Word := BitVec.ofNat 64 (ofBytes (s.mem.bytes pa 8))

/-- A page-table entry as the walker of agent `g` reads it: an ordinary 8-byte load (07 R130), of memory without what the hart's strip
has buffered (DESIGN CHOICE: R130 does not say; log entry 83). -/
def tableEntry (s : State) (ctx g pa : Nat) : Except Nat Word :=
  match s.readMem ctx g 8 pa 8 with
  | .ok bs => .ok (BitVec.ofNat 64 (ofBytes bs))
  | .error c => .error c

/-- The reserved bits of a page-table entry (07 R130). -/
def pteReserved (e : Word) : Bool := e.extractLsb' 40 24 != 0 || e.extractLsb' 8 4 != 0 || e.getLsbD 5

/-- The leaf that an entry is, of a page of `size` bytes at `va`'s. -/
def leafOf (ctx va size : Nat) (e : Word) : TlbEntry :=
  { ctx := ctx, base := va / size * size, size := size, pa := (e.extractLsb' 12 28).toNat * 4096 / size * size,
    x := e.getLsbD 4, w := e.getLsbD 3, r := e.getLsbD 2, u := e.getLsbD 1 }

/-- The addresses of the level-1 entries of `va`'s 64 KiB page, in a table at `table`. -/
def s64Group (table va : Nat) : List Nat := (List.range 16).map (fun j => table + 8 * (va / 65536 % 32 * 16 + j))

/-- The level-1 entry that an access uses: the indexed one, or, where one of the 16 of its 64 KiB is a member of a 64 KiB page
and they are not all the same, a free one of them (07 R130). -/
def entryAt1 (s : State) (table va : Nat) : Nat :=
  let own := table + 8 * (va / 4096 % 512)
  let g := s64Group table va
  let member := fun a => (physWord s a).getLsbD 0 && (physWord s a).getLsbD 6 && (physWord s a).getLsbD 7
  if g.any member && g.any (fun a => physWord s a != physWord s own) then g.getD (Config.s64Pick s.cycle va % 16) own else own

/-- The walk from a level's table downwards (07 R130): `n` levels remain. -/
def walkFrom (s : State) (ctx g va : Nat) : Nat → Nat → Except Nat TlbEntry
  | 0, _ => .error Cause.pageabs
  | n + 1, table =>
    match tableEntry s ctx g (if n = 0 then entryAt1 s table va else table + 8 * (va / 2 ^ (12 + 9 * n) % 512)) with
    | .error c => .error c
    | .ok e =>
      if e.getLsbD 0 = false ∨ pteReserved e = true then .error Cause.pageabs
      else if n = 0 then
        if e.getLsbD 6 = false then .error Cause.pageabs else .ok (leafOf ctx va (if e.getLsbD 7 then 65536 else 4096) e)
      else if e.getLsbD 7 = true then .error Cause.pageabs
      else if e.getLsbD 6 = true then
        if n = 1 ∧ e.extractLsb' 12 9 = 0 then .ok (leafOf ctx va (2 ^ 21) e) else .error Cause.pageabs
      else walkFrom s ctx g va n ((e.extractLsb' 12 28).toNat * 4096)

/-- The four-level walk of a context, for agent `g`. -/
def walk (s : State) (ctx g va : Nat) : Except Nat TlbEntry := walkFrom s ctx g va 4 ((s.ctxAt ctx).root.toNat * 4096)

/-- A leaf permits an access (07 R130). -/
def TlbEntry.permits (e : TlbEntry) (acc : Acc) (priv : Bool) : Bool := acc.allowed e.r e.w e.x && (priv || e.u)

/-- The leaf that a front caches for a page of a context. -/
def Front.cachedLeaf (F : Front) (ctx va : Nat) : Option TlbEntry :=
  F.tlb.find? (fun e => e.ctx == ctx && e.base == va / e.size * e.size)

/-- The leaf that an access of a front uses (07 R131): a cached one that permits it while the front still holds it,
otherwise what the walk finds. Whether a front still holds an entry that memory has changed is a free value. -/
def leafFor (s : State) (f ctx : Nat) (acc : Acc) (priv : Bool) (va : Nat) : Except Nat TlbEntry :=
  let found := walk s ctx (hartAgent f s.slot) va
  match (s.frontAt f).cachedLeaf ctx va with
  | none => found
  | some e =>
    if e.permits acc priv = false then found
    else
      match found with
      | .ok e' => if e' = e then .ok e else if Config.tlbHolds s.cycle va then .ok e else .ok e'
      | .error c => if Config.tlbHolds s.cycle va then .ok e else .error c

/-- Where a leaf takes a byte, or the failure of its permissions (07 R130). -/
def TlbEntry.keyOf (e : TlbEntry) (acc : Acc) (priv : Bool) (va : Nat) : Except Nat Nat :=
  if e.permits acc priv then .ok (e.pa + va % e.size) else .error Cause.pageperm

/-- A byte of the scalar paged space (07 R130, R131). DESIGN CHOICE (log entry 52): a page or table whose physical address lies
in no granule of a stack (02 R14 has 1,430 of them, and the spec says nothing of the device structures' place), or in a pool, is
ordinary memory of its own up to 2^40, which is neither a device structure nor a patch nor a save area. -/
def paged (s : State) (f ctx : Nat) (acc : Acc) (priv : Bool) (va : Nat) : Except Nat Nat :=
  match leafFor s f ctx acc priv va with
  | .error c => .error c
  | .ok e => e.keyOf acc priv va

/-- Remember the leaf of a paged access in the front's translation buffer (07 R131), which holds 2,048 (02 R10); the oldest goes
(DESIGN CHOICE, log entry 53). -/
def cacheLeaf (s : State) (f ctx : Nat) (acc : Acc) (priv : Bool) (va : Nat) : State :=
  if va < 2 ^ 42 then s
  else
    match leafFor s f ctx acc priv va with
    | .error _ => s
    | .ok e =>
      let F := s.frontAt f
      s.setFrontAt f { F with tlb := (e :: F.tlb.filter (fun o => !(o.ctx == e.ctx && o.base == e.base))).take 2048 }

/-- A byte of a scalar access or of instruction fetch, by its 64-bit address (R322, 15 R281). -/
def scalarByte (s : State) (f ctx : Nat) (acc : Acc) (priv : Bool) (va : Nat) : Except Nat Nat :=
  if 2 ^ 48 ≤ va then .error Cause.pageabs
  else if va < 2 ^ 42 then window s ctx acc va
  else paged s f ctx acc priv va

/-- A byte of the scalar space may, as the maps stand, be reached at a memory key: through the Vector Page Map, a leaf that the
front caches, or the tables. -/
def mayReach (s : State) (f ctx : Nat) (acc : Acc) (priv : Bool) (va key : Nat) : Bool :=
  let here := fun (r : Except Nat Nat) => match r with | .ok k => k == key | .error _ => false
  if va < 2 ^ 42 then here (window s ctx acc va)
  else
    (match (s.frontAt f).cachedLeaf ctx va with | some e => here (e.keyOf acc priv va) | none => false) ||
    (match walk s ctx (hartAgent f s.slot) va with | .ok e => here (e.keyOf acc priv va) | .error _ => false)

/-- The pieces of a range of scalar accesses through front `f`'s translations: pages are of 4 KiB and more (07 R130). -/
def scalarRange (s : State) (f ctx : Nat) (acc : Acc) (priv : Bool) (va n : Nat) : Except (Nat × Nat) (List Piece) :=
  pieces 4096 (scalarByte s f ctx acc priv) (n / 4096 + 2) va n

/-! Performing accesses -/

/-- A key lies in one of the pages that hold [base, base + n) of a context, inside that range. -/
def State.rangeHolds (s : State) (ctx base n key : Nat) : Bool :=
  n != 0 && (List.range ((base + n - 1) / 4096 - base / 4096 + 1)).any (fun i =>
    match scalarByte s 256 ctx .read true ((base / 4096 + i) * 4096) with
    | .ok k => k ≤ key && key < k + 4096 && base ≤ (base / 4096 + i) * 4096 + (key - k) && (base / 4096 + i) * 4096 + (key - k) < base + n
    | .error _ => false)

/-- A byte of the RCB or the ring of an ACTIVE region: the hardware's (03 R24). -/
def State.hardwareOwned (s : State) (key : Nat) : Bool :=
  s.regions.any (fun e => e.2.status == 1 &&
    (s.rangeHolds (e.1 / 65536) e.2.rcb 256 key || s.rangeHolds (e.1 / 65536) e.2.ring (64 * e.2.ringlen) key))

/-- A byte that agent `g` writes at an access of `size` bytes lands: no earlier write of it races, and it is not the hardware's.
Otherwise what it holds then is undefined (08 R153; 00 R7, 03 R24: log entry 72). -/
def State.lands (s : State) (g size key : Nat) : Bool := s.order.ordered g size key && !s.hardwareOwned key

/-- Bytes as a write leaves them. -/
def State.landed (s : State) (g size key : Nat) : List Byte → List Byte
  | [] => []
  | b :: bs => (if s.lands g size key then b else Config.freeByte s.cycle key) :: State.landed s g size (key + 1) bs

/-- Write bytes at `key`, or MIXSIZE. A whole write of a poisoned byte makes it readable again. -/
def State.writeMem (s : State) (ctx g size key : Nat) (bs : List Byte) : Except Nat State :=
  if s.mixed ctx g size key bs.length then .error Cause.mixsize
  else
    .ok { s with
      mem := s.mem.setBytes key (s.landed g size key bs)
      order := (s.order.tick g).wrote s.cycle ctx g size key bs.length
      dev := { s.dev with poison := s.dev.poison.filter (fun p => !(key ≤ p && p < key + bs.length)) } }

/-- Write bytes whatever races: the direct writes of the device itself (13 R249, 12 R226). -/
def State.forceMem (s : State) (ctx g size key : Nat) (bs : List Byte) : State :=
  { s with
    mem := s.mem.setBytes key bs
    order := (s.order.tick g).rewrote s.cycle ctx g size key bs.length
    dev := { s.dev with poison := s.dev.poison.filter (fun p => !(key ≤ p && p < key + bs.length)) } }

/-- A byte as a publication (08 R160) or a commit (12 R236) writes it: no write of it races, but what software writes where bytes are
the hardware's is undefined (03 R24; 00 R7: log entry 72). -/
def State.publishedByte (s : State) (key : Nat) (b : Byte) : Byte := if s.hardwareOwned key then Config.freeByte s.cycle key else b

/-- Write single bytes of a context's window, each where it translates, as parts of one write of `size` bytes. -/
def State.publishBytes (s : State) (ctx g size : Nat) : List (Nat × Byte) → State
  | [] => s
  | (va, b) :: l =>
    let s :=
      match vectorByte s ctx .write va with
      | .ok key => s.forceMem ctx g size key [s.publishedByte key b]
      | .error _ => s
    State.publishBytes s ctx g size l

/-- Write the bytes of a window range piece by piece. -/
def State.forcePieces (s : State) (ctx g size : Nat) : List Piece → List Byte → State
  | [], _ => s
  | p :: ps, bs => State.forcePieces (s.forceMem ctx g size p.key (bs.take p.len)) ctx g size ps (bs.drop p.len)

/-- The bytes of a window range as they stand, free of race rules: what the device's own reads return. -/
def State.peekPieces (s : State) : List Piece → List Byte
  | [] => []
  | p :: ps => s.mem.bytes p.key p.len ++ State.peekPieces s ps

/-- One read-modify-write of `n` bytes at a piece (R147): `f` gives the new word, or none where nothing is written. The
event is synchronising when `sync`. -/
def State.modifyWord (s : State) (ctx g n key : Nat) (sync : Bool) (f : Nat → Option Nat) : Except Nat (Nat × State) :=
  let s := if sync then { s with order := s.order.acquire g key } else s
  match s.readMem ctx g n key n with
  | .error c => .error c
  | .ok bs =>
    let old := ofBytes bs
    match f old with
    | none => .ok (old, if sync then { s with order := s.order.release ctx g key false } else s)
    | some v =>
      match s.writeMem ctx g n key (toBytes n v) with
      | .error c => .error c
      | .ok s => .ok (old, if sync then { s with order := s.order.release ctx g key true } else s)

end Sys2Proof.Machine
end

