-- ==== Sys2Proof/Machine/Queues.lean ====
section
/-! DEFINITION. Elements of vector memory accesses (15 R288, 20 R429) and what the store queues of a front hold of stores that
are not performed (04 R63-R67). -/

namespace Sys2Proof.Machine

/-- Element widths by vtype's code (04 R54). -/
def sewBits : Nat → Nat
  | 0 => 6
  | 1 => 8
  | 2 => 16
  | 3 => 32
  | _ => 64

/-- The first `n` elements of `w` bits of a bit string. -/
def elems (w bits : Nat) : Nat → List Nat
  | 0 => []
  | n + 1 => bits % 2 ^ w :: elems w (bits / 2 ^ w) n

/-- Some bits of a byte replaced. -/
def mergeBits (mask val old : Byte) : Byte := (old &&& ~~~mask) ||| (val &&& mask)

/-! Elements (R429) -/

/-- The bytes that hold an element: address, number, and the place of its lowest bit in the first byte. -/
structure Elem where
  va : Nat
  n : Nat
  sh : Nat := 0
  deriving DecidableEq, Repr

/-- Element `i` of an access of `w`-bit elements: at a stride, or at SEW 6 from a bit offset. -/
def elemAt (w base stride bo i : Nat) : Elem :=
  if w = 6 then ⟨(base + (bo + 6 * i) / 8) % 2 ^ 64, if (bo + 6 * i) % 8 ≤ 2 then 1 else 2, (bo + 6 * i) % 8⟩
  else ⟨(base + i * stride) % 2 ^ 64, w / 8, 0⟩

/-- The elements of a unit-stride or strided access, by index. -/
def elemsOf (w base stride bo vl : Nat) : List Elem := (List.range vl).map (elemAt w base stride bo)

/-- The bits that an element of `w` bits writes, byte by byte: address, mask, value. -/
def partsOf (w : Nat) (e : Elem) (v : Nat) : List (Nat × Byte × Byte) :=
  (List.range e.n).map (fun j =>
    ((e.va + j) % 2 ^ 64, BitVec.ofNat 8 ((2 ^ w - 1) * 2 ^ e.sh / 2 ^ (8 * j)), BitVec.ofNat 8 (v * 2 ^ e.sh / 2 ^ (8 * j))))

/-! Store queues (R63, R65) -/

/-- The elements of an address entry. -/
def AEntry.elems (e : AEntry) : List Elem := elemsOf (sewBits e.sew) e.base (sewBits e.sew / 8) e.bo e.vl

/-- The bytes of an address entry: [lo, hi). -/
def AEntry.range (e : AEntry) : Nat × Nat :=
  (e.base, e.base + if e.vl = 0 then 0 else (e.bo + e.vl * sewBits e.sew + 7) / 8)

/-- The execute hart can still complete an address entry that waits for its data (R66). -/
def Front.feeds (F : Front) : Bool := F.e.live

/-- The address entries of a queue that stand for a store: those whose data has arrived, and, while the execute hart runs, the
others. Each with its data, if that has arrived. -/
def Front.entriesOf (F : Front) (q : Nat) : List (AEntry × Option QEntry) :=
  let d := F.sqData.get [] q
  (((F.sqAddr.get [] q).zipIdx).map (fun e => (e.1, d[e.2]?))).filter (fun e => e.2.isSome || F.feeds)

/-- Put an entry into a list in the order of pushes. -/
def insertByTime (e : AEntry × Option QEntry) : List (AEntry × Option QEntry) → List (AEntry × Option QEntry)
  | [] => [e]
  | x :: xs => if e.1.time < x.1.time then e :: x :: xs else x :: insertByTime e xs

/-- The stores that the store queues hold, in the access hart's program order (R65). -/
def Front.pendingStores (F : Front) : List (AEntry × Option QEntry) :=
  ([0, 1, 2, 3].flatMap F.entriesOf).foldl (fun l e => insertByTime e l) []

/-- A store pushed into the store queues is not performed yet (R65). -/
def Front.storesWaiting (F : Front) : Bool := [0, 1, 2, 3].any (fun q => !(F.entriesOf q).isEmpty)

/-- The first of them in the access hart's program order has its data: it can be performed. -/
def Front.pairFirst (F : Front) : Bool := F.pendingStores.head?.any (fun e => e.2.isSome)

/-- The push time of the last such store. -/
def Front.lastStore (F : Front) : Nat := F.pendingStores.foldl (fun m e => max m e.1.time) 0

/-- The bits that a store whose data has arrived is going to write: place, mask, value; the place is a local address, or the
memory key of a window address. -/
def pairParts (s : State) (loc : Bool) (e : AEntry × Option QEntry) : List (Nat × Byte × Byte) :=
  match e.2 with
  | none => []
  | some d =>
    if e.1.loc != loc then []
    else
      let w := sewBits e.1.sew
      let ps := (e.1.elems.zip (elems w d.bits e.1.vl)).flatMap (fun x => partsOf w x.1 x.2)
      if loc then ps
      else ps.filterMap (fun p => match vectorByte s s.ctx .write p.1 with | .ok k => some (k, p.2) | .error _ => none)

/-- The bits that the access hart's pending stores hold for its loads (R67), in program order. -/
def State.queuedParts (s : State) (loc : Bool) : List (Nat × Byte × Byte) :=
  if s.slot = .a then s.front.pendingStores.flatMap (pairParts s loc) else []

/-- A byte under bits that are going to be written. -/
def underParts (place : Nat) (b : Byte) (ps : List (Nat × Byte × Byte)) : Byte :=
  ps.foldl (fun b p => if p.1 = place then mergeBits p.2.1 p.2.2 b else b) b

/-- Bits that are going to be written hold the whole of a byte. -/
def coveredByParts (place : Nat) (ps : List (Nat × Byte × Byte)) : Bool :=
  ps.foldl (fun m p => if p.1 = place then m ||| p.2.1 else m) (0 : Byte) == 0xFF#8

end Sys2Proof.Machine
end

