-- ==== Sys2Proof/Machine/Strip.lean ====
section
/-! DEFINITION. Strips (04 R70-R76): the checkpoint, the store buffer, the commit and the rollback; and a hart's loads
and stores of global memory and of its core's scratchpad as they go through the strip and through the ticket of a
speculative CR (12 R234). -/

namespace Sys2Proof.Machine

/-- Why an instruction does not complete in this step. -/
inductive Stop where
  /-- A trap of the instruction: cause and `tval`. -/
  | trap (cause : Nat) (val : Nat)
  /-- A trap of an earlier store, met at commit, at its own pc (07 R146, 08 R154). -/
  | trapAt (cause : Nat) (val : Nat) (pc : Word)
  | wait (w : Wait)
  /-- The strip is rolled back and runs again, with no trap (04 R75). -/
  | rerun
  deriving DecidableEq, Repr

/-- What an instruction does: from a state, a value and a state, or a stop. -/
abbrev M := StateT State (Except Stop)

/-- Stop. -/
def stop {α : Type} (x : Stop) : M α := fun _ => .error x

/-- Trap with a cause and `tval`. -/
def trap {α : Type} (cause val : Nat) : M α := stop (.trap cause val)

/-- Change the state. -/
def update (f : State → State) : M Unit := fun s => .ok ((), f s)

/-- Read from the state. -/
def look {α : Type} (f : State → α) : M α := fun s => .ok (f s, s)

/-- Trap when a condition holds. -/
def trapIf (b : Bool) (cause val : Nat) : M Unit := if b then trap cause val else pure ()

/-- Wait when a condition holds. -/
def waitIf (b : Bool) (w : Wait) : M Unit := if b then stop (.wait w) else pure ()

/-- The value of an access, or its failure as a trap with `val`. -/
def orTrap {α : Type} (val : Nat) (e : Except Nat α) : M α :=
  match e with
  | .ok a => pure a
  | .error c => trap c val

/-- Take the pieces of an access, or trap at the failing address. -/
def orTrapAt {α : Type} (e : Except (Nat × Nat) α) : M α :=
  match e with
  | .ok a => pure a
  | .error (c, va) => trap c va

/-! Roles (04 R52, R61) -/

/-- The CR of the current front is a PAIR. -/
def State.pair (s : State) : Bool := s.run.cr.kind == 2

/-- The current hart is the execute hart of a PAIR. -/
def State.isExec (s : State) : Bool := s.pair && s.slot == .e

/-- The current hart is the access hart of a PAIR. -/
def State.isAccess (s : State) : Bool := s.pair && s.slot == .a

/-- tstat.ROLE (13 R242). -/
def State.role (s : State) : Nat := if s.pair then (if s.slot == .e then 2 else 1) else 0

/-- The current hart runs in privileged mode (13 R245). -/
def State.priv (s : State) : Bool := s.hart.priv

/-- The ticket of the current CR, 0 for none (12 R233). -/
def State.ticket (s : State) : Nat := s.run.cr.ticket

/-! The store buffer (04 R73) -/

/-- The blocks that a buffered write touches: space and aligned address. -/
def Buffered.blocks : Buffered → List (Bool × Nat)
  | .global a _ _ d _ => (List.range ((a + d.length - 1) / 64 - a / 64 + 1)).map (fun i => (false, a / 64 + i))
  | .local a d _ => (List.range ((a + d.length - 1) / 64 - a / 64 + 1)).map (fun i => (true, a / 64 + i))
  | .part loc a _ _ _ _ => [(loc, a / 64)]
  | .swatch _ _ => []

/-- The distinct blocks of a buffer. -/
def bufferBlocks (bs : List Buffered) : Nat := ((bs.flatMap Buffered.blocks).eraseDups).length

/-- A byte of global memory under what the buffer holds of it. -/
def globalOver (key : Nat) : Byte → List Buffered → Byte
  | b, [] => b
  | b, .global _ k _ d _ :: bs => globalOver key (if k ≤ key then d[key - k]?.getD b else b) bs
  | b, .part false _ k m v _ :: bs => globalOver key (if k = key then mergeBits m v b else b) bs
  | b, _ :: bs => globalOver key b bs

/-- A byte of the scratchpad under what the buffer holds of it. -/
def localOver (addr : Nat) : Byte → List Buffered → Byte
  | b, [] => b
  | b, .local a d _ :: bs => localOver addr (if a ≤ addr then d[addr - a]?.getD b else b) bs
  | b, .part true a _ m v _ :: bs => localOver addr (if a = addr then mergeBits m v b else b) bs
  | b, _ :: bs => localOver addr b bs

/-- The buffer holds the whole of a byte of global memory. -/
def coversGlobal (key : Nat) (bs : List Buffered) : Bool :=
  bs.any (fun b => match b with | .global _ k _ d _ => decide (k ≤ key ∧ key < k + d.length) | _ => false)

/-- The buffer holds the whole of a byte of the scratchpad. -/
def coversLocal (addr : Nat) (bs : List Buffered) : Bool :=
  bs.any (fun b => match b with | .local a d _ => decide (a ≤ addr ∧ addr < a + d.length) | _ => false)

/-- The buffer holds a store to global memory. -/
def hasGlobal (bs : List Buffered) : Bool :=
  bs.any (fun b => match b with | .global .. => true | .part false .. => true | _ => false)

/-- The buffer holds a store to the scratchpad. -/
def hasLocal (bs : List Buffered) : Bool :=
  bs.any (fun b => match b with | .local .. => true | .part true .. => true | _ => false)

/-- Add writes to the buffer, or trap STRIPCAP where they would touch a 1,025th block. In privileged mode nothing is
buffered (13 R245) and the caller performs the writes. -/
def buffer (val : Nat) (new : List Buffered) : M Unit := fun s =>
  let all := s.hart.buf ++ new
  if 1024 < bufferBlocks all then .error (.trap Cause.stripcap val)
  else .ok ((), s.setHart { s.hart with buf := all })

/-! Tickets (12 R234) -/

/-- A window byte lies in one of a ticket's output ranges. -/
def Ticket.outputs (t : Ticket) (va : Nat) : Bool := t.outs.any (fun r => r.1 ≤ va && va < r.1 + r.2)

/-- Bytes of an element of a version (12 R225). -/
def fmtBytes (fmt : Nat) : Nat := if fmt = 0 then 4 else 2

/-- What a CR of a ticket reads at a window byte in place of the visible byte. -/
def specByte (s : State) (va : Nat) : Option Byte :=
  if s.ticket = 0 then none
  else
    let t := s.ticketAt s.ticket
    if !t.chain && t.buf ≤ va && va < t.buf + t.count * fmtBytes t.fmt then some (t.pred.get 0 va)
    else if t.outputs va && t.written.contains va then some (t.shadow.get 0 va)
    else if t.chain && t.inBase ≤ va && va < t.inBase + t.inLen then
      let p := s.ticketAt t.parent
      if p.written.contains va then some (p.shadow.get 0 va) else none
    else none

/-- Write bytes into a ticket's output shadow. -/
def Ticket.shadowed (t : Ticket) (va : Nat) : List Byte → Ticket
  | [] => t
  | b :: bs =>
    Ticket.shadowed { t with shadow := t.shadow.set 0 va b, written := if t.written.contains va then t.written else va :: t.written }
      (va + 1) bs

/-! Loads -/

/-- A store that precedes the access hart's next access in program order waits in a store queue (04 R65). -/
def queueAhead (s : State) : Bool := s.isAccess && s.front.storesWaiting

/-- A store of the space that precedes the hart's next load is not in memory yet: it is in the strip's buffer or in a store
queue. What a load then takes from memory must stand until that store is there (04 R65, R75; 07 R135). -/
def loadsAhead (s : State) (loc : Bool) : Bool :=
  (if loc then hasLocal s.hart.buf else hasGlobal s.hart.buf) || queueAhead s

/-- The bytes of a piece as the current hart loads them: its own buffered stores, over those that wait in its store queues with
their data, over its ticket's bytes, over memory. -/
def pieceBytes (s : State) (p : Piece) (vis : List Byte) : List Byte :=
  let q := s.queuedParts false
  (List.range p.len).map (fun i =>
    globalOver (p.key + i) (underParts (p.key + i) ((specByte s (p.va + i)).getD (vis.getD i 0)) q) s.hart.buf)

/-- The bytes of a piece that a load has taken from memory itself, but those that `skip` names; one whose read raced keeps its place
alone. -/
def leasedBut (skip : Nat → Bool) (s : State) (size : Nat) (p : Piece) (vis : List Byte) : List Lease :=
  if !loadsAhead s false then []
  else
    let q := s.queuedParts false
    (List.range p.len).filterMap (fun i =>
      if coversGlobal (p.key + i) s.hart.buf || coveredByParts (p.key + i) q || skip (p.va + i) then none
      else some ⟨false, p.va + i, p.key + i, if s.stands s.agent size (p.key + i) then some (vis.getD i 0) else none⟩)

/-- Those of a load: what a CR reads of its ticket is no byte of memory (12 R234). -/
def leased (s : State) : Nat → Piece → List Byte → List Lease := leasedBut (fun va => (specByte s va).isSome) s

/-- What the committed loads of an access hart keep, until the stores that precede them are performed (04 R65). -/
def State.keepLeases (s : State) (ls : List Lease) : State :=
  if queueAhead s ∧ ls ≠ [] then
    let F := s.front
    s.setFront { F with held := F.held ++ ls.map (fun l => (F.lastStore, l)) }
  else s

/-- Record what a load has taken from memory: its strip must find it unchanged, and privileged mode has no strips. -/
def State.lease (s : State) (ls : List Lease) : State :=
  if s.priv then s.keepLeases ls else s.setHart { s.hart with reads := s.hart.reads ++ ls }

/-- The visible bytes of a piece as the current hart reads them at an access of `size` bytes; a byte that the CR of a ticket reads
in their place is not read (12 R234). -/
def State.readVisible (s : State) (size : Nat) (p : Piece) : Except Nat (List Byte) :=
  if s.ticket = 0 then s.readMem s.ctx s.agent size p.key p.len
  else
    let own := (List.range p.len).filter (fun i => (specByte s (p.va + i)).isNone)
    if own.any (fun i => s.mixed s.ctx s.agent size (p.key + i) 1) then .error Cause.mixsize
    else if own.any (fun i => s.poisoned (p.key + i) 1) then .error Cause.ecc
    else .ok ((List.range p.len).map (fun i => s.readByte s.agent size (p.key + i)))

/-- Load the bytes of pieces; `va` is the address of the access, `size` its size. -/
def loadPieces (va size : Nat) : List Piece → M (List Byte)
  | [] => pure []
  | p :: ps => do
    let s ← look id
    let vis ← orTrap va (s.readVisible size p)
    update (fun s => s.lease (leased s size p vis))
    let rest ← loadPieces va size ps
    pure (pieceBytes s p vis ++ rest)

/-- Read an aligned 8-byte word as an ordinary event, whatever the ticket of the CR holds in its place (12 R234: SETVLW and WAITV
among them). -/
def readWord (va : Nat) (p : Piece) : M Nat := do
  let s ← look id
  let vis ← orTrap va (s.readMem s.ctx s.agent 8 p.key 8)
  let q := s.queuedParts false
  let read := (List.range 8).map (fun i => globalOver (p.key + i) (underParts (p.key + i) (vis.getD i 0) q) s.hart.buf)
  update (fun s => s.lease (leasedBut (fun _ => false) s 8 { p with len := 8 } vis))
  pure (ofBytes read)

/-- Check a scalar access (R322): alignment, space, translation. -/
def scalarPieces (acc : Acc) (va n : Nat) : M (List Piece) := fun s =>
  if va % n ≠ 0 then .error (.trap Cause.misalign va)
  else
    match scalarByte s s.fid s.ctx acc s.priv va with
    | .error c => .error (.trap c va)
    | .ok k => .ok ([⟨va, k, n⟩], cacheLeaf s s.fid s.ctx acc s.priv va)

/-- A scalar load of `n` bytes as a number. -/
def loadScalar (va n : Nat) : M Nat := do
  let ps ← scalarPieces .read va n
  let bs ← loadPieces va n ps
  pure (ofBytes bs)

/-! What the Gauges read (12 R235) -/

/-- Bytes of a window range as the device reads them (12 R227, R235). -/
def State.peekWindow (s : State) (ctx va n : Nat) : Except Nat (List Byte) :=
  match windowPieces s ctx .read va n with
  | .ok ps => if ps.any (fun p => s.poisoned p.key p.len) then .error Cause.ecc else .ok (s.peekPieces ps)
  | .error (c, _) => .error c

/-- The value of a ticket's watermark word, where the ticket's context can read it; the cause otherwise. -/
def State.watermark (s : State) (T : Ticket) : Except Nat Nat :=
  match windowPieces s T.ctx .read T.wm 8 with
  | .ok ps => .ok (ofBytes (s.peekPieces ps))
  | .error (c, _) => .error c

/-- A ticket is live (12 R232). -/
def Ticket.live (t : Ticket) : Bool := t.st == .opened || t.st == .done

/-- A FIDDLE ticket that is live and not yet checked. -/
def Ticket.watched (T : Ticket) : Bool := T.live && !T.chain && T.verdict.isNone

/-- The job of a ticket is frozen: nothing of it happens until THAW (13 R259). -/
def State.frozenTicket (s : State) (T : Ticket) : Bool := (s.regionAt (regionKey T.ctx T.region)).frozen

/-- A ticket's watermark word has reached its target. -/
def State.published (s : State) (T : Ticket) : Bool :=
  T.watched && !s.frozenTicket T && (match s.watermark T with | .ok v => decide (T.target.toNat ≤ v) | .error _ => false)

/-- What a check of the ticket reads now. -/
def State.realNow (s : State) (T : Ticket) : Nat × List Byte :=
  match s.peekWindow T.ctx T.buf (T.count * fmtBytes T.fmt) with
  | .ok bs => (0, bs)
  | .error c => (c, [])

/-- What the ticket's Gauge has read at event `n`, where the event publishes what it checks. -/
def State.gauged (s : State) (n : Nat) (T : Ticket) : Ticket :=
  if s.published T ∧ T.real = none then { T with real := some (s.realNow T), event := n } else T

/-- The Gauges read right after each event that publishes what they check; the events are numbered. -/
def State.gaugeReads (s : State) : State :=
  if s.dev.tickets.any (fun e => s.published e.2 && e.2.real.isNone) then
    let n := s.dev.gauges + 1
    { s with dev := { s.dev with tickets := s.dev.tickets.map (fun e => (e.1, s.gauged n e.2)), gauges := n } }
  else s

/-! Stores -/

/-- A store that the ticket of the CR does not allow traps SPECST (12 R234). -/
def checkTicketStore (va n : Nat) : M Unit := do
  let s ← look id
  if s.ticket = 0 then pure ()
  else trapIf (!(List.range n).all (fun i => (s.ticketAt s.ticket).outputs (va + i))) Cause.specst va

/-- A hart's store is performed (17 R322, step 5): MIXSIZE, then ECC where a byte stands in a word that cannot be read (14 R278; log
entry 75). -/
def State.storeMem (s : State) (size key : Nat) (d : List Byte) : Except Nat State :=
  match s.writeMem s.ctx s.agent size key d with
  | .error c => .error c
  | .ok s' => if s.poisoned key d.length then .error Cause.ecc else .ok s'

/-- Perform a store at once: to memory, or to the ticket's shadow. -/
def performStore (s : State) (size va : Nat) (p : Piece) (d : List Byte) : Except (Nat × Nat) State :=
  if s.ticket ≠ 0 then .ok (s.setTicketAt s.ticket ((s.ticketAt s.ticket).shadowed p.va d))
  else
    match s.storeMem size p.key d with
    | .ok s' => .ok s'
    | .error c => .error (c, va)

/-- Perform the pieces of one store at once. -/
def performPieces (s : State) (size va : Nat) : List Piece → List Byte → Except (Nat × Nat) State
  | [], _ => .ok s
  | p :: ps, d =>
    match performStore s size va p (d.take p.len) with
    | .error e => .error e
    | .ok s' => performPieces s' size va ps (d.drop p.len)

/-- A store to be made: address, size of the access, pieces, bytes. -/
structure Write where
  va : Nat
  size : Nat
  ps : List Piece
  data : List Byte

/-- The buffered form of a write's pieces. -/
def bufferedOf (pc : Word) (size : Nat) : List Piece → List Byte → List Buffered
  | [], _ => []
  | p :: ps, d => .global p.va p.key size (d.take p.len) pc :: bufferedOf pc size ps (d.drop p.len)

/-- Perform writes one after the other. -/
def performAll : List Write → M Unit
  | [] => pure ()
  | w :: ws => do
    let s ← look id
    let s' ← orTrapAt (performPieces s w.size w.va w.ps w.data)
    update (fun _ => s'.gaugeReads)
    performAll ws

/-- Check the ticket of every write. -/
def checkTickets : List Write → M Unit
  | [] => pure ()
  | w :: ws => do
    checkTicketStore w.va w.data.length
    checkTickets ws

/-- Store: into the strip's buffer, or at once in privileged mode. -/
def storeAll (ws : List Write) : M Unit := do
  checkTickets ws
  let s ← look id
  if s.priv then performAll ws
  else
    match ws with
    | [] => pure ()
    | w :: _ => buffer w.va (ws.flatMap (fun w => bufferedOf s.regs.pc w.size w.ps w.data))

/-- A scalar store of `n` bytes. -/
def storeScalar (va n v : Nat) : M Unit := do
  let ps ← scalarPieces .write va n
  storeAll [⟨va, n, ps, toBytes n v⟩]

/-! Local space and swatches (07 R123, R135-R139) -/

/-- A descriptor's 64 bits (07 R137). -/
def Swatch.word (w : Swatch) : Word :=
  let st : BitVec 2 := match w.st with | .empty => 0 | .filling => 1 | .ready => 2 | .draining => 3
  st ++ 0#20 ++ w.len ++ w.base

/-- Write a descriptor's fields. -/
def Swatch.ofWord (w : Swatch) (v : Word) : Swatch :=
  { w with
    st := match (v.extractLsb' 62 2).toNat with | 0 => .empty | 1 => .filling | 2 => .ready | _ => .draining
    len := v.extractLsb' 21 21
    base := v.extractLsb' 0 21 }

/-- What the hart's own buffer holds of a descriptor (07 R137: it sees its writes at once). -/
def bufferedSwatch (k : Nat) : List Buffered → Option Word
  | [] => none
  | .swatch j v :: bs =>
    match bufferedSwatch k bs with
    | some w => some w
    | none => if j = k then some v else none
  | _ :: bs => bufferedSwatch k bs

/-- A core's descriptor as the current hart sees it. -/
def State.swatchSeen (s : State) (k : Nat) : Swatch :=
  let w := s.core.swatches.get {} k
  match bufferedSwatch k s.hart.buf with
  | some v => if w.st = .filling ∨ w.st = .draining then w else w.ofWord v
  | none => w

/-- The descriptors of the core that hold a local byte range, as the current hart sees them. -/
def State.covering (s : State) (addr n : Nat) : List Swatch :=
  ((List.range 64).map s.swatchSeen).filter (fun w =>
    w.front < 256 && w.len != 0 && w.base.toNat < addr + n && addr < w.base.toNat + w.len.toNat)

/-- A local access that stalled on swatches observes, as it issues, the gathers that filled them (09 R193). -/
def observeFills (ws : List Swatch) : M Unit :=
  update (fun s =>
    if s.hart.wait = .resource then
      { s with order := ws.foldl (fun o w => if w.engine = 0 then o else o.observeAt s.ctx s.agent w.engine) s.order }
    else s)

/-- Check a local access (07 R123, R139). -/
def checkLocal (addr n : Nat) : M Unit := do
  trapIf (1572864 < addr + n) Cause.outwin addr
  let s ← look id
  let ws := s.covering addr n
  trapIf (ws.any (fun w => w.st == .empty)) Cause.swatch addr
  waitIf (ws.any (fun w => w.st == .filling || w.st == .draining)) .resource
  observeFills ws

/-- The local bytes that a load has taken from the scratchpad itself. -/
def leasedLocal (s : State) (addr n : Nat) : List Lease :=
  if !loadsAhead s true then []
  else
    let q := s.queuedParts true
    (List.range n).filterMap (fun i =>
      if coversLocal (addr + i) s.hart.buf || coveredByParts (addr + i) q then none
      else some ⟨true, addr + i, 0, some (s.core.scratch.get 0 (addr + i))⟩)

/-- Load local bytes: own buffered stores over those that wait in the store queues over the scratchpad. -/
def loadLocal (addr n : Nat) : M (List Byte) := do
  let s ← look id
  update (fun s => s.lease (leasedLocal s addr n))
  let q := s.queuedParts true
  pure ((List.range n).map (fun i => localOver (addr + i) (underParts (addr + i) (s.core.scratch.get 0 (addr + i)) q) s.hart.buf))

/-- Write a core's scratchpad. -/
def State.setScratch (s : State) (c addr : Nat) (d : List Byte) : State :=
  let C := s.coreAt c
  s.setCoreAt c { C with scratch := C.scratch.setBytes addr d }

/-- Store local bytes: into the strip's buffer, or at once in privileged mode. -/
def storeLocal (ws : List (Nat × List Byte)) : M Unit := do
  let s ← look id
  if s.priv then update (fun s => ws.foldl (fun s w => s.setScratch s.coreNo w.1 w.2) s)
  else
    match ws with
    | [] => pure ()
    | w :: _ => buffer w.1 (ws.map (fun w => .local w.1 w.2 s.regs.pc))

/-! Commit and rollback -/

/-- A buffered write of global bytes enters memory, or its ticket's shadow. It goes where it was translated to; where a map has
changed under it since, the strip runs again (20 R443), and where its patch has been freed, the store traps (07 R146). -/
def commitGlobal (s : State) (va key size : Nat) (d : List Byte) (pc : Word) : Except Stop State :=
  if s.ticket ≠ 0 then .ok (s.setTicketAt s.ticket ((s.ticketAt s.ticket).shadowed va d))
  else if mayReach s s.fid s.ctx .write s.priv va key then
    match s.storeMem size key d with
    | .error c => .error (.trapAt c va pc)
    | .ok s' => .ok s'
  else
    match scalarByte s s.fid s.ctx .write s.priv va with
    | .error c => if c = Cause.uncovered then .error (.trapAt c va pc) else .error .rerun
    | .ok _ => .error .rerun

/-- A buffered write of local bytes: its swatches are READY still, or the strip runs again (07 R139). -/
def commitLocal (s : State) (a : Nat) (d : List Byte) : Except Stop State :=
  if (s.covering a d.length).any (fun w => w.st != .ready) then .error .rerun else .ok (s.setScratch s.coreNo a d)

/-- A byte of which bits are written, read (20 R458). -/
def partOld (s : State) (va key : Nat) (mask : Byte) (pc : Word) : Except Stop Byte :=
  if mask = 0xFF then .ok 0
  else
    match specByte s va with
    | some b => .ok b
    | none =>
      match s.readMem s.ctx s.agent 1 key 1 with
      | .error c => .error (.trapAt c va pc)
      | .ok bs => .ok (bs.headD 0)

/-- One buffered write enters memory (04 R73, 07 R137, R139, R146). -/
def commitOne (s : State) : Buffered → Except Stop State
  | .global va key size d pc => commitGlobal s va key size d pc
  | .local a d _ => commitLocal s a d
  | .part true a _ m v _ => commitLocal s a [mergeBits m v (s.core.scratch.get 0 a)]
  | .part false va key m v pc =>
    match partOld s va key m pc with
    | .error e => .error e
    | .ok b => commitGlobal s va key 1 [mergeBits m v b] pc
  | .swatch k v =>
    let w := s.core.swatches.get {} k
    if w.st = .filling ∨ w.st = .draining then .ok s
    else .ok (s.setCore { s.core with swatches := s.core.swatches.set {} k (w.ofWord v) })

/-- The buffered writes enter memory in order. -/
def commitAll (s : State) : List Buffered → Except Stop State
  | [] => .ok s
  | b :: bs =>
    match commitOne s b with
    | .error e => .error e
    | .ok s' => commitAll s'.gaugeReads bs

/-- A fill whose strip has committed. -/
def Fill.age (f : Fill) : Fill := { f with old := true }

/-- A byte still reads as it was read, by front `f` in a context and a mode: the same place, and the same value where the read had
one. -/
def Lease.holds (l : Lease) (s : State) (f ctx : Nat) (priv : Bool) : Bool :=
  if l.loc then l.byte.all (· == (s.coreAt (f / 2)).scratch.get 0 l.va)
  else mayReach s f ctx .read priv l.va l.key && l.byte.all (· == s.mem.get 0 l.key)

/-- The strip's bytes still read as the strip read them (04 R75). -/
def leasesHold (s : State) : Bool := s.hart.reads.all (fun l => l.holds s s.fid s.ctx s.priv)

/-- The store buffer without the global and local writes of `b` before it. The commit performs each write under a buffer
that no longer holds it, so that later checks see memory. -/
def State.dropBuffer (s : State) : State := s.setHart { s.hart with buf := [] }

/-- A store of the strip must follow one that waits in a store queue (04 R65). -/
def commitWaits (s : State) : Bool := queueAhead s && (hasGlobal s.hart.buf || hasLocal s.hart.buf)

/-- The hart after a commit: nothing of the strip is held, and its loads are those of a committed strip. -/
def Hart.committed (h : Hart) : Hart :=
  { h with reads := [], reruns := 0, holds := false, blockedOn := none, popped := [], fills := h.fills.map Fill.age }

/-- Commit the strip so far (04 R70, R75). Privileged mode has no strips (13 R245). A CR that runs ahead waits until the queue
of the CR before it has drained (R81). -/
def commitStrip (s : State) : Except Stop State :=
  if s.priv then .ok s
  else if s.front.drain.isSome || commitWaits s then .error (.wait .room)
  else if !leasesHold s then .error .rerun
  else
    match commitAll s.dropBuffer s.hart.buf with
    | .error e => .error e
    | .ok s' =>
      let t := s'.keepLeases s'.hart.reads
      .ok (t.setHart t.hart.committed)

/-- The tiles of the CR, in its own numbering. -/
def State.tilesOf (s : State) : List Tile := s.run.tiles.map (fun k => s.core.tiles.get {} k)

/-- Take the checkpoint (04 R70, 10 R207). -/
def checkpoint (s : State) : State :=
  if s.priv then s
  else s.setHart { s.hart with ckpt := s.hart.regs, ckTiles := if s.isAccess then [] else s.tilesOf }

/-- One tile at rollback: as checkpointed, except that one that a matrix command has held, then or since, stays (10 R207), and
that a retired tile stays retired (R195). What the strip itself did to such a tile stays too (DESIGN CHOICE: R207's sentences conflict
there; log entry 85). -/
def rollTile (now old : Tile) : Tile :=
  if now.retired then now
  else if now.uses ≠ old.uses then now
  else if old.st = .busy ∨ old.st = .draining ∨ now.st = .busy ∨ now.st = .draining then now
  else old

/-- Restore the CR's tiles. -/
def rollTiles (C : Core) : List Nat → List Tile → Core
  | k :: ks, t :: ts => rollTiles { C with tiles := C.tiles.set {} k (rollTile (C.tiles.get {} k) t) } ks ts
  | _, _ => C

/-- Return popped entries to the heads of their queues, in order (04 R70). -/
def returnPopped (F : Front) : List (Nat × QEntry) → Front
  | [] => F
  | (q, e) :: ps =>
    let F' := returnPopped F ps
    { F' with lq := F'.lq.set [] q (e :: F'.lq.get [] q) }

/-- Roll the current hart's strip back to its checkpoint (04 R70, R69, R74; 10 R207). -/
def rollback (s : State) : State :=
  let h := s.hart
  let s := s.setCore (rollTiles s.core s.run.tiles h.ckTiles)
  let s := s.setFront (returnPopped s.front h.popped)
  s.setHart { s.hart with
    regs := h.ckpt, buf := [], reads := [], popped := [], fills := h.fills.filter (fun f => f.old), wait := .none, waitInstr := none }

/-- Roll back and run again: after two reruns the run holds its leases (04 R75). -/
def rerunStrip (s : State) : State :=
  let s := rollback s
  s.setHart { s.hart with reruns := s.hart.reruns + 1, holds := decide (2 ≤ s.hart.reruns + 1) }

end Sys2Proof.Machine
end

