-- ==== Sys2Proof/Machine/Region.lean ====
section
/-! DEFINITION. The tree of regions (03 R22-R51), the tickets' lives (12 R232-R240) as far as other steps drive them, the
mailbox's events (14 R269), and the end of a CR (03 R37, R50; 12 R238): what exits, terminations, withdrawals, joins and
commits share. -/

namespace Sys2Proof.Machine

/-! Mailbox events (14 R269) -/

/-- A mailbox slot holding an event: OP, STATUS 1, CTX, REGION, A0, A1 (14 R266). -/
def eventSlot (op ctx region : Nat) (a0 a1 : Word) : BitVec 512 :=
  BitVec.ofNat 512 (op + 2 ^ 8 + ctx * 2 ^ 16 + region * 2 ^ 32 + a0.toNat * 2 ^ 64 + a1.toNat * 2 ^ 128)

/-- STATUS of a slot. -/
def slotStatus (v : BitVec 512) : Nat := (v.extractLsb' 8 8).toNat

/-- The lowest event slot whose STATUS is 0. -/
def State.eventRoom (s : State) : Option Nat :=
  [12, 13, 14, 15].find? (fun k => slotStatus (s.dev.mailbox.get 0 k) == 0)

/-- Report an event and raise MSI-X vector 0, or make it wait while all four slots are full. -/
def State.post (s : State) (op ctx region : Nat) (a0 a1 : Word) : State :=
  match s.eventRoom with
  | some k =>
    if s.dev.events.isEmpty then
      { s with dev := { s.dev with
        mailbox := s.dev.mailbox.set 0 k (eventSlot op ctx region a0 a1), msix := s.dev.msix + 1 } }
    else { s with dev := { s.dev with events := s.dev.events ++ [(op, ctx, region, a0, a1)] } }
  | none => { s with dev := { s.dev with events := s.dev.events ++ [(op, ctx, region, a0, a1)] } }

/-! CR images (03 R27) -/

/-- The 64 bytes of a CR. -/
def CR.bytes (c : CR) : List Byte :=
  toBytes 8 c.code.toNat ++ toBytes 8 c.frame.toNat ++ toBytes 8 c.joinaddr.toNat ++ toBytes 8 c.weight.toNat ++
  toBytes 4 c.tag.toNat ++ toBytes 2 c.region ++ toBytes 1 c.lanemin ++ toBytes 1 c.lanemax ++ toBytes 1 c.kind ++
  toBytes 1 c.ticket ++ toBytes 6 0 ++ toBytes 8 c.save ++ toBytes 8 0

/-- A number at a byte offset of an image. -/
def fieldAt (bs : List Byte) (off n : Nat) : Nat := ofBytes ((bs.drop off).take n)

/-- A CR image as SPAWN reads it: hardware fields are ignored. -/
def CR.ofBytes (bs : List Byte) : CR :=
  { code := BitVec.ofNat 64 (fieldAt bs 0 8), frame := BitVec.ofNat 64 (fieldAt bs 8 8),
    joinaddr := BitVec.ofNat 64 (fieldAt bs 16 8), tag := BitVec.ofNat 32 (fieldAt bs 32 4),
    lanemin := fieldAt bs 38 1, lanemax := fieldAt bs 39 1, kind := fieldAt bs 40 1 }

/-- The reserved bytes of a CR image are zero. -/
def crReserved (bs : List Byte) : Bool := fieldAt bs 42 6 == 0 && fieldAt bs 56 8 == 0

/-! RCBs in memory (03 R22) -/

/-- The hardware's fields of an RCB: offset, size, value. -/
def Region.fields (R : Region) (id : Nat) : List (Nat × Nat × Nat) :=
  [(0, 2, R.parent), (2, 2, id), (10, 1, R.status), (32, 8, R.drawn.toNat), (40, 8, R.returned.toNat), (64, 4, R.head),
   (68, 4, R.tail), (72, 4, R.reserve.get 0 0), (76, 4, R.reserve.get 0 1), (80, 4, R.reserve.get 0 2),
   (84, 4, R.reserve.get 0 3), (88, 4, R.charged.get 0 0), (92, 4, R.charged.get 0 1), (96, 4, R.charged.get 0 2),
   (100, 4, R.charged.get 0 3), (124, 4, R.faults.toNat)]

/-- The agent number under which the device writes of its own accord. -/
def deviceAgent : Nat := 1501

/-- Write bytes of a context's memory as the device does; where they do not translate, nothing is written. Such a write is no
access of a stated size and races with none (08 R148, R153; log entry 60). -/
def State.deviceWrite (s : State) (ctx va : Nat) (bs : List Byte) : State :=
  match scalarRange s 256 ctx .write true va bs.length with
  | .ok ps => s.forcePieces ctx deviceAgent 0 ps bs
  | .error _ => s

/-- Write some fields of an image. -/
def State.writeFields (s : State) (ctx base : Nat) : List (Nat × Nat × Nat) → State
  | [] => s
  | (off, n, v) :: fs => State.writeFields (s.deviceWrite ctx (base + off) (toBytes n v)) ctx base fs

/-- The fields that differ from the RCB's old ones. -/
def changedFields (old new : List (Nat × Nat × Nat)) : List (Nat × Nat × Nat) := new.filter (fun f => !old.contains f)

/-- Change a region and the hardware's fields of its RCB. -/
def State.putRegion (s : State) (k : Nat) (R : Region) : State :=
  let old := s.regionAt k
  (s.setRegionAt k R).writeFields (k / 65536) R.rcb (changedFields (old.fields (k % 65536)) (R.fields (k % 65536)))

/-! Rings (03 R34-R36) -/

/-- A CR image with the fields that the hardware writes (R27), as it enters a ring. -/
def CR.stamp (c : CR) (img : List Byte) : List Byte :=
  img.take 24 ++ toBytes 8 c.weight.toNat ++ (img.drop 32).take 4 ++ toBytes 2 c.region ++ (img.drop 38).take 3 ++
  toBytes 1 c.ticket ++ (img.drop 42).take 6 ++ toBytes 8 c.save ++ (img.drop 56).take 8

/-- Write a CR's image into the ring slot at the tail and move the tail. -/
def State.ringPush (s : State) (k : Nat) (c : CR) (img : List Byte) : State :=
  let R := s.regionAt k
  let s := s.deviceWrite (k / 65536) (R.ring + 64 * (R.tail % max R.ringlen 1)) (c.stamp img)
  s.putRegion k { R with tail := (R.tail + 1) % 2 ^ 32 }

/-- Push a CR ready at the tail of its region's FIFO. -/
def State.pushReady (s : State) (k : Nat) (c : CR) (img : List Byte) : State :=
  let s := s.ringPush k c img
  let R := s.regionAt k
  s.setRegionAt k { R with ready := R.ready ++ [c] }

/-- Return a CR to the head of its region's FIFO (R45). -/
def State.pushHead (s : State) (k : Nat) (c : CR) : State :=
  let R := s.regionAt k
  let head := (R.head + 2 ^ 32 - 1) % 2 ^ 32
  let s := s.deviceWrite (k / 65536) (R.ring + 64 * (head % max R.ringlen 1)) c.bytes
  s.putRegion k { R with head := head, ready := c :: R.ready }

/-- Park a CR on its join address. -/
def State.park (s : State) (k : Nat) (c : CR) (img : List Byte) : State :=
  let s := s.ringPush k c img
  let R := s.regionAt k
  s.setRegionAt k { R with parked := R.parked ++ [c] }

/-- Make ready, in parking order, the CRs of one region parked on an address, by wake `n` of the device. -/
def Region.wake (R : Region) (va n : Nat) : Region :=
  { R with
    ready := R.ready ++ (R.parked.filter (fun c => c.joinaddr.toNat == va)).map (fun c => { c with woke := n })
    parked := R.parked.filter (fun c => c.joinaddr.toNat != va) }

/-- Wake every CR of a context parked on an address (03 R35), whose counter stands at memory key `key`: what a woken CR does follows
the JOINs on the counter (11 R222; log entry 76). -/
def State.wakeAll (s : State) (ctx va key : Nat) : State :=
  let n := s.dev.wakes + 1
  { s with
    regions := s.regions.map (fun e => if e.1 / 65536 = ctx then (e.1, e.2.wake va n) else e)
    order := s.order.offer (syncKey key) (wakeKey n), dev := { s.dev with wakes := n } }

/-- JOIN's read-modify-write of the counter at `va` (03 R35), by agent `g` through front `f`'s translations: the value
read. -/
def State.joinAt (s : State) (f ctx g : Nat) (priv : Bool) (va : Nat) : Except Nat (Nat × State) :=
  if va % 8 ≠ 0 then .error Cause.misalign
  else
    match scalarByte s f ctx .both priv va with
    | .error c => .error c
    | .ok key =>
      match (cacheLeaf s f ctx .both priv va).modifyWord ctx g 8 key true (fun old => if old = 0 then none else some (old - 1)) with
      | .error c => .error c
      | .ok (old, s) => .ok (old, if old = 1 then s.wakeAll ctx va key else s)

/-! Completion and failure (03 R38, R51) -/

/-- Join an address on the device's own account; a counter that fails is left. -/
def State.deviceJoin (s : State) (ctx va : Nat) : State :=
  if va = 0 then s
  else
    match s.joinAt 256 ctx deviceAgent true va with
    | .ok (_, s') => s'
    | .error _ => s

/-- A region leaves ACTIVE with a status: it leaves the dispatchers' order (R42) and `done` is joined. -/
def State.closeRegion (s : State) (k status : Nat) : State :=
  let R := s.regionAt k
  let s := s.putRegion k { R with status := status, failing := false, aging := 0, steps := 0 }
  let s := { s with dev := { s.dev with
    deficits := (s.dev.deficits.set [] 0 (Table.set 0 (s.dev.deficits.get [] 0) k 0)).set [] 1
      (Table.set 0 (s.dev.deficits.get [] 1) k 0) } }
  s.deviceJoin (k / 65536) R.done.toNat

/-- Complete a region whose returned weight balances (R38). -/
def State.checkComplete (s : State) (k : Nat) : State :=
  let R := s.regionAt k
  if R.status = 1 ∧ R.failing = false ∧ R.returned.toNat = 2 ^ 62 + R.drawn.toNat then s.closeRegion k 2 else s

/-- Add weight to a region's returned field. -/
def State.giveWeight (s : State) (k : Nat) (w : Word) : State :=
  let R := s.regionAt k
  s.putRegion k { R with returned := R.returned + w }

/-- The weight of a list of CRs. -/
def weightOf : List CR → Word
  | [] => 0
  | c :: cs => c.weight + weightOf cs

/-- A queued CR has been dispatched before: it is in a save area, or it ran ahead and came back (R48, R49; 04 R81). -/
def CR.started (c : CR) : Bool := c.save != 0 || c.ran

/-- A CR that WITHDRAW may remove (R48): never dispatched, of no ticket, its tag matching. -/
def withdrawable (tag mask : BitVec 32) (c : CR) : Bool :=
  !c.started && c.ticket == 0 && ((c.tag ^^^ tag) &&& mask) == 0

/-- Remove from a region every CR that matches (R48): the count. The region may complete. -/
def State.withdraw (s : State) (k : Nat) (tag mask : BitVec 32) : Nat × State :=
  let R := s.regionAt k
  if R.status ≠ 1 then (0, s)
  else
    let out := (R.ready ++ R.parked).filter (withdrawable tag mask)
    let s := s.putRegion k { R with
      ready := R.ready.filter (fun c => !withdrawable tag mask c)
      parked := R.parked.filter (fun c => !withdrawable tag mask c)
      head := (R.head + out.length) % 2 ^ 32 }
    (out.length, (s.giveWeight k (weightOf out)).checkComplete k)

/-! Running CRs -/

/-- The fronts that run a CR, with what they hold; one whose queue drains runs still (04 R80). -/
def State.running (s : State) : List (Nat × Run) :=
  s.fronts.flatMap (fun e => e.2.run.toList.map (fun r => (e.1, r)) ++ e.2.drain.toList.map (fun x => (e.1, x.run)))

/-- CRs of a region that run, are pre-empted or have come back to the FIFO. -/
def State.started (s : State) (k : Nat) : Nat :=
  (s.running.filter (fun r => regionKey r.2.ctx r.2.cr.region == k)).length +
  ((s.regionAt k).ready.filter CR.started).length

/-- Tickets by number. -/
def State.ticketList (s : State) : List (Nat × Ticket) := s.dev.tickets

/-- The children of a region that are ACTIVE: those that name its id as their parent. Where a parent has completed before a child and
its id is given again, the child counts under the region that has the id then, terminates into it, and, where none is ACTIVE,
into none (DESIGN CHOICE: R25 does not say; log entry 58). -/
def State.childrenOf (s : State) (k : Nat) : List (Nat × Region) :=
  s.regions.filter (fun e => e.2.status == 1 && e.1 / 65536 == k / 65536 && e.2.parent == k % 65536 && e.1 != k)

/-! The end of a CR (03 R37, R50) -/

/-- Free the CR's tiles that no matrix command holds (10 R194). -/
def releaseTiles (C : Core) : List Nat → Core
  | [] => C
  | k :: ks =>
    let t := C.tiles.get {} k
    let t' : Tile :=
      if t.st = .busy ∨ t.st = .draining then { t with front := 256, serial := t.serial }
      else { retired := t.retired }
    releaseTiles { C with tiles := C.tiles.set {} k t' } ks

/-- Free the CR's descriptors; one that is FILLING or DRAINING is released when its command completes (07 R139). -/
def releaseSwatches (C : Core) : List Nat → Core
  | [] => C
  | k :: ks =>
    let w := C.swatches.get {} k
    let w' : Swatch := if w.st = .filling ∨ w.st = .draining then { w with serial := 0 } else {}
    releaseSwatches { C with swatches := C.swatches.set {} k w' } ks

/-- A phase is that of a fault whose trap is not over. -/
def Phase.faulty (p : Phase) : Bool := p == .faulted || p == .delivered

/-- A command that RESTORE has placed and that no CR will give its swatches and tile: it goes on over entries that no CR sees, from
`sw` and from `ti` up (14 R273; log entry 71). -/
def Cmd.loose (c : Cmd) (sw ti : Nat) : Cmd :=
  if c.away then { c with away := false, srcs := c.srcs.map (sw + ·), dsts := c.dsts.map (sw + ·), tile := c.tile.map (ti + ·) } else c

/-- A command whose CR or hart has exited (09 R174): a fault whose trap is not over becomes its status; a record whose write
failed is given up; one whose handler has returned runs on; skip-and-return retries without a trap. -/
def Cmd.orphan (c : Cmd) : Cmd :=
  let c := c.loose 64 8
  { c with
    orphaned := true
    phase := if c.phase.faulty then .finished else c.phase
    status := if c.phase.faulty ∧ c.recordFailed = false then BitVec.ofNat 8 c.failCause else c.status
    skipTrap := if c.skipTrap.faulty then .retry else c.skipTrap }

/-- A CR's command when the CR ends: its unpublished shadow is discarded (08 R159). -/
def dropShadows (serial : Nat) (c : Cmd) : Cmd :=
  if c.owned ∧ c.serial = serial then { c.orphan with shadow := [], published := true } else c

/-- The commands of front `f` when the CR of a serial number ends. -/
def State.orphanChains (s : State) (f serial : Nat) : State :=
  let F := s.frontAt f
  s.setFrontAt f { F with
    chain := F.chain.map (fun e => (e.1, e.2.map (dropShadows serial)))
    shadows := F.shadows.map (fun e => (e.1, e.2.map (dropShadows serial))) }

/-- A hart slot in which no CR runs: the trap registers are its own (13 R242). -/
def Hart.blank (h : Hart) : Hart :=
  { tcause := h.tcause, tval := h.tval, tpc := h.tpc, tasync := h.tasync, trole := h.trole }

/-- A hart of a CR with the trap registers of the slot in which it comes to run (13 R242, R254). -/
def Hart.inSlot (h old : Hart) : Hart :=
  { h with tcause := old.tcause, tval := old.tval, tpc := old.tpc, tasync := old.tasync, trole := old.trole }

/-- Clear a front after its CR has gone: lanes, harts, queues; engine chains and sequence numbers stay (09 R174). -/
def Front.cleared (F : Front) (serial : Nat) : Front :=
  { seq := F.seq, own := F.own, tlb := F.tlb, a := F.a.blank, e := F.e.blank,
    chain := F.chain.map (fun e => (e.1, e.2.map (dropShadows serial))),
    shadows := F.shadows.map (fun e => (e.1, e.2.map (dropShadows serial))) }

/-- Clear front `f` of its CR and release what the CR holds. -/
def State.clearFront (s : State) (f : Nat) : State :=
  let F := s.frontAt f
  let r := F.theRun
  let C := s.coreAt (f / 2)
  let s := s.setCoreAt (f / 2) (releaseSwatches (releaseTiles C r.tiles) r.swatches)
  s.setFrontAt f (F.cleared r.serial)

/-- Return the units of a save area (13 R256), as its CR ends. -/
def State.freeSave (s : State) (id : Nat) : State :=
  if id = 0 then s
  else
    let A := s.dev.saves.get {} id
    let s := s.orphanChains A.front A.run.serial
    { s with dev := { s.dev with saves := s.dev.saves.set {} id {} } }

/-! Tickets (12 R232, R237, R238, R240) -/

/-- Weight added to a ticket's pool. -/
def State.addPool (s : State) (t : Nat) (w : Word) : State :=
  let T := s.ticketAt t
  s.setTicketAt t { T with pool := T.pool + w }

/-- Take back the EXIT of the CR whose queue drains from front `f` (04 R81): the CR that runs ahead has committed nothing and
returns to the head of its region's FIFO, to run to its end from there even where its region fails (03 R51); the front holds the
exiting CR again. -/
def State.undrain (s : State) (f : Nat) : State :=
  let F := s.frontAt f
  match F.drain with
  | none => s
  | some x =>
    let s := s.setFrontAt f { F with
      run := some x.run, drain := none, grant := x.grant, lanes := x.lanes, a := F.a.blank, e := x.hart, image := x.image }
    match F.run with
    | none => s
    | some r =>
      let C := s.coreAt (f / 2)
      let s := s.setCoreAt (f / 2) (releaseSwatches (releaseTiles C r.tiles) r.swatches)
      s.pushHead (regionKey r.ctx r.cr.region) { r.cr with weight := r.cweight, ran := true }

/-- The fronts whose queue drains and that hold a CR of a ticket. -/
def State.drainsOf (s : State) (t : Nat) : List Nat :=
  (s.fronts.filter (fun e =>
    e.2.drain.any (fun x => x.run.cr.ticket == t || e.2.run.any (fun r => r.cr.ticket == t)))).map (fun e => e.1)

/-- A front runs a CR of a ticket that can be stopped: no hart of it is in privileged mode (13 R245). -/
def stoppable (t : Nat) (e : Nat × Front) : Bool :=
  match e.2.run with
  | some r => r.cr.ticket == t && !e.2.a.priv && !e.2.e.priv
  | none => false

/-- Stop and discard the running CRs of a ticket; their weight goes to the pool (R237). -/
def State.stopRuns (s : State) (t : Nat) : List Nat → State
  | [] => s
  | f :: fs =>
    let r := (s.frontAt f).theRun
    State.stopRuns (((s.clearFront f).addPool t r.cweight).freeSave r.cr.save) t fs

/-- The fronts whose CRs of a ticket can be stopped. -/
def State.stoppables (s : State) (t : Nat) : List Nat := (s.fronts.filter (stoppable t)).map (fun e => e.1)

/-- Release the save areas of CRs. -/
def State.freeSaves (s : State) : List CR → State
  | [] => s
  | c :: cs => State.freeSaves (s.freeSave c.save) cs

/-- Remove the queued, parked, pre-empted and held CRs of a ticket from its region; their weight goes to the pool. -/
def State.dropQueued (s : State) (t : Nat) : State :=
  let T := s.ticketAt t
  let k := regionKey T.ctx T.region
  let R := s.regionAt k
  let mine := fun (c : CR) => c.ticket == t
  let out := (R.ready ++ R.parked ++ R.held).filter mine
  let s := s.setRegionAt k { R with
    ready := R.ready.filter (fun c => !mine c), parked := R.parked.filter (fun c => !mine c),
    held := R.held.filter (fun c => !mine c) }
  (s.addPool t (weightOf out)).freeSaves out

/-- End one live ticket without committing it: state, cause, first failing index. Its shadows and log are discarded, and the event is
there to be observed (R239). -/
def State.killTicket (s : State) (t : Nat) (st : TicketSt) (cause : BitVec 8) (first : BitVec 32) : State :=
  let T := s.ticketAt t
  if T.live then
    let s := s.setTicketAt t { T with
      st := st, cause := cause, first := first, shadow := [], written := [], pred := [], log := [], owing := true }
    let s := { s with order := s.order.tick (ticketKey t) }
    let s := (s.drainsOf t).foldl State.undrain s
    let s := s.dropQueued t
    s.stopRuns t (s.stoppables t)
  else s

/-- End the live CHAIN children of a ticket (R237, R240), with cause 0xFE. -/
def State.killChildren (s : State) (parent : Nat) (st : TicketSt) : List (Nat × Ticket) → State
  | [] => s
  | (n, T) :: ts =>
    let s :=
      if T.live ∧ T.chain = true ∧ T.parent = parent then
        { s with order := s.order.offer (ticketKey parent) (ticketKey n) }.killTicket n st 0xFE 0xFFFFFFFF#32
      else s
    State.killChildren s parent st ts

/-- Squash a ticket and its children, as one event (R237). -/
def State.squash (s : State) (t : Nat) (cause : BitVec 8) (first : BitVec 32) : State :=
  let s := s.killTicket t .squashed cause first
  s.killChildren t .squashed s.ticketList

/-- Abandon a ticket and its children, as one event (R240). -/
def State.abandon (s : State) (t : Nat) (cause : BitVec 8) : State :=
  let s := s.killTicket t .abandoned cause 0xFFFFFFFF#32
  s.killChildren t .abandoned s.ticketList

/-- CRs of a ticket that run, queue, park, are held or are pre-empted. -/
def State.ticketCrs (s : State) (t : Nat) : Nat :=
  let T := s.ticketAt t
  let R := s.regionAt (regionKey T.ctx T.region)
  (s.running.filter (fun r => r.2.cr.ticket == t)).length +
  ((R.ready ++ R.parked ++ R.held).filter (fun c => c.ticket == t)).length

/-- Push ready CRs that a region held, one after the other, as the images that SPECB read (R27). -/
def State.pushHeld (s : State) (k : Nat) : List CR → State
  | [] => s
  | c :: cs => State.pushHeld (s.pushReady k c (s.ticketAt c.ticket).bytes) k cs

/-- Push ready the held CRs of the CHAIN tickets whose parent has become DONE (R231). -/
def State.releaseHeld (s : State) (parent : Nat) : List (Nat × Ticket) → State
  | [] => s
  | (n, T) :: ts =>
    let s :=
      if T.live ∧ T.chain = true ∧ T.parent = parent then
        let k := regionKey T.ctx T.region
        let R := s.regionAt k
        (s.setRegionAt k { R with held := R.held.filter (fun c => c.ticket != n) }).pushHeld k
          (R.held.filter (fun c => c.ticket == n))
      else s
    State.releaseHeld s parent ts

/-- A ticket whose last CR has ended becomes DONE (R232). -/
def State.checkDone (s : State) (t : Nat) : State :=
  let T := s.ticketAt t
  if T.st = .opened ∧ s.ticketCrs t = 0 then
    let s := s.setTicketAt t { T with st := .done }
    s.releaseHeld t s.ticketList
  else s

/-! Failure under PROPAGATE (03 R51) -/

/-- Abandon the live tickets of a region, with cause 0xFD. -/
def State.abandonAll (s : State) (k : Nat) : List (Nat × Ticket) → State
  | [] => s
  | (n, T) :: ts =>
    let s := if T.live ∧ regionKey T.ctx T.region = k then s.abandon n 0xFD else s
    State.abandonAll s k ts

/-- Begin the failure of one region: withdraw its queued and parked CRs and abandon its tickets. -/
def State.beginFail (s : State) (k : Nat) : State :=
  let R := s.regionAt k
  if R.status ≠ 1 ∨ R.failing = true then s
  else
    let s := s.setRegionAt k { R with failing := true }
    let s := (s.withdraw k 0 0).2
    s.abandonAll k s.ticketList

/-- The ACTIVE descendants of a region, deepest first; `n` levels at most. -/
def State.descendants (s : State) : Nat → Nat → List Nat
  | 0, _ => []
  | n + 1, k => (s.childrenOf k).flatMap (fun e => State.descendants s n e.1 ++ [e.1])

/-- Begin the failure of a region: its ACTIVE descendants first, deepest first. -/
def State.failRegion (s : State) (k : Nat) : State :=
  ((s.descendants (s.regions.length) k) ++ [k]).foldl State.beginFail s

/-- A failing region has nothing left to wait for. -/
def State.failDue (s : State) (e : Nat × Region) : Bool :=
  e.2.failing && s.started e.1 == 0 && (s.childrenOf e.1).isEmpty &&
  s.ticketList.all (fun t => !(t.2.owing && regionKey t.2.ctx t.2.region == e.1))

/-- Apply one termination to a region under its own policy (R51): a count, or its failure. Region 0 has neither. -/
def State.terminateIn (s : State) (k : Nat) : State :=
  let R := s.regionAt k
  if R.status ≠ 1 then s
  else if R.propagate then s.failRegion k
  else (s.putRegion k { R with faults := R.faults + 1 }).checkComplete k

/-- Finish the failures that are due, and those that they bring about. -/
def State.settle : Nat → State → State
  | 0, s => s
  | n + 1, s =>
    match s.regions.find? s.failDue with
    | none => s
    | some (k, R) =>
      let s := s.closeRegion k 3
      let s :=
        if R.parent = 0 then s.post 0x81 (k / 65536) (k % 65536) (BitVec.ofNat 64 R.rcb) (R.faults.setWidth 64)
        else s.terminateIn (regionKey (k / 65536) R.parent)
      State.settle n s

/-- Finish every failure that is due. -/
def State.settled (s : State) : State := s.settle (s.regions.length + 1)

/-! The end of a CR -/

/-- The weight of a CR that has ended goes to its region, or to the pool of its ticket, and its save area is released. -/
def State.endRun (s : State) (r : Run) : State :=
  let k := regionKey r.ctx r.cr.region
  let s := s.freeSave r.cr.save
  if r.cr.ticket ≠ 0 then ((s.addPool r.cr.ticket r.cweight).checkDone r.cr.ticket).settled
  else ((s.giveWeight k r.cweight).checkComplete k).settled

/-- End the CR of front `f` (R342): its weight to its region, or to the pool of its ticket; what it holds is released. -/
def State.endCr (s : State) (f : Nat) : State := (s.clearFront f).endRun (s.frontAt f).theRun

/-- Terminate the CR of front `f` (R50, R51; 12 R238) with a cause. -/
def State.terminate (s : State) (f cause : Nat) : State :=
  let r := (s.frontAt f).theRun
  let k := regionKey r.ctx r.cr.region
  let s := (s.clearFront f).freeSave r.cr.save
  if r.cr.ticket ≠ 0 then
    ((s.addPool r.cr.ticket r.cweight).squash r.cr.ticket (BitVec.ofNat 8 cause) 0xFFFFFFFF#32).settled
  else
    let R := s.regionAt k
    let s := s.putRegion k { R with returned := R.returned + r.cweight, faults := if R.propagate then R.faults else R.faults + 1 }
    if R.propagate then (s.failRegion k).settled else (s.checkComplete k).settled

end Sys2Proof.Machine
end

