-- ==== Sys2Proof/Machine/Ops.lean ====
section
/-! DEFINITION. The named operations over registers and the program counter, taking a trap and returning from one
(13 R244-R250), and how an instruction is run: plain, or irrevocable (04 R76). -/

namespace Sys2Proof.Machine

/-! Registers (04 R52, R68, R69; 15 R297) -/

/-- x0 reads 0. -/
def Regs.getX (r : Regs) (k : Reg) : Word := if k = 0 then 0 else r.x.get 0 k.toNat

/-- The class halves of lastd after a write of an x register (R297). -/
def Regs.lastX (r : Regs) (k : Reg) : Regs :=
  { r with lastd := r.lastd.extractLsb' 8 8 ++ 1#1 ++ r.lastd.extractLsb' 5 2 ++ k }

/-- The class halves of lastd after a write of a vector group. -/
def Regs.lastV (r : Regs) (k : Reg) : Regs :=
  { r with lastd := 1#1 ++ r.lastd.extractLsb' 13 2 ++ k ++ r.lastd.extractLsb' 0 8 }

/-- Write an x register: a write of x0 is discarded, and either way lastd is updated (R321). -/
def Regs.setX (r : Regs) (k : Reg) (v : Word) : Regs :=
  (if k = 0 then r else { r with x := r.x.set 0 k.toNat v }).lastX k

/-- x register `k` is empty. -/
def Regs.emptyX (r : Regs) (k : Reg) : Bool := r.xEmpty.getLsbD k.toNat

/-- v register `k` is empty. -/
def Regs.emptyV (r : Regs) (k : Nat) : Bool := r.vEmpty.getLsbD k

/-- A bit of a 32-bit set, set or cleared. -/
def setBit (b : BitVec 32) (k : Nat) (on : Bool) : BitVec 32 :=
  if on then b ||| (1#32 <<< k) else b &&& ~~~(1#32 <<< k)

/-- Change the current hart's registers. -/
def updateRegs (f : Regs → Regs) : M Unit := update (fun s => s.setRegs (f s.regs))

/-- v28-v31 of the execute hart name queues (04 R52, R64). -/
def State.isQueue (s : State) (k : Nat) : Bool := s.isExec && 28 ≤ k

/-- A source: an x register or a group of `n` v registers, with its empty policy (R285). -/
inductive Src where
  | x (policy : Bool) (k : Reg)
  | v (policy : Bool) (k : Reg) (n : Nat)
  deriving DecidableEq, Repr

/-- The strip has popped the 16 entries that it may pop from a load queue (04 R74). -/
def Hart.popsSpent (h : Hart) (q : Nat) : Bool := 16 ≤ (h.popped.filter (fun p => p.1 == q)).length

/-- Whether a source is empty (R68): a group is while any of its registers is, a queue while it has no head. Where the strip has
spent its pops, the pop traps whatever the queue holds (R74; log entry 63). -/
def Src.empty (s : State) : Src → Bool
  | .x _ k => s.regs.emptyX k
  | .v _ k n =>
    if s.isQueue k.toNat then !s.hart.popsSpent (k.toNat - 28) && (s.front.lq.get [] (k.toNat - 28)).isEmpty
    else (List.range n).any (fun i => s.regs.emptyV (k.toNat + i))

def Src.policy : Src → Bool
  | .x p _ => p
  | .v p _ _ => p

/-- Register and class as EMPTYSRC reports them (R68). -/
def Src.number : Src → Nat
  | .x _ k => k.toNat
  | .v _ k _ => 32 + k.toNat

/-- What an empty source makes the hart wait for. -/
def Src.wait (s : State) : Src → Wait
  | .x _ _ => .register
  | .v _ k _ => if s.isQueue k.toNat then .head (k.toNat - 28) else .register

/-- Sources are full, or EMPTYSRC for the first that traps, or a wait (R68, R282). -/
def sources (l : List Src) : M Unit := fun s =>
  match l.find? (fun x => x.policy && x.empty s) with
  | some x => .error (.trap Cause.emptysrc x.number)
  | none =>
    match l.find? (fun x => x.empty s) with
    | some x => .error (.wait (x.wait s))
    | none => .ok ((), s)

/-- The value of an x register. -/
def getX (k : Reg) : M Word := look (fun s => s.regs.getX k)

/-- Write an x register; a write to an empty register waits for its fill (R69). -/
def putX (k : Reg) (v : Word) : M Unit := fun s =>
  if s.regs.emptyX k then .error (.wait .register) else .ok ((), s.setRegs (s.regs.setX k v))

/-- Write the x register of a producer of R68: at once, or, in a turn that loads late, empty now and filled later. -/
def fillX (k : Reg) (v : Word) : M Unit := fun s =>
  if s.regs.emptyX k then .error (.wait .register)
  else if s.late ∧ k ≠ 0 ∧ s.priv = false then
    let h := s.hart
    .ok ((), s.setHart { h with
      regs := { h.regs with xEmpty := setBit h.regs.xEmpty k.toNat true }.lastX k
      fills := h.fills ++ [{ vec := false, reg := k.toNat, val := v.toNat }] })
  else .ok ((), s.setRegs (s.regs.setX k v))

/-- Land a fill in a set of registers. -/
def Regs.land (r : Regs) (f : Fill) : Regs :=
  if f.vec then
    { r with v := r.v.set 0 f.reg (BitVec.ofNat 16384 f.val), vEmpty := setBit r.vEmpty f.reg false }
  else { r with x := r.x.set 0 f.reg (BitVec.ofNat 64 f.val), xEmpty := setBit r.xEmpty f.reg false }

/-- The oldest pending fill of the current hart lands (R68); one of a committed strip lands in the checkpoint too. -/
def landFill (s : State) : State :=
  let h := s.hart
  match h.fills with
  | [] => s
  | f :: fs =>
    s.setHart { h with
      regs := h.regs.land f, ckpt := if f.old then h.ckpt.land f else h.ckpt, fills := fs
      wait := if h.wait = .register then .none else h.wait }

/-! The program counter -/

/-- The hart goes on at an address and waits for nothing. -/
def State.goTo (s : State) (pc : Word) : State :=
  let h := s.hart
  s.setHart { h with regs := { h.regs with pc := pc }, wait := .none, waitInstr := none }

/-- After the last captured instruction of a VLOOP's iteration comes the VLOOP (04 R78). -/
def Regs.follow (r : Regs) (pc : Word) : Word :=
  match r.loop with
  | some p => if pc = p + 4 + BitVec.ofNat 64 (4 * (r.loopi.extractLsb' 48 5).toNat) then p else pc
  | none => pc

/-- Pass an instruction of `n` bytes. -/
def State.advance (s : State) (n : Nat) : State := s.goTo (s.regs.follow (s.regs.pc + BitVec.ofNat 64 n))

/-- The hart is inside an iteration of a VLOOP. -/
def Regs.midLoop (r : Regs) : Bool := r.loop.isSome && r.loop != some r.pc

/-! Traps (13 R244-R250) -/

/-- The address of the current hart's fault record (R249). -/
def State.recordAddr (s : State) : Nat :=
  ((s.ctxAt s.ctx).frec.extractLsb' 16 26).toNat * 65536 + 128 * s.agent

/-- The 128 bytes of a fault record (R249). -/
def faultRecord (s : State) (pc : Word) (cause val flags ecomp eseq : Nat) : List Byte :=
  let r := s.run
  toBytes 8 pc.toNat ++ toBytes 8 val ++ toBytes 1 cause ++ toBytes 1 s.role ++ toBytes 1 r.cr.ticket ++ toBytes 1 flags ++
  toBytes 4 r.spawns ++ toBytes 4 r.joins ++ toBytes 4 r.gather ++ toBytes 8 ecomp ++ toBytes 8 eseq ++
  toBytes 8 r.wmaddr.toNat ++ toBytes 8 r.wmval.toNat ++
  CR.bytes { r.cr with weight := r.cweight, save := 0 }

/-- The strip is rolled back, the trap registers are written, and the hart is in privileged mode (R244, R245). -/
def trapRegs (s : State) (cause val : Nat) (pc : Word) (async : Bool) : State :=
  let s0 := if s.priv then s else rollback s
  let h := s0.hart
  s0.setHart { h with
    tcause := BitVec.ofNat 8 cause, tval := BitVec.ofNat 64 val, tpc := pc &&& ~~~1#64, tasync := async,
    trole := BitVec.ofNat 2 s0.role, priv := true
    kvSaved := if s.priv then h.kvSaved else h.kvblk, wait := .none, waitInstr := none }

/-- A double trap (R249): the host is told and the CR is terminated. -/
def doubleTrap (s : State) (cause : Nat) : State :=
  (s.post 0x82 s.ctx s.run.cr.region (BitVec.ofNat 64 s.recordAddr) (BitVec.ofNat 64 cause)).terminate s.fid cause

/-- The hart goes on at its handler (R244); an access hart's DEADLOCK stops the execute hart (04 R67). -/
def goToHandler (s : State) (cause : Nat) : State :=
  let s := s.goTo ((s.ctxAt s.ctx).tvec &&& ~~~3#64)
  if cause = Cause.deadlock then s.setFront { s.front with e := { s.front.e with stopped := true } } else s

/-- TakeTrap (R244, R245): the strip is rolled back, the trap registers and the fault record are written, and the hart
goes on at the handler in privileged mode. A trap in privileged mode, with tvec 0, or whose record cannot be written is
a double trap: the CR is terminated and the host is told. A CR that runs ahead takes its traps once the queue of the CR before it
has drained (04 R81; log entry 51). -/
def takeTrapWith (s : State) (cause val : Nat) (pc : Word) (async : Bool) (ecomp eseq : Nat) : State :=
  if s.front.drain.isSome then s
  else
  let s1 := trapRegs s cause val pc async
  let double : Bool := s.priv || (s1.ctxAt s1.ctx).tvec.extractLsb' 2 62 == 0
  let flags := (if async then 1 else 0) + (if double then 6 else 0)
  match windowPieces s1 s1.ctx .write s1.recordAddr 128 with
  | .error _ => doubleTrap s1 cause
  | .ok ps =>
    let s2 := s1.forcePieces s1.ctx s1.agent 8 ps (faultRecord s1 pc cause val flags ecomp eseq)
    if double then doubleTrap s2 cause else goToHandler s2 cause

/-- TakeTrap for a trap that names no engine command. -/
def takeTrap (s : State) (cause val : Nat) (pc : Word) (async : Bool) : State := takeTrapWith s cause val pc async 0 0

/-- The commands of a slot whose ENGINE trap has been delivered may be tried again (09 R183). -/
def Cmd.returned (sl : Slot) (c : Cmd) : Cmd :=
  if c.slot = sl then
    { c with
      phase := if c.phase = .delivered then .retry else c.phase
      skipTrap := if c.skipTrap = .delivered then .retry else c.skipTrap }
  else c

/-- RETT (R246, R374): the checkpoint is restored, PRIV is cleared, and the hart goes on at the checkpoint's
instruction; a stopped execute hart is released (04 R67). -/
def returnFromTrap (s : State) : State :=
  let s := rollback s
  let h := s.hart
  let s := s.setHart { h with priv := false, kvblk := h.kvSaved }
  let F := s.front
  let F := { F with chain := F.chain.map (fun e => (e.1, e.2.map (Cmd.returned s.slot))) }
  s.setFront (if s.isAccess then { F with e := { F.e with stopped := false } } else F)

/-! Running an instruction -/

/-- Record that the current hart waits, with what and since when. -/
def State.waiting (s : State) (i : Instr) (w : Wait) : State :=
  let h := s.hart
  s.setHart { h with
    wait := w, waitInstr := some i
    waitFrom := if h.wait = w ∧ h.waitInstr = some i then h.waitFrom else s.cycle }

/-- What a stop makes of a state: a trap is taken, a wait recorded, a strip run again. -/
def halt (i : Instr) (s : State) : Stop → State
  | .trap c v => takeTrap s c v s.regs.pc false
  | .trapAt c v pc => takeTrap s c v pc false
  | .wait w => s.waiting i w
  | .rerun => rerunStrip s

/-- The outcome of an instruction's work on a state. -/
def outcome (i : Instr) (s : State) (r : Except Stop (Unit × State)) : Host.Outcome State Fault Refusal :=
  match r with
  | .ok (_, s') => .next s'
  | .error e => .next (halt i s e)

/-- Run an instruction that passes to the next one. -/
def plain (i : Instr) (body : M Unit) (s : State) : Host.Outcome State Fault Refusal :=
  match body s with
  | .ok (_, s') => .next (s'.advance i.size)
  | .error e => .next (halt i s e)

/-- Run an instruction that names its successor. -/
def jumping (i : Instr) (body : M Word) (s : State) : Host.Outcome State Fault Refusal :=
  match body s with
  | .ok (pc, s') => .next (s'.goTo pc)
  | .error e => .next (halt i s e)

/-- Run an irrevocable instruction (04 R76): `early` are the traps of its encoding (R282, steps 1 and 2); then the strip
so far commits, the checkpoint is taken at the instruction, the body runs, and a fresh strip begins after it. -/
def irrevocable (i : Instr) (early body : M Unit) (s : State) : Host.Outcome State Fault Refusal :=
  match early s with
  | .error e => .next (halt i s e)
  | .ok (_, s) =>
    match commitStrip s with
    | .error e => .next (halt i s e)
    | .ok s1 =>
      let s1 := checkpoint s1
      match body s1 with
      | .error e => .next (halt i s1 e)
      | .ok (_, s2) =>
        match commitStrip (s2.advance i.size) with
        | .error e => .next (halt i s1 e)
        | .ok s3 => .next (checkpoint s3)

/-- Traps ILLEGAL with the instruction's bits (15 R282). -/
def illegal {α : Type} (i : Instr) : M α := trap Cause.illegal i.bits.toNat

/-- ILLEGAL where a condition holds. -/
def illegalIf (i : Instr) (b : Bool) : M Unit := if b then illegal i else pure ()

/-- Barred in the execute hart (04 R62, 03 R32). -/
def notExec (i : Instr) : M Unit := do
  let s ← look id
  illegalIf i s.isExec

/-- Privileged (15 R282, 14 R279). -/
def privileged (i : Instr) : M Unit := do
  let s ← look id
  trapIf (!s.priv) Cause.priv i.bits.toNat

/-- Traps SPECST under a ticket, with a value for `tval` (12 R234). -/
def noTicket (val : Nat) : M Unit := do
  let s ← look id
  trapIf (s.ticket != 0) Cause.specst val

/-- A store-queue store of the access hart is still to be performed before what follows it in program order. While DEADLOCK holds the
execute hart stopped, its handler waits for the stores whose data has come, up to the first that still needs data of that hart (R67;
log entry 61). -/
def storesFirst (s : State) : Bool := queueAhead s && (!(s.priv && s.front.e.stopped) || s.front.pairFirst)

/-- An operation of the access hart that follows every earlier access waits for the store-queue stores before it (03 R31;
04 R65, R76; 07 R128). -/
def afterQueues : M Unit := do
  let s ← look id
  waitIf (storesFirst s) .room

end Sys2Proof.Machine
end

