-- ==== Sys2Proof/Machine/Operands.lean ====
section
/-! DEFINITION. Operand forms of the scalar instructions (15 R284-R287, R300), and the shapes that share them. -/

namespace Sys2Proof.Machine

/-- Sign extension of an immediate or of a memory value to 64 bits (R286). -/
def sext {w : Nat} (v : BitVec w) : Word := v.signExtend 64

/-- SEW's code, in bits, FMT, and the registers of a group, by vtype (R54). -/
def Regs.sewCode (r : Regs) : Nat := (r.vtype.extractLsb' 0 3).toNat
def Regs.sew (r : Regs) : Nat := sewBits r.sewCode
def Regs.fmt (r : Regs) : Nat := (r.vtype.extractLsb' 3 2).toNat
def Regs.grp (r : Regs) : Nat := 2 ^ (r.vtype.extractLsb' 5 2).toNat
/-- Tail and mask policies: 1 writes 0. -/
def Regs.tp (r : Regs) : Bool := r.vtype.getLsbD 7
def Regs.mp (r : Regs) : Bool := r.vtype.getLsbD 8

/-- VLMAX with g lanes (R56). -/
def vlmaxOf (g grp sew : Nat) : Nat := g * 256 * grp / sew

/-- VLMAX of the current hart. -/
def State.vlmax (s : State) : Nat := vlmaxOf s.front.grant s.regs.grp s.regs.sew

/-- Two x sources with their policies, one x destination (XR). -/
def alu2 (i : Instr) (p q : Bool) (b a d : Reg) (f : Word → Word → Word) : State → Host.Outcome State Fault Refusal :=
  plain i do
    sources [.x p a, .x q b]
    let u ← getX a
    let v ← getX b
    putX d (f u v)

/-- One x source with its policy (XR with B = 0). -/
def alu1 (i : Instr) (p : Bool) (a d : Reg) (f : Word → Word) : State → Host.Outcome State Fault Refusal :=
  plain i do
    sources [.x p a]
    let u ← getX a
    putX d (f u)

/-- One x source that waits, and an immediate (XI). -/
def aluImm (i : Instr) (a d : Reg) (f : Word → Word) : State → Host.Outcome State Fault Refusal := alu1 i false a d f

/-- The register that a compressed form of the x class reads as LAST (R300). -/
def lastX (r : Regs) : Option Reg := if r.lastd.getLsbD 7 then some (r.lastd.extractLsb' 0 5) else none

/-- The register that a compressed vector form reads as LAST. -/
def lastV (r : Regs) : Option Reg := if r.lastd.getLsbD 15 then some (r.lastd.extractLsb' 8 5) else none

/-- LAST of a class, or NOLAST (R300). -/
def needLast (i : Instr) (f : Regs → Option Reg) : M Reg := do
  let s ← look id
  match f s.regs with
  | some k => pure k
  | none => trap Cause.nolast i.bits.toNat

/-- An instruction that works on LAST and a second x register (R301). -/
def compressed2 (i : Instr) (b d : Reg) (f : Word → Word → Word) : State → Host.Outcome State Fault Refusal :=
  plain i do
    let a ← needLast i lastX
    sources [.x false a, .x false b]
    let u ← getX a
    let v ← getX b
    putX d (f u v)

/-- An instruction that works on LAST and an immediate (R301). -/
def compressed1 (i : Instr) (d : Reg) (f : Word → Word) : State → Host.Outcome State Fault Refusal :=
  plain i do
    let a ← needLast i lastX
    sources [.x false a]
    let u ← getX a
    putX d (f u)

/-! Run tags (06 R105) -/

/-- The fields of a run tag (06 R105). -/
def tagLen (t : Word) : Nat := (t.extractLsb' 0 16).toNat
def tagRegs (t : Word) : Nat := 2 ^ (t.extractLsb' 16 2).toNat
def tagWidth (t : Word) : Nat := 8 * 2 ^ (t.extractLsb' 26 2).toNat

/-- A tag with S = 0. -/
def unsorted (t : Word) : Word := t &&& ~~~(1#64 <<< 31)

/-- Write the tag of a group of `g` registers: the others of the group read S = 0, and so does a run whose group holds one of its
registers (R105). -/
def setTag (t : Table Word) (d g : Nat) (tag : Word) : Table Word :=
  Table.set 0 ((t.map (fun e => if e.1 < d + g ∧ d < e.1 + tagRegs e.2 then (e.1, unsorted e.2) else e)).filter
    (fun e => e.2 != 0)) d tag

end Sys2Proof.Machine
end

