-- ==== Sys2Proof/Machine/Atomic.lean ====
section
/-! DEFINITION. AMO and CAS (08 R155, R156; 17 R327, R328, R334), and what WMPUB and JOIN share with them: the single
read-modify-write at a home slice and the effect log of a ticket (12 R234). -/

namespace Sys2Proof.Machine

/-- AmoOp's new value at `w` bits (R155). -/
def amoNew {w : Nat} (f : Nat) (old v : BitVec w) : BitVec w :=
  match f with
  | 0 => old + v
  | 1 => old &&& v
  | 2 => old ||| v
  | 3 => old ^^^ v
  | 4 => v
  | 5 => if v.slt old then v else old
  | 6 => if old.slt v then v else old
  | 7 => if v.ult old then v else old
  | _ => if old.ult v then v else old

/-- The new word of `n` bytes. -/
def amoWord (f n old v : Nat) : Nat :=
  if n = 4 then (amoNew f (BitVec.ofNat 32 old) (BitVec.ofNat 32 v)).toNat
  else (amoNew f (BitVec.ofNat 64 old) (BitVec.ofNat 64 v)).toNat

/-- Sign extension of a word of `n` bytes. -/
def extendWord (n v : Nat) : Word := if n = 4 then sext (BitVec.ofNat 32 v) else BitVec.ofNat 64 v

/-- The current hart's read-modify-write at address `va`. -/
def modify (va n : Nat) (sync : Bool) (ps : List Piece) (f : Nat → Option Nat) : M Nat := fun s =>
  match ps with
  | [] => .ok (0, s)
  | p :: _ =>
    match s.modifyWord s.ctx s.agent n p.key sync f with
    | .error c => .error (.trap c va)
    | .ok r => .ok r

/-- Append an effect to the log of the CR's ticket; a 17th traps SPECST with `tval` 0 (R234). -/
def logEffect (e : Effect) : M Unit := fun s =>
  let T := s.ticketAt s.ticket
  if 16 ≤ T.log.length then .error (.trap Cause.specst 0)
  else .ok ((), s.setTicketAt s.ticket { T with log := T.log ++ [e] })

/-- Bytes of an AMO or CAS: `.d` when set. -/
def amoSize (sz : Bool) : Nat := if sz then 8 else 4

/-- R327, R328. -/
def execAmo (p q sz : Bool) (f b a d : Reg) (s : State) :=
  irrevocable (.amo p q sz f b a d)
    (do
      illegalIf (.amo p q sz f b a d) (8 < f.toNat)
      notExec (.amo p q sz f b a d))
    (do
      sources [.x p a, .x q b]
      afterQueues
      let u ← getX a
      let v ← getX b
      let n := amoSize sz
      let ps ← scalarPieces .both u.toNat n
      let t ← look id
      if t.ticket ≠ 0 then
        logEffect (.amo f.toNat u.toNat n v t.priv)
        fillX d 0
      else
        let old ← modify u.toNat n true ps (fun old => some (amoWord f.toNat n old v.toNat))
        fillX d (extendWord n old)) s

/-- R334: D is a source that waits; a failing compare writes nothing and still synchronises. -/
def execCas (p q sz : Bool) (b a d : Reg) (s : State) :=
  irrevocable (.cas p q sz b a d) (notExec (.cas p q sz b a d))
    (do
      sources [.x p a, .x q b, .x false d]
      afterQueues
      let u ← getX a
      let v ← getX b
      let e ← getX d
      noTicket u.toNat
      let n := amoSize sz
      let ps ← scalarPieces .both u.toNat n
      let old ← modify u.toNat n true ps
        (fun old => if old = e.toNat % 2 ^ (8 * n) then some (v.toNat % 2 ^ (8 * n)) else none)
      fillX d (extendWord n old)) s

end Sys2Proof.Machine
end

