-- ==== Sys2Proof/Machine/Branch.lean ====
section
/-! DEFINITION. Branches and jumps (R331, R332, R358). -/

namespace Sys2Proof.Machine

/-- A branch: both sources wait, and the offset counts halfwords from the branch (R286). -/
def branch (i : Instr) (o : BitVec 14) (b a : Reg) (cond : Word → Word → Bool) : State → Host.Outcome State Fault Refusal :=
  jumping i do
    sources [.x false a, .x false b]
    let u ← getX a
    let v ← getX b
    let s ← look id
    pure (if cond u v then s.regs.pc + (sext o <<< 1) else s.regs.pc + 4)

def execBeq (o : BitVec 14) (b a : Reg) (s : State) := branch (.beq o b a) o b a (fun u v => u == v) s
def execBne (o : BitVec 14) (b a : Reg) (s : State) := branch (.bne o b a) o b a (fun u v => u != v) s
def execBlt (o : BitVec 14) (b a : Reg) (s : State) := branch (.blt o b a) o b a (fun u v => u.slt v) s
def execBge (o : BitVec 14) (b a : Reg) (s : State) := branch (.bge o b a) o b a (fun u v => !u.slt v) s
def execBltw (o : BitVec 14) (b a : Reg) (s : State) := branch (.bltw o b a) o b a (fun u v => u.ult v) s
def execBgew (o : BitVec 14) (b a : Reg) (s : State) := branch (.bgew o b a) o b a (fun u v => !u.ult v) s

/-- R358: the link is the address after the JAL. -/
def execJal (i : BitVec 19) (d : Reg) (s : State) :=
  jumping (.jal i d) (do
    let t ← look id
    putX d (t.regs.pc + 4)
    pure (t.regs.pc + (sext i <<< 1))) s

/-- R358: the target is read before the link is written. -/
def execJalr (i : BitVec 14) (a d : Reg) (s : State) :=
  jumping (.jalr i a d) (do
    sources [.x false a]
    let u ← getX a
    let t ← look id
    putX d (t.regs.pc + 4)
    pure ((u + sext i) &&& ~~~1#64)) s

end Sys2Proof.Machine
end

