-- ==== Sys2Proof/Machine/Scalar.lean ====
section
/-! DEFINITION. The INT and MULDIV groups, the immediates, and the scalar loads and stores (17, 18, 19 reference entries;
15 R286, R287). -/

namespace Sys2Proof.Machine

/-! Values -/

/-- One when a condition holds (R382). -/
def ofCond (b : Bool) : Word := if b then 1 else 0

def signedMin (u v : Word) : Word := if v.slt u then v else u
def signedMax (u v : Word) : Word := if u.slt v then v else u
def unsignedMin (u v : Word) : Word := if v.ult u then v else u
def unsignedMax (u v : Word) : Word := if u.ult v then v else u

/-- Consecutive 0 bits counted from bit `n - 1` downwards. -/
def leadingZeros (x : Word) : Nat → Nat
  | 0 => 0
  | n + 1 => if x.getLsbD n then 0 else 1 + leadingZeros x n

/-- Consecutive 0 bits counted from bit `k` upwards, `n` bits at most. -/
def trailingZeros (x : Word) (k : Nat) : Nat → Nat
  | 0 => 0
  | n + 1 => if x.getLsbD k then 0 else 1 + trailingZeros x (k + 1) n

/-- Bits that are 1 among the low `n`. -/
def popCount (x : Word) : Nat → Nat
  | 0 => 0
  | n + 1 => (if x.getLsbD n then 1 else 0) + popCount x n

/-- The high half of a signed or unsigned product (R367). -/
def mulHigh (signed : Bool) (u v : Word) : Word :=
  if signed then BitVec.ofInt 64 ((u.toInt * v.toInt) / 2 ^ 64) else BitVec.ofNat 64 (u.toNat * v.toNat / 2 ^ 64)

/-- Integer division and remainder at a width (R103, R337, R373): quotient, remainder, OV and DZ of vsflags. -/
def divide {w : Nat} (signed : Bool) (u v : BitVec w) : BitVec w × BitVec w × BitVec 3 :=
  if v = 0 then (BitVec.allOnes w, u, 1)
  else if signed then
    if u = BitVec.intMin w ∧ v = BitVec.allOnes w then (BitVec.intMin w, 0, 2) else (u.sdiv v, u.srem v, 0)
  else (u.udiv v, u.umod v, 0)

/-- MULDIV's divisions: the quotient or the remainder, with its event in vsflags (R104). -/
def division (i : Instr) (p q : Bool) (b a d : Reg) (signed rem : Bool) : State → Host.Outcome State Fault Refusal :=
  plain i do
    sources [.x p a, .x q b]
    let u ← getX a
    let v ← getX b
    let r := divide signed u v
    putX d (if rem then r.2.1 else r.1)
    updateRegs (fun g => { g with vsflags := g.vsflags ||| r.2.2 })

/-! INT -/

/-- R326. -/
def execAdd (p q : Bool) (b a d : Reg) (s : State) := alu2 (.add p q b a d) p q b a d (fun u v => u + v) s
/-- R391. -/
def execSub (p q : Bool) (b a d : Reg) (s : State) := alu2 (.sub p q b a d) p q b a d (fun u v => u - v) s
/-- R329. -/
def execAnd (p q : Bool) (b a d : Reg) (s : State) := alu2 (.and p q b a d) p q b a d (fun u v => u &&& v) s
/-- R369. -/
def execOr (p q : Bool) (b a d : Reg) (s : State) := alu2 (.or p q b a d) p q b a d (fun u v => u ||| v) s
/-- R468. -/
def execXor (p q : Bool) (b a d : Reg) (s : State) := alu2 (.xor p q b a d) p q b a d (fun u v => u ^^^ v) s
/-- R381: the amount is the low 6 bits. -/
def execShl (p q : Bool) (b a d : Reg) (s : State) := alu2 (.shl p q b a d) p q b a d (fun u v => u <<< (v.toNat % 64)) s
/-- R381. -/
def execShr (p q : Bool) (b a d : Reg) (s : State) := alu2 (.shr p q b a d) p q b a d (fun u v => u >>> (v.toNat % 64)) s
/-- R381. -/
def execSha (p q : Bool) (b a d : Reg) (s : State) := alu2 (.sha p q b a d) p q b a d (fun u v => u.sshiftRight (v.toNat % 64)) s
/-- R382. -/
def execSlt (p q : Bool) (b a d : Reg) (s : State) := alu2 (.slt p q b a d) p q b a d (fun u v => ofCond (u.slt v)) s
/-- R382. -/
def execSltw (p q : Bool) (b a d : Reg) (s : State) := alu2 (.sltw p q b a d) p q b a d (fun u v => ofCond (u.ult v)) s
/-- R362. -/
def execMin (p q : Bool) (b a d : Reg) (s : State) := alu2 (.min p q b a d) p q b a d signedMin s
/-- R362. -/
def execMax (p q : Bool) (b a d : Reg) (s : State) := alu2 (.max p q b a d) p q b a d signedMax s
/-- R362. -/
def execMinw (p q : Bool) (b a d : Reg) (s : State) := alu2 (.minw p q b a d) p q b a d unsignedMin s
/-- R362. -/
def execMaxw (p q : Bool) (b a d : Reg) (s : State) := alu2 (.maxw p q b a d) p q b a d unsignedMax s
/-- R375. -/
def execScadd (p q : Bool) (sz : BitVec 2) (b a d : Reg) (s : State) :=
  alu2 (.scadd p q sz b a d) p q b a d (fun u v => (u <<< sz.toNat) + v) s
/-- R336. -/
def execClz (p : Bool) (a d : Reg) (s : State) := alu1 (.clz p a d) p a d (fun u => BitVec.ofNat 64 (leadingZeros u 64)) s
/-- R336. -/
def execCtz (p : Bool) (a d : Reg) (s : State) := alu1 (.ctz p a d) p a d (fun u => BitVec.ofNat 64 (trailingZeros u 0 64)) s
/-- R371. -/
def execPopc (p : Bool) (a d : Reg) (s : State) := alu1 (.popc p a d) p a d (fun u => BitVec.ofNat 64 (popCount u 64)) s

/-! MULDIV -/

/-- R367. -/
def execMul (p q : Bool) (b a d : Reg) (s : State) := alu2 (.mul p q b a d) p q b a d (fun u v => u * v) s
/-- R367. -/
def execMulh (p q : Bool) (b a d : Reg) (s : State) := alu2 (.mulh p q b a d) p q b a d (mulHigh true) s
/-- R367. -/
def execMulhw (p q : Bool) (b a d : Reg) (s : State) := alu2 (.mulhw p q b a d) p q b a d (mulHigh false) s
/-- R337. -/
def execDiv (p q : Bool) (b a d : Reg) (s : State) := division (.div p q b a d) p q b a d true false s
/-- R337. -/
def execDivw (p q : Bool) (b a d : Reg) (s : State) := division (.divw p q b a d) p q b a d false false s
/-- R373. -/
def execRem (p q : Bool) (b a d : Reg) (s : State) := division (.rem p q b a d) p q b a d true true s
/-- R373. -/
def execRemw (p q : Bool) (b a d : Reg) (s : State) := division (.remw p q b a d) p q b a d false true s

/-! Immediates -/

/-- R326. -/
def execAddi (i : BitVec 14) (a d : Reg) (s : State) := aluImm (.addi i a d) a d (fun u => u + sext i) s
/-- R329. -/
def execAndi (i : BitVec 14) (a d : Reg) (s : State) := aluImm (.andi i a d) a d (fun u => u &&& sext i) s
/-- R369. -/
def execOri (i : BitVec 14) (a d : Reg) (s : State) := aluImm (.ori i a d) a d (fun u => u ||| sext i) s
/-- R468. -/
def execXori (i : BitVec 14) (a d : Reg) (s : State) := aluImm (.xori i a d) a d (fun u => u ^^^ sext i) s
/-- R381. -/
def execShli (sz : BitVec 6) (a d : Reg) (s : State) := aluImm (.shli sz a d) a d (fun u => u <<< sz.toNat) s
/-- R381. -/
def execShri (sz : BitVec 6) (a d : Reg) (s : State) := aluImm (.shri sz a d) a d (fun u => u >>> sz.toNat) s
/-- R381. -/
def execShai (sz : BitVec 6) (a d : Reg) (s : State) := aluImm (.shai sz a d) a d (fun u => u.sshiftRight sz.toNat) s
/-- R382. -/
def execSlti (i : BitVec 14) (a d : Reg) (s : State) := aluImm (.slti i a d) a d (fun u => ofCond (u.slt (sext i))) s
/-- R405. -/
def execUpi (i : BitVec 19) (d : Reg) (s : State) := plain (.upi i d) (putX d (sext i <<< 14)) s
/-- R330. -/
def execAupc (i : BitVec 19) (d : Reg) (s : State) :=
  plain (.aupc i d) (do
    let t ← look id
    putX d (t.regs.pc + (sext i <<< 14))) s

/-! Loads and stores -/

/-- A load of `n` bytes overlaps an address entry: in address, or because its address names bytes that the entry's do too. -/
def overlapsEntry (s : State) (loc : Bool) (va n : Nat) (e : AEntry) : Bool :=
  e.loc == loc && e.vl != 0 &&
  ((e.range.1 < va + n && va < e.range.2) ||
    (!loc &&
      match windowPieces s s.ctx .write e.range.1 (e.range.2 - e.range.1) with
      | .ok ps =>
        (List.range n).any (fun j =>
          match scalarByte s s.fid s.ctx .read s.priv (va + j) with
          | .ok k => ps.any (fun p => p.key ≤ k && k < p.key + p.len)
          | .error _ => false)
      | .error _ => false))

/-- A load overlaps an address entry whose data has not arrived (04 R67). -/
def State.loadHazard (s : State) (loc : Bool) (va n : Nat) : Bool :=
  s.isAccess && s.front.pendingStores.any (fun e => e.2.isNone && overlapsEntry s loc va n e.1)

/-- The execute hart is stalled on the head of an empty load queue. -/
def Front.headStalled (F : Front) : Bool :=
  match F.e.wait with
  | .head q => (F.lq.get [] q).isEmpty
  | _ => false

/-- An access-hart load that overlaps a store-queue entry waits until its data arrives, or traps DEADLOCK (04 R67). `tval` is the
address of the load, and of a vector load that of its first element that overlaps (DESIGN CHOICE, log entry 55). -/
def queueHazard (loc : Bool) (va n : Nat) : M Unit := do
  let s ← look id
  let h := s.loadHazard loc va n
  trapIf (h && s.front.headStalled) Cause.deadlock va
  waitIf h (.load va)

/-- A load's bytes extended to 64 bits (R287): sizes b, h, w, d, bz, hz, wz. -/
def extendLoad (sz : BitVec 3) (v : Nat) : Word :=
  match sz.toNat with
  | 0 => sext (BitVec.ofNat 8 v)
  | 1 => sext (BitVec.ofNat 16 v)
  | 2 => sext (BitVec.ofNat 32 v)
  | _ => BitVec.ofNat 64 v

/-- LD's work (R361), once its base register is known. -/
def loadWork (i : Instr) (sz : BitVec 3) (a d : Reg) (off : Word) : M Unit := do
  notExec i
  sources [.x false a]
  let u ← getX a
  let va := (u + off).toNat
  let n := 2 ^ (sz.extractLsb' 0 2).toNat
  let ps ← scalarPieces .read va n
  queueHazard false va n
  let bs ← loadPieces va n ps
  fillX d (extendLoad sz (ofBytes bs))

/-- ST's work (R390). -/
def storeWork (i : Instr) (sz : BitVec 2) (a d : Reg) (off : Word) : M Unit := do
  notExec i
  sources [.x false a, .x false d]
  let u ← getX a
  let v ← getX d
  storeScalar (u + off).toNat (2 ^ sz.toNat) v.toNat

/-- R361. The evict-first hint changes timing only (07 R141). -/
def execLd (i : BitVec 10) (e : Bool) (sz : BitVec 3) (a d : Reg) (s : State) :=
  plain (.ld i e sz a d) (loadWork (.ld i e sz a d) sz a d (sext i)) s
/-- R390. -/
def execSt (i : BitVec 10) (e : Bool) (sz : BitVec 2) (a d : Reg) (s : State) :=
  plain (.st i e sz a d) (storeWork (.st i e sz a d) sz a d (sext i)) s

/-! Compressed forms of the x class (15 R299-R302) -/

/-- R301: C.MV does not read LAST. -/
def execCMv (b d : Reg) (s : State) := alu1 (.cMv b d) false b d (fun u => u) s
def execCAdd (b d : Reg) (s : State) := compressed2 (.cAdd b d) b d (fun u v => u + v) s
def execCSub (b d : Reg) (s : State) := compressed2 (.cSub b d) b d (fun u v => u - v) s
def execCAnd (b d : Reg) (s : State) := compressed2 (.cAnd b d) b d (fun u v => u &&& v) s
def execCOr (b d : Reg) (s : State) := compressed2 (.cOr b d) b d (fun u v => u ||| v) s
def execCXor (b d : Reg) (s : State) := compressed2 (.cXor b d) b d (fun u v => u ^^^ v) s
def execCShli (i d : Reg) (s : State) := compressed1 (.cShli i d) d (fun u => u <<< i.toNat) s
def execCShri (i d : Reg) (s : State) := compressed1 (.cShri i d) d (fun u => u >>> i.toNat) s
def execCAddi (i d : Reg) (s : State) := compressed1 (.cAddi i d) d (fun u => u + sext i) s
def execCMul (b d : Reg) (s : State) := compressed2 (.cMul b d) b d (fun u v => u * v) s
/-- `ld.d` with the base LAST and the offset 8 × imm5. -/
def execCLd (i d : Reg) (s : State) :=
  plain (.cLd i d) (do
    notExec (.cLd i d)
    let a ← needLast (.cLd i d) lastX
    loadWork (.cLd i d) 3 a d (BitVec.ofNat 64 (8 * i.toNat))) s
/-- `st.d` with the base LAST. -/
def execCSt (i d : Reg) (s : State) :=
  plain (.cSt i d) (do
    notExec (.cSt i d)
    let a ← needLast (.cSt i d) lastX
    storeWork (.cSt i d) 3 a d (BitVec.ofNat 64 (8 * i.toNat))) s

end Sys2Proof.Machine
end

