-- ==== Sys2Proof/Machine/Launch.lean ====
section
/-! DEFINITION. LAUNCH (03 R22-R26, R29, R39): the checks of a kernel header and an RCB image against a parent, and the
region and root CR that they make. The LAUNCH instruction and the host's LAUNCH request share it. -/

namespace Sys2Proof.Machine

/-- What a LAUNCH reads: the header's and the image's bytes, and the image's address. -/
structure LaunchArgs where
  hdr : List Byte
  img : List Byte
  rcb : Nat
  deriving DecidableEq, Repr

/-- The effective fields of region 0 (R26). -/
def Ctx.root0 (c : Ctx) : Region :=
  { priority := 7, share := 1, fronts := 256, lanemin := 1, lanemax := 8, preemptible := true,
    qentries := c.qentries.toNat, scratch := c.scratch.toNat, tiles := c.tiles.toNat }

/-- A region as a parent. -/
def State.effective (s : State) (k : Nat) : Region := if k % 65536 = 0 then (s.ctxAt (k / 65536)).root0 else s.regionAt k

/-- A field from the image where its override bit is set, otherwise the parent's (R23). -/
def pick {α : Type} (img : List Byte) (bit : Nat) (own inherited : α) : α :=
  if fieldAt img 4 4 / 2 ^ bit % 2 = 1 then own else inherited

/-- The header's occupancy of queue `q` (R29). -/
def occ (hdr : List Byte) (q : Nat) : Nat := fieldAt hdr (32 + 4 * q) 4

/-- The sum of the occupancies and the root entry. -/
def occTotal (hdr : List Byte) : Nat := occ hdr 0 + 1 + occ hdr 1 + occ hdr 2 + occ hdr 3

/-- The child's fields, resolved against its parent (R22, R23), with what the header gives (R29, R39). -/
def resolve (P : Region) (a : LaunchArgs) : Region :=
  let i := a.img
  { rcb := a.rcb, override := BitVec.ofNat 32 (fieldAt i 4 4),
    priority := pick i 0 (fieldAt i 8 1) P.priority
    propagate := pick i 7 (fieldAt i 9 1 % 2 == 1) P.propagate
    preemptible := pick i 8 (fieldAt i 9 1 / 2 % 2 == 1) P.preemptible
    share := pick i 1 (fieldAt i 12 4) P.share
    fronts := pick i 2 (fieldAt i 16 2) P.fronts
    lanemin := pick i 3 (fieldAt i 18 1) P.lanemin
    lanemax := pick i 3 (fieldAt i 19 1) P.lanemax
    tiles := pick i 5 (fieldAt i 20 1) P.tiles
    scratch := pick i 4 (fieldAt i 24 4) P.scratch
    qentries := pick i 6 (fieldAt i 28 4) P.qentries
    ring := fieldAt i 48 8, ringlen := fieldAt i 56 4
    reserve := (((Table.set 0 [] 0 (occ a.hdr 0 + 1)).set 0 1 (occ a.hdr 1)).set 0 2 (occ a.hdr 2)).set 0 3 (occ a.hdr 3)
    rootframe := BitVec.ofNat 64 (fieldAt i 104 8), done := BitVec.ofNat 64 (fieldAt i 112 8)
    roottag := BitVec.ofNat 32 (fieldAt i 120 4)
    hkind := fieldAt a.hdr 24 1, hmin := fieldAt a.hdr 25 1, hmax := fieldAt a.hdr 26 1
    hswatches := fieldAt a.hdr 27 1, htiles := fieldAt a.hdr 28 1 }

/-- The header's lane range is within R29's. -/
def headerLanes (R : Region) : Bool := 1 ≤ R.hmin && R.hmin ≤ R.hmax && R.hmax ≤ 8

/-- The header and the image are well formed (R22, R23, R29). -/
def headerOk (R : Region) (a : LaunchArgs) : Bool :=
  fieldAt a.hdr 0 4 == 1 && (R.hkind == 1 || R.hkind == 2) && R.hswatches ≤ 64 && headerLanes R &&
  fieldAt a.hdr 29 3 == 0 && fieldAt a.hdr 48 80 == 0 &&
  fieldAt a.img 11 1 == 0 && fieldAt a.img 21 3 == 0 && fieldAt a.img 60 4 == 0 && fieldAt a.img 128 128 == 0 &&
  fieldAt a.img 4 4 < 512 && fieldAt a.img 9 1 < 4

/-- What children take of a parent's budget (R25). -/
def carved (f : Region → Nat) (kids : List (Nat × Region)) : Nat := (kids.map (fun e => f e.2)).foldl (· + ·) 0

/-- Entries that a region reserves for its own queues. -/
def Region.reserved (R : Region) : Nat := R.reserve.get 0 0 + R.reserve.get 0 1 + R.reserve.get 0 2 + R.reserve.get 0 3

/-- The lowest id above 0 that no ACTIVE region of a context has, below `k + n`. -/
def freeRegion (t : Table Region) (ctx : Nat) : Nat → Nat → Option Nat
  | 0, _ => none
  | n + 1, k => if (t.get {} (regionKey ctx k)).status = 1 then freeRegion t ctx n (k + 1) else some k

/-- The status of a LAUNCH (R39), the checks in the order of its table. A failing parent refuses every LAUNCH (R51). A share
above 65,535 is accepted and kept (DESIGN CHOICE: R22 gives the range and R39 no refusal; log entry 59). -/
def launchStatus (P R : Region) (kids : List (Nat × Region)) (full : Bool) (a : LaunchArgs) : Nat :=
  if P.failing then 7
  else if full then 1
  else if R.qentries < occTotal a.hdr ∨ P.qentries - P.reserved - carved Region.qentries kids < R.qentries then 2
  else if P.scratch - carved Region.scratch kids < R.scratch then 3
  else if P.tiles - carved Region.tiles kids < R.tiles ∨ R.tiles < R.htiles then 4
  else if R.lanemin < 1 ∨ R.lanemax < R.lanemin ∨ R.lanemin < P.lanemin ∨ P.lanemax < R.lanemax ∨
      (headerLanes R = true ∧ (R.hmax < R.lanemin ∨ R.lanemax < R.hmin)) then 5
  else if headerOk R a = false then 6
  else if P.priority < R.priority ∨ P.fronts < R.fronts ∨ R.fronts = 0 ∨ R.share = 0 then 7
  else if R.ringlen < occ a.hdr 0 + 1 ∨ R.ring % 64 ≠ 0 then 8
  else 0

/-- The root CR (R39). -/
def rootCr (R : Region) (id : Nat) (hdr : List Byte) : CR :=
  { code := BitVec.ofNat 64 (fieldAt hdr 8 8)
    frame := if R.rootframe = 0 then BitVec.ofNat 64 (fieldAt hdr 16 8) else R.rootframe
    weight := BitVec.ofNat 64 (2 ^ 62), tag := R.roottag, region := id
    lanemin := max R.hmin R.lanemin, lanemax := min R.hmax R.lanemax, kind := R.hkind, root := true }

/-- The resolved fields of an RCB: offset, size, value. -/
def Region.resolvedFields (R : Region) : List (Nat × Nat × Nat) :=
  [(8, 1, R.priority), (9, 1, (if R.propagate then 1 else 0) + (if R.preemptible then 2 else 0)), (12, 4, R.share),
   (16, 2, R.fronts), (18, 1, R.lanemin), (19, 1, R.lanemax), (20, 1, R.tiles), (24, 4, R.scratch), (28, 4, R.qentries)]

/-- LAUNCH's work once its reads are made: the word for x[D] or the mailbox (status, and the id from bit 16), and the
state. -/
def State.launch (s : State) (parent : Nat) (a : LaunchArgs) : Nat × State :=
  let ctx := parent / 65536
  let P := s.effective parent
  let R := resolve P a
  let free := freeRegion s.regions ctx 65535 1
  let status := launchStatus P R (s.childrenOf parent) free.isNone a
  match status, free with
  | 0, some id =>
    let k := regionKey ctx id
    let R := { R with parent := parent % 65536, status := 1, order := s.dev.launches }
    let c := rootCr R id a.hdr
    let s := (s.setRegionAt k R).writeFields ctx R.rcb (R.resolvedFields ++ R.fields id)
    let s := { s with dev := { s.dev with launches := s.dev.launches + 1 } }
    (65536 * id, s.pushReady k c c.bytes)
  | st, _ => (st, s)

end Sys2Proof.Machine
end

