-- ==== Sys2Proof/Machine/Fetch.lean ====
section
/-! DEFINITION. Instruction fetch (15 R280, R281; 08 R149): the halfwords of the next instruction as the front's image
holds them, and what they decode to. -/

namespace Sys2Proof.Machine

/-- What a fetch gives. -/
inductive Fetched where
  | instr (i : Instr)
  /-- Not an instruction; its bits as `tval` reports them (R282). -/
  | bad (bits : Word)
  /-- A halfword fails: cause and address. -/
  | fault (cause va : Nat)
  deriving DecidableEq, Repr

/-- The bytes of `n` halfwords from `va` upwards, for the current hart; a halfword fails where it does not translate or is
uncorrectable (14 R278). -/
def State.fetchHalves (s : State) : Nat → Nat → Except (Nat × Nat) (List Byte)
  | 0, _ => .ok []
  | n + 1, va =>
    match scalarByte s s.fid s.ctx .fetch s.priv va with
    | .error c => .error (c, va)
    | .ok k =>
      if s.poisoned k 2 then .error (Cause.ecc, va)
      else
      match State.fetchHalves s n (va + 2) with
      | .error e => .error e
      | .ok bs => .ok (s.front.image.get 0 k :: s.front.image.get 0 (k + 1) :: bs)

/-- Halfwords of the instruction that begins with byte `b` (R280). -/
def halvesOf (b : Byte) : Nat := if b.getLsbD 0 = false then 1 else if b.getLsbD 1 = false then 2 else 4

/-- The current hart's next instruction. -/
def State.fetch (s : State) : Fetched :=
  let pc := s.regs.pc.toNat
  match s.fetchHalves 1 pc with
  | .error (c, va) => .fault c va
  | .ok b1 =>
    match s.fetchHalves (halvesOf (b1.headD 0)) pc with
    | .error (c, va) => .fault c va
    | .ok bs =>
      match decode bs with
      | .ok (i, _) => .instr i
      | .error _ => .bad (BitVec.ofNat 64 (ofBytes bs))

/-- R304, R243: the current hart's next instruction is none: it traps ILLEGAL with its bits. -/
def execNotAnInstruction (s : State) : Host.Outcome State Fault Refusal :=
  match s.fetch with
  | .bad bits => .next (takeTrap s Cause.illegal bits.toNat s.regs.pc false)
  | _ => .next s

/-- R281: a halfword of the current hart's next instruction cannot be fetched: it traps at that instruction. -/
def execFetchFault (s : State) : Host.Outcome State Fault Refusal :=
  match s.fetch with
  | .fault c va => .next (takeTrap s c va s.regs.pc false)
  | _ => .next s

/-- SETVL, SETVLW, SETVLRE and VLOOP (04 R70, 13 R252). -/
def startsStrip : Instr → Bool
  | .setvl .. | .setvlw .. | .setvlre .. | .vloop .. => true
  | _ => false

/-- The instruction at the current hart's pc computes vl afresh. -/
def State.atStripStart (s : State) : Bool :=
  match s.fetch with
  | .instr i => startsStrip i
  | _ => false

end Sys2Proof.Machine
end

