-- ==== Sys2Proof/Machine/Save.lean ====
section
/-! DEFINITION. Save areas (13 R254-R256): what a pre-empted or yielding CR leaves in the save pool, what it takes of the
pool, and how a hart's registers come back (13 R255, 06 R109). -/

namespace Sys2Proof.Machine

/-! Registers in a save area -/

/-- The low `n` bytes of one bit string over another. -/
def mergeLow (n : Nat) (old new : BitVec 16384) : BitVec 16384 :=
  BitVec.ofNat 16384 (new.toNat % 2 ^ (8 * n) + old.toNat / 2 ^ (8 * n) * 2 ^ (8 * n))

/-- The copies of a hart's vector registers below `k`: a dirty register's written bytes go over its copy. -/
def saveVectors (h : Hart) (now copies : Table (BitVec 16384)) : Nat → Table (BitVec 16384)
  | 0 => copies
  | k + 1 =>
    let t := saveVectors h now copies k
    if h.dirty.getLsbD k then t.set 0 k (mergeLow (h.vlen.get 0 k) (t.get 0 k) (now.get 0 k)) else t

/-- The lengths of the copies; key 32 x slot + register. -/
def saveLens (h : Hart) (slot : Nat) (lens : Table Nat) : Nat → Table Nat
  | 0 => lens
  | k + 1 =>
    let t := saveLens h slot lens k
    if h.dirty.getLsbD k then t.set 0 (32 * slot + k) (max (t.get 0 (32 * slot + k)) (h.vlen.get 0 k)) else t

/-- A register copy as it comes back under a capacity of `cap` bytes. -/
def restoreVectors (slot cap : Nat) (copies : Table (BitVec 16384)) (lens : Table Nat) : Nat → Table (BitVec 16384)
  | 0 => []
  | k + 1 =>
    (restoreVectors slot cap copies lens k).set 0 k
      (mergeLow (min (lens.get 0 (32 * slot + k)) cap) 0 (copies.get 0 k))

/-- Tags under a grant of `g` lanes (R109). -/
def capTags (g : Nat) (t : Table Word) : Table Word :=
  (t.map (fun e => if g * 256 * tagRegs e.2 / tagWidth e.2 < tagLen e.2 then (e.1, unsorted e.2) else e)).filter
    (fun e => e.2 != 0)

/-- The needs of the harts of a front at their checkpoints (R253). -/
def State.needsOf (s : State) (f : Nat) : List (BitVec 9 × Nat) :=
  [Slot.a, Slot.e].filterMap (fun sl =>
    let s := { s with fid := f, slot := sl }
    if s.hart.live ∧ s.atStripStart = false then some (s.regs.vtype, s.regs.vl.toNat) else none)

/-! Size and allocation -/

/-- Bytes of what a save holds whole (R254), besides tiles and swatches: x registers and mask registers, state registers
and run tags, pc and grant of each hart, and the queue entries. The layout is the model's (log entry 23). -/
def wholeBytes (F : Front) : Nat :=
  let harts := if F.theRun.cr.kind = 2 then 2 else 1
  let q := fun (t : Table (List QEntry)) => (t.flatMap (fun e => e.2.map (fun x => 16 + (x.vl * sewBits x.sew + 7) / 8))).foldl (· + ·) 0
  harts * (264 + 32768 + 512) + q F.lq + q F.sqData + 16 * (F.sqAddr.flatMap (fun e => e.2)).length

/-- The CR's tiles and swatches, with the bytes of those that are READY. -/
def State.tilesHeld (s : State) (f : Nat) : List Tile :=
  (s.frontAt f).theRun.tiles.map (fun k => (s.coreAt (f / 2)).tiles.get {} k)

def State.swatchesHeld (s : State) (f : Nat) : List (Swatch × List Byte) :=
  let C := s.coreAt (f / 2)
  (s.frontAt f).theRun.swatches.map (fun k =>
    let w := C.swatches.get {} k
    (w, if w.st = .ready then C.scratch.bytes w.base.toNat w.len.toNat else []))

/-- 64 KiB units that a save needs (R256). -/
def unitsFor (F : Front) (lens : Table Nat) (tiles : List Tile) (sw : List (Swatch × List Byte)) : Nat :=
  let bytes := (lens.map (fun e => e.2)).foldl (· + ·) 0 + wholeBytes F +
    65536 * (tiles.filter (fun t => t.st != .off)).length + (sw.map (fun w => 8 + w.2.length)).foldl (· + ·) 0
  (bytes + 65535) / 65536

/-- Units of the save pool of one die: SAVE granules of each of its four stacks. -/
def State.poolUnits (s : State) : Nat := 4 * 1024 * s.dev.savePool

/-- Units in use of the die of number 0 or 1. -/
def State.unitsUsed (s : State) (die : Nat) : Nat :=
  (s.dev.saves.map (fun e => if die = 0 then e.2.units0 else e.2.units1)).foldl (· + ·) 0

/-- The units of each die that a save of front `f` in area `id` (0: a new one) comes to, of `need`; none where the pool
or the areas do not suffice. -/
def State.allot (s : State) (f id need : Nat) : Option (Nat × Nat) :=
  let die := f / 128
  let free0 := s.poolUnits - s.unitsUsed 0
  let free1 := s.poolUnits - s.unitsUsed 1
  if id = 0 then
    if 4096 ≤ s.dev.saves.length then none
    else if die = 0 then (if need ≤ free0 then some (need, 0) else none)
    else (if need ≤ free1 then some (0, need) else none)
  else
    let A := s.dev.saves.get {} id
    let more := need - (A.units0 + A.units1)
    if free0 + free1 < more then none
    else if die = 0 then some (A.units0 + min more free0, A.units1 + (more - min more free0))
    else some (A.units0 + (more - min more free1), A.units1 + min more free1)

/-- The lowest number from `k` up that no save area has. -/
def freeArea (t : Table Save) : Nat → Nat → Nat
  | 0, k => k
  | n + 1, k => if t.any (fun e => e.1 == k) then freeArea t n (k + 1) else k

/-! Saving -/

/-- Land every fill of a hart: a save waits for those of committed strips (R252). -/
def Hart.landAll (h : Hart) : Hart := { h with regs := h.fills.foldl Regs.land h.regs, fills := [] }

/-- A hart as a save area holds it, over its old copies; the trap registers stay with the slot (13 R242, R254). -/
def Hart.saved (h old : Hart) : Hart :=
  { h.inSlot {} with
    regs := { h.regs with v := saveVectors h h.regs.v old.regs.v 32 }, ckpt := {}, ckTiles := [], buf := [], popped := [],
    reads := [], reruns := 0, holds := false, blockedOn := none, dirty := 0, vlen := [], wait := .none, waitInstr := none }

/-- The area that a save of front `f` fills: number and contents; none where it cannot be allocated. -/
def State.saveArea (s : State) (f : Nat) (same : Bool) (needs : List (BitVec 9 × Nat)) : Option (Nat × Save) :=
  let F := s.frontAt f
  let r := F.theRun
  let A := s.dev.saves.get {} r.cr.save
  let lens := saveLens F.e 1 (saveLens F.a 0 A.lens 32) 32
  let tiles := s.tilesHeld f
  let sw := s.swatchesHeld f
  match s.allot f r.cr.save (max (unitsFor F lens tiles sw) 1) with
  | none => none
  | some (u0, u1) =>
    let id := if r.cr.save = 0 then freeArea s.dev.saves (s.dev.saves.length + 1) 1 else r.cr.save
    some (id, {
      units0 := u0, units1 := u1, run := r, grant := F.grant, a := F.a.landAll.saved A.a, e := F.e.landAll.saved A.e, lq := F.lq,
      sqData := F.sqData, sqAddr := F.sqAddr, held := F.held, lens := lens, tiles := tiles, swatches := sw, sameGrant := same,
      needs := needs, front := f })

/-- A front that its CR has left to come back: its engine chains and their shadows stay (09 R174). -/
def Front.vacated (F : Front) : Front :=
  { run := none, seq := F.seq, own := F.own, tlb := F.tlb, chain := F.chain, shadows := F.shadows, a := F.a.blank, e := F.e.blank }

/-- What the harts of front `f` have observed and done stays with their CR (08 R152; log entry 76). -/
def State.keepOrder (s : State) (f serial : Nat) : State :=
  { s with order := [Slot.a, Slot.e].foldl (fun o sl =>
      (o.offer (hartAgent f sl) (crKey serial (slotNum sl))).tick (hartAgent f sl)) s.order }

/-- Save the CR of front `f` and take it off the front: the CR with its weight and its area; none where no area can be
allocated. -/
def State.saveCr (s : State) (f : Nat) (same : Bool) (needs : List (BitVec 9 × Nat)) : Option (CR × State) :=
  match s.saveArea f same needs with
  | none => none
  | some (id, A) =>
    let F := s.frontAt f
    let r := F.theRun
    let c := { r.cr with weight := r.cweight, save := id }
    let A := { A with run := { r with cr := c } }
    let C := s.coreAt (f / 2)
    let s := s.setCoreAt (f / 2) (releaseSwatches (releaseTiles C r.tiles) r.swatches)
    let s := (s.setFrontAt f F.vacated).keepOrder f r.serial
    some (c, { s with dev := { s.dev with saves := s.dev.saves.set {} id A } })

/-! Coming back -/

/-- A hart as it resumes with `g` lanes (R255, R109); its strip begins there. -/
def Hart.restored (h : Hart) (slot g grant : Nat) (lens : Table Nat) (tiles : List Tile) : Hart :=
  let r := { h.regs with
    v := restoreVectors slot (32 * g) h.regs.v lens 32
    stag := if g = grant then h.regs.stag else capTags g h.regs.stag }
  { h with regs := r, ckpt := r, ckTiles := tiles }

/-- The lengths of the copies after a resumption with `g` lanes: bytes beyond the capacity are lost. -/
def keptLens (g : Nat) (lens : Table Nat) : Table Nat := lens.map (fun e => (e.1, min e.2 (32 * g)))

end Sys2Proof.Machine
end

