-- ==== Sys2Proof/Machine/StateRegs.lean ====
section
/-! DEFINITION. The state registers (15 R295, R296): what each reads as, what a write changes, the four STATE
instructions (R377, R387, R389, R392), and the writes as steps of their own. -/

namespace Sys2Proof.Machine

/-! Reads -/

/-- ST of a tile (10 R196). -/
def tileStCode : TileSt → Nat
  | .off => 0
  | .idle => 1
  | .busy => 2
  | .draining => 3

/-- The eight bits of `tstate` for one tile (R196). -/
def Tile.report (t : Tile) : Nat :=
  tileStCode t.st + (if t.int && t.st != .off then 4 else 0) + 8 * t.fmt.toNat + (if t.retired then 64 else 0)

/-- `tstate` (R196). -/
def tstateOf : List Tile → Nat
  | [] => 0
  | t :: ts => t.report + 256 * tstateOf ts

/-- `spec` (12 R233). -/
def State.specWord (s : State) : Nat :=
  let t := s.ticketAt s.ticket
  if s.ticket = 0 then 0 else s.ticket % 256 + (if t.chain then 256 else 0) + 65536 * t.log.length

/-- Allocated patches (07 R142). -/
def State.patchesUsed (s : State) : Nat := s.dev.patches.length

/-- Patches of the covered pool that are not allocated (07 R126). -/
def State.poolFree (s : State) : Nat := 8 * 1024 * s.dev.pool - s.patchesUsed

/-- `vpmctl` (07 R126). -/
def State.vpmctl (s : State) : Nat := s.dev.pool + 2 ^ 11 * s.dev.savePool + 2 ^ 40 * s.poolFree

/-- `tstat` (13 R242). -/
def State.tstat (s : State) : Nat :=
  (if s.hart.tasync then 128 else 0) + 32 * s.hart.trole.toNat + (if s.hart.priv then 16 else 0)

/-- What a state number reads as for the current hart; none where it is not allocated (R295). Every hart slot has a `rad` of its own
that reads back; only the access hart's bounds anything (DESIGN CHOICE: 04 R52 gives the others none; log entry 64). -/
def State.readState (s : State) (n : Nat) : Option Word :=
  let r := s.regs
  let c := s.ctxAt s.ctx
  let w (v : Nat) : Option Word := some (BitVec.ofNat 64 v)
  match n with
  | 0x000 => w r.vl.toNat
  | 0x001 => w r.vtype.toNat
  | 0x002 => w s.vlmax
  | 0x003 => w s.front.grant
  | 0x004 => w r.fflags.toNat
  | 0x005 => w r.frm.toNat
  | 0x006 => w r.erc.toNat
  | 0x007 => w r.vsflags.toNat
  | 0x008 => some r.seam
  | 0x009 => w r.rad.toNat
  | 0x00A => some r.wmbase
  | 0x00B => w r.lastd.toNat
  | 0x00C => some s.run.cweight
  | 0x00D => w s.run.cr.tag.toNat
  | 0x00E => w s.run.cr.region
  | 0x00F => w s.hart.kvblk.toNat
  | 0x010 => w r.tpred.toNat
  | 0x011 => w (tstateOf s.tilesOf)
  | 0x012 => some r.loopi
  | 0x013 => w s.specWord
  | 0x014 => some r.fex
  | 0x015 => some r.fev
  | 0x100 => some c.tvec
  | 0x101 => w s.hart.tcause.toNat
  | 0x102 => some s.hart.tval
  | 0x103 => some s.hart.tpc
  | 0x104 => w s.tstat
  | 0x105 => some s.core.lanemap
  | 0x106 => w s.core.lpart.toNat
  | 0x107 => w (s.ctx * 2 ^ 40 + c.root.toNat * 4096)
  | 0x108 => w (if c.mixtrap then 1 else 0)
  | 0x109 => w s.vpmctl
  | 0x10A => w c.stallmax.toNat
  | 0x10B => some c.frec
  | _ =>
    if 0x20 ≤ n ∧ n < 0x40 then some (r.stag.get 0 (n - 0x20))
    else if 0x80 ≤ n ∧ n < 0xC0 then (s.run.swatches[n - 0x80]?).map (fun k => (s.swatchSeen k).word)
    else none

/-! Writes -/

/-- Change the current context's registers. -/
def State.setCtx (s : State) (f : Ctx → Ctx) : State := s.setCtxAt s.ctx (f (s.ctxAt s.ctx))

/-- The lanes of the fronts of a core under a split (04 R58): front 0 has [0, n) and front 1 the rest. -/
def splitLanes (split : Nat) : Nat :=
  match split with
  | 0 => 64
  | 1 => 48
  | 2 => 32
  | _ => 16

/-- The slice of front `k` (0 or 1) of a core, as a set of lanes. -/
def sliceOf (split k : Nat) : Word :=
  let low := BitVec.ofNat 64 (2 ^ splitLanes split - 1)
  if k = 0 then low else ~~~low

/-- A split leaves the lanes that each front of the core holds. -/
def State.splitKeeps (s : State) (core split : Nat) : Bool :=
  ((s.frontAt (2 * core)).lanes &&& ~~~sliceOf split 0) == 0 && ((s.frontAt (2 * core + 1)).lanes &&& ~~~sliceOf split 1) == 0

/-- R58: a write that would take lanes from a grant is ignored. -/
def State.writeLpart (s : State) (v : Word) : State :=
  let split := v.extractLsb' 0 2
  if s.splitKeeps s.coreNo split.toNat then s.setCore { s.core with lpart := split } else s

/-- R59: a set bit stays. -/
def State.writeLanemap (s : State) (v : Word) : State := s.setCore { s.core with lanemap := s.core.lanemap ||| v }

/-- Whether `vpmctl` may take new values (R126). -/
def State.vpmctlMay (s : State) (pool save : Nat) : Bool :=
  pool + save ≤ 1430 &&
  (pool == s.dev.pool || s.dev.patches.isEmpty) &&
  ((pool == s.dev.pool && save == s.dev.savePool) || s.dev.saves.isEmpty) &&
  ((pool == s.dev.pool && save == s.dev.savePool) ||
    s.dev.vpm.all (fun e => !(e.2.getLsbD 23 && !e.2.getLsbD 22 && 1430 ≤ (e.2.extractLsb' 0 11).toNat + pool + save)))

/-- R126: a write that a guard refuses is ignored in whole. -/
def State.writeVpmctl (s : State) (v : Word) : State :=
  let pool := (v.extractLsb' 0 11).toNat
  let save := (v.extractLsb' 11 11).toNat
  if s.vpmctlMay pool save then { s with dev := { s.dev with pool := pool, savePool := save } } else s

/-- RAD: 0 and 17-31 write 16 (R66). -/
def radValue (v : Word) : BitVec 5 :=
  let r := v.extractLsb' 0 5
  if r = 0 ∨ 16 < r.toNat then 16 else r

/-- RM: 110 and 111 leave it (R90). -/
def frmValue (old : BitVec 3) (v : Word) : BitVec 3 :=
  let m := v.extractLsb' 0 3
  if 6 ≤ m.toNat then old else m

/-- The writable bits of `fex` (R298). -/
def fexMask : Word := 0x8000001FFFFFFFFF#64

/-- A descriptor write is ignored in whole (07 R137). -/
def swatchRefused (now : Swatch) (v : Word) : Bool :=
  let w := now.ofWord v
  now.st == .filling || now.st == .draining || w.st == .filling || w.st == .draining ||
  w.base.toNat % 64 != 0 || w.len.toNat % 64 != 0 || 1572864 < w.base.toNat + w.len.toNat

/-- Write a descriptor: into the strip's buffer, or at once in privileged mode. -/
def writeSwatch (k : Nat) (v : Word) : M Unit := do
  let s ← look id
  if swatchRefused (s.swatchSeen k) v then pure ()
  else if s.priv then
    update (fun s => s.setCore { s.core with swatches := s.core.swatches.set {} k ((s.core.swatches.get {} k).ofWord v) })
  else buffer 0 [.swatch k v]

/-- Write a state register, field by field; a register whose writes are ignored stays (R295, R296). -/
def writeState (n : Nat) (v : Word) : M Unit :=
  match n with
  | 0x004 => updateRegs (fun r => { r with fflags := v.extractLsb' 0 5 })
  | 0x005 => updateRegs (fun r => { r with frm := frmValue r.frm v })
  | 0x006 => updateRegs (fun r => { r with erc := v.extractLsb' 0 32 })
  | 0x007 => updateRegs (fun r => { r with vsflags := v.extractLsb' 0 3 })
  | 0x009 => updateRegs (fun r => { r with rad := radValue v })
  | 0x00A => updateRegs (fun r => { r with wmbase := v })
  | 0x00F => update (fun s => s.setHart { s.hart with kvblk := v.extractLsb' 0 16 })
  | 0x014 => updateRegs (fun r => { r with fex := v &&& fexMask })
  | 0x015 => updateRegs (fun r => { r with fev := v })
  | 0x100 => update (fun s => s.setCtx (fun c => { c with tvec := v &&& ~~~3#64 }))
  | 0x105 => update (fun s => s.writeLanemap v)
  | 0x106 => update (fun s => s.writeLpart v)
  | 0x107 => update (fun s => s.setCtx (fun c => { c with root := v.extractLsb' 12 28 }))
  | 0x108 => update (fun s => s.setCtx (fun c => { c with mixtrap := v.getLsbD 0 }))
  | 0x109 => update (fun s => s.writeVpmctl v)
  | 0x10A => update (fun s => s.setCtx (fun c => { c with stallmax := v.extractLsb' 0 32 }))
  | 0x10B => update (fun s => s.setCtx (fun c => { c with frec := v &&& 0x3FFFFFF0000#64 }))
  | _ => do
    let s ← look id
    if 0x80 ≤ n ∧ n < 0xC0 then
      match s.run.swatches[n - 0x80]? with
      | some k => writeSwatch k v
      | none => pure ()
    else pure ()

/-! The STATE instructions -/

/-- An SRD of a descriptor that returns EMPTY observes the scatter that drained it (09 R193). -/
def observeScatter (n : Nat) (old : Word) : M Unit :=
  if 0x80 ≤ n ∧ n < 0xC0 ∧ old.extractLsb' 62 2 = 0 then
    update (fun s =>
      let w := s.core.swatches.get {} (s.run.swatches.getD (n - 0x80) 64)
      if w.engine = 0 then s else { s with order := s.order.observeAt s.ctx s.agent w.engine })
  else pure ()

/-- StateOp's check of the number: ILLEGAL, then PRIV; the old value (R296, R282). -/
def stateOld (i : Instr) (n : Nat) : M Word := do
  let s ← look id
  match s.readState n with
  | none => illegal i
  | some old => do
    if 0x100 ≤ n then privileged i
    pure old

/-- StateOp with a source register (R296): `f` gives the new value from the old one and X[a]. -/
def stateOp (i : Instr) (n : BitVec 12) (a d : Reg) (f : Word → Word → Word) : State → Host.Outcome State Fault Refusal :=
  plain i do
    let old ← stateOld i n.toNat
    sources [.x false a]
    let u ← getX a
    writeState n.toNat (f old u)
    putX d old

/-- R387. -/
def execSrd (n : BitVec 12) (d : Reg) (s : State) :=
  plain (.srd n d) (do
    let old ← stateOld (.srd n d) n.toNat
    observeScatter n.toNat old
    putX d old) s
/-- R392. -/
def execSwr (n : BitVec 12) (a d : Reg) (s : State) := stateOp (.swr n a d) n a d (fun _ u => u) s
/-- R389. -/
def execSset (n : BitVec 12) (a d : Reg) (s : State) := stateOp (.sset n a d) n a d (fun old u => old ||| u) s
/-- R377. -/
def execSclr (n : BitVec 12) (a d : Reg) (s : State) := stateOp (.sclr n a d) n a d (fun old u => old &&& ~~~u) s

/-! The writes as steps: the value written stands in `arg`. A write that a STATE instruction could not make (a privileged
number in unprivileged mode, a number not allocated) does nothing. -/

/-- The step that writes state number `n` for the current hart. -/
def registerWrite (n : Nat) (s : State) : Host.Outcome State Fault Refusal :=
  if (s.readState n).isNone ∨ (0x100 ≤ n ∧ s.priv = false) then .next s
  else
    match writeState n s.arg.val s with
    | .ok (_, s') => .next s'
    | .error _ => .next s

/-- R59. -/
def execLanemapWrite (s : State) := registerWrite 0x105 s
/-- R58. -/
def execLpartWrite (s : State) := registerWrite 0x106 s
/-- R126. -/
def execVpmctlWrite (s : State) := registerWrite 0x109 s
/-- R137: `arg.sel` is the CR's number of the descriptor. -/
def execSwdWrite (s : State) := registerWrite (0x80 + s.arg.sel % 64) s
/-- R66. -/
def execRadWrite (s : State) := registerWrite 0x009 s
/-- R90. -/
def execFrmWrite (s : State) := registerWrite 0x005 s
/-- R218. -/
def execKvblkWrite (s : State) := registerWrite 0x00F s
/-- R129. -/
def execCtxRootWrite (s : State) := registerWrite 0x107 s

/-- R242: `arg.sel` names tvec, mixtrap, stallmax or frec by its number; another number writes nothing. -/
def execContextRegisterWrite (s : State) :=
  if s.arg.sel = 0x100 ∨ s.arg.sel = 0x108 ∨ s.arg.sel = 0x10A ∨ s.arg.sel = 0x10B then registerWrite s.arg.sel s
  else .next s

/-- The registers whose writes have no behaviour of their own (R296). -/
def plainRegisters : List Nat := [0x004, 0x006, 0x007, 0x00A, 0x014, 0x015]

/-- R296: `arg.sel` is the state number. -/
def execStateRegisterWrite (s : State) : Host.Outcome State Fault Refusal :=
  if plainRegisters.contains s.arg.sel then registerWrite s.arg.sel s else .next s

end Sys2Proof.Machine
end

