-- ==== Sys2Proof/Machine/Sys.lean ====
section
/-! DEFINITION. The SYS group (13 R247, R258; 07 R127; 18 R356, R357): TRAP, RETT, BREAK, IFLUSH, IDLE with the steps
that end it, FREEZE, THAW, SCANRD, TLBINV, VPMSET and VPMINV. -/

namespace Sys2Proof.Machine

/-! Calls and returns -/

/-- TRAP and BREAK (R246): the strip so far commits, the checkpoint is taken after the instruction, and the trap names
it. Under a ticket both trap SPECST and commit nothing. `body` gives `tval`. -/
def trapCall (i : Instr) (cause : Nat) (body : M Word) (s : State) : Host.Outcome State Fault Refusal :=
  match body s with
  | .error e => .next (halt i s e)
  | .ok (v, s) =>
    if s.ticket ≠ 0 then .next (takeTrap s Cause.specst 0 s.regs.pc false)
    else
      match commitStrip s with
      | .error e => .next (halt i s e)
      | .ok s1 => .next (takeTrap (checkpoint (s1.advance i.size)) cause v.toNat s.regs.pc false)

/-- R400. -/
def execTrap (p : Bool) (a : Reg) (s : State) :=
  trapCall (.trap p a) Cause.trapcall (do
    sources [.x p a]
    getX a) s

/-- R333. -/
def execBrk (s : State) := trapCall .brk Cause.breakpt (pure 0) s

/-- R374. -/
def execRett (s : State) : Host.Outcome State Fault Refusal :=
  if s.priv then .next (returnFromTrap s) else .next (takeTrap s Cause.priv (Instr.bits .rett).toNat s.regs.pc false)

/-- R357: the front's fetch sees memory as it stands at the IFLUSH (08 R149). -/
def execIflush (s : State) :=
  irrevocable .iflush (pure ())
    (do
      afterQueues
      update (fun s => s.setFront { s.front with image := s.mem })) s

/-! IDLE -/

/-- A write to a byte of the 128-byte line of an address has entered the order after cycle `since` (R356). -/
def State.lineWritten (s : State) (va since : Nat) : Bool :=
  match scalarByte s s.fid s.ctx .read s.priv va with
  | .error _ => false
  | .ok key =>
    (List.range 128).any (fun i => since < s.order.cycles.get 0 (key / 128 * 128 + i))

/-- R356. -/
def execIdle (p q : Bool) (b a d : Reg) (s : State) :=
  plain (.idle p q b a d) (do
    privileged (.idle p q b a d)
    sources [.x p a, .x q b]
    let u ← getX a
    let v ← getX b
    if u = 0 ∧ v = 0 then putX d 0
    else
      if v ≠ 0 then
        let _ ← scalarPieces .read v.toNat 8
      putX d 0
      stop (.wait .idle)) s

/-- End the IDLE that the current hart sleeps in, when `due` says so of its cycle limit and watched address: x[d] tells
whether the line was written. -/
def endIdle (due : Nat → Bool → Bool) (s : State) : Host.Outcome State Fault Refusal :=
  match s.hart.wait, s.hart.waitInstr with
  | .idle, some (.idle _ _ b a d) =>
    let v := s.regs.getX b
    let written := v ≠ 0 ∧ s.lineWritten v.toNat s.hart.waitFrom = true
    if due (s.regs.getX a).toNat (decide written) then
      .next ((s.setRegs (s.regs.setX d (if written then 1 else 0))).advance 4)
    else .next s
  | _, _ => .next s

/-- R356: the watched line has been written. -/
def execIdleWake (s : State) := endIdle (fun _ written => written) s

/-- R356: the cycle limit has passed. -/
def execIdleTimeout (s : State) := endIdle (fun limit _ => limit != 0 && decide (limit ≤ s.cycle - s.hart.waitFrom)) s

/-! The freeze line (13 R258-R262) -/

/-- The regions of a job: the region and its ACTIVE descendants. -/
def State.job (s : State) (k : Nat) : List Nat := k :: s.descendants s.regions.length k

/-- Gate or release the fronts, commands and dispatch of some regions. -/
def State.gate (s : State) (ks : List Nat) (on : Bool) : State :=
  { s with
    regions := s.regions.map (fun e => if ks.contains e.1 then (e.1, { e.2 with frozen := on }) else e)
    fronts := s.fronts.map (fun e =>
      match e.2.run with
      | some r => if ks.contains (regionKey r.ctx r.cr.region) then (e.1, { e.2 with frozen := on }) else e
      | none => e) }

/-- The fronts whose queue drains and that hold a CR of some regions. -/
def State.drainsIn (s : State) (ks : List Nat) : List Nat :=
  (s.fronts.filter (fun e =>
    let mine := fun (r : Run) => ks.contains (regionKey r.ctx r.cr.region)
    e.2.drain.any (fun x => mine x.run || e.2.run.any mine))).map (fun e => e.1)

/-- The EXITs of the CRs whose queues drain there are taken back (log entry 51). -/
def State.undrainAll (s : State) (fs : List Nat) : State := if fs.isEmpty then s else (fs.foldl State.undrain s).settled

/-- FREEZE a job (R259): one that is not ACTIVE or is frozen already is left. -/
def State.freezeJob (s : State) (k : Nat) : State :=
  let R := s.regionAt k
  if R.status = 1 ∧ R.frozen = false then (s.undrainAll (s.drainsIn (s.job k))).gate (s.job k) true else s

/-- THAW a job (R261). -/
def State.thawJob (s : State) (k : Nat) : State :=
  let R := s.regionAt k
  if R.status = 1 ∧ R.frozen = true then s.gate (s.job k) false else s

/-- The region that an operand names in the running context. -/
def State.regionNamed (s : State) (v : Word) : Nat := if v.toNat < 65536 then regionKey s.ctx v.toNat else regionKey s.ctx 0

/-- R353: a job that holds the issuing CR's own region traps ILLEGAL. -/
def execFreeze (p : Bool) (a : Reg) (s : State) :=
  plain (.freeze p a) (do
    privileged (.freeze p a)
    sources [.x p a]
    let u ← getX a
    let t ← look id
    let k := t.regionNamed u
    illegalIf (.freeze p a) ((t.regionAt k).status == 1 && (t.job k).contains (regionKey t.ctx t.run.cr.region))
    update (fun t => t.freezeJob k)) s

/-- R394. -/
def execThaw (p : Bool) (a : Reg) (s : State) :=
  plain (.thaw p a) (do
    privileged (.thaw p a)
    sources [.x p a]
    let u ← getX a
    update (fun t => t.thawJob (t.regionNamed u))) s

/-- Word `w` of a bit string of `n` words. -/
def wordOf (bits w : Nat) : Word := BitVec.ofNat 64 (bits / 2 ^ (64 * w))

/-- The slot whose copy of vector register `r` a scan reads: the access hart's v0-v7 in a PAIR CR, otherwise the
E-slot's (R262, 04 R52). -/
def Front.vectorOwner (F : Front) (r : Nat) : Slot := if F.theRun.cr.kind = 2 ∧ r < 8 then .a else .e

/-- The registers of a slot as a scan reads them: the strip checkpoint's where `ck` (R262), which a trap leaves as it is. -/
def Front.scanned (F : Front) (sl : Slot) (ck : Bool) : Regs := if ck then (F.hart sl).ckpt else (F.hart sl).regs

/-- A load queue with the entries popped within the strip at its head (04 R74). -/
def Front.queueSeen (F : Front) (q : Nat) : List QEntry :=
  (F.e.popped.filter (fun e => e.1 == q)).map (fun e => e.2) ++ F.lq.get [] q

/-- An entry of lq0-lq3 (q 0-3) or of the data of sq0-sq3 (q 4-7). -/
def Front.scanEntry (F : Front) (q e : Nat) : Option QEntry :=
  if q < 4 then (F.queueSeen q)[e]? else (F.sqData.get [] (q - 4))[e]?

/-- A header word (R262): valid, SEW, vl, base. -/
def headerWord (sew vl base : Nat) : Word := BitVec.ofNat 64 (2 ^ 63 + sew * 2 ^ 58 + vl * 2 ^ 42 + base)

/-- The tiles of the CR as a scan reads them, as checkpointed where `ck` (10 R207). -/
def State.scanTiles (s : State) (F : Front) (f : Nat) (ck : Bool) : List Tile :=
  if ck then F.e.ckTiles else F.theRun.tiles.map (fun k => (s.coreAt (f / 2)).tiles.get {} k)

/-- One word of a front, by class and index; none where the index is out of range (R262). -/
def State.scan (s : State) (f cls : Nat) (ck : Bool) (i : Nat) : Option Word :=
  let F := s.frontAt f
  let at_ (sl : Slot) : Regs := F.scanned sl ck
  match cls with
  | 0 =>
    if i < 32 then some ((at_ .a).getX (BitVec.ofNat 5 i))
    else if i < 64 then some ((at_ .e).getX (BitVec.ofNat 5 (i - 32)))
    else if i = 64 then some ((~~~(at_ .a).xEmpty).setWidth 64)
    else if i = 65 then some ((~~~(at_ .e).xEmpty).setWidth 64)
    else none
  | 1 =>
    let sl : Slot := if i < 4096 then .a else .e
    if 8192 ≤ i then none
    else if i % 4096 = 0xFFF then some (at_ sl).pc
    else if i % 4096 = 0x011 then some (BitVec.ofNat 64 (tstateOf (s.scanTiles F f ck)))
    else
      let s' := { s with fid := f, slot := sl }
      (s'.setRegs (at_ sl)).readState (i % 4096)
  | 2 =>
    if 8192 ≤ i then none
    else
      let r := i / 256
      if F.grant * 4 ≤ i % 256 ∨ (F.theRun.cr.kind = 2 ∧ 28 ≤ r) then some 0
      else some (wordOf ((at_ (F.vectorOwner r)).v.get 0 r).toNat (i % 256))
  | 3 => if 4096 ≤ i then none else some (wordOf ((at_ .e).m.get 0 (i / 512)).toNat (i % 512))
  | 4 => ((s.scanTiles F f ck)[i / 8192]?).map (fun t => wordOf t.cells.toNat (i % 8192))
  | 5 =>
    if 8 * 4096 ≤ i then none else some (((F.scanEntry (i / 4096) (i % 4096 / 256)).map (fun e => wordOf e.bits (i % 256))).getD 0)
  | 6 =>
    if 192 ≤ i then none
    else if i < 128 then
      match F.scanEntry (i / 16) (i % 16) with
      | some e => some (headerWord e.sew e.vl 0)
      | none => some 0
    else
      match (F.sqAddr.get [] (i / 16 - 8))[i % 16]? with
      | some e => some (headerWord e.sew e.vl e.base)
      | none => some 0
  | 7 => if 196608 ≤ i then none else some (BitVec.ofNat 64 (ofBytes ((s.coreAt (f / 2)).scratch.bytes (8 * i) 8)))
  | _ => none

/-- A front holds a CR of a frozen job. -/
def Front.scannable (F : Front) : Bool := F.frozen && F.run.isSome

/-- R376. -/
def execScanrd (p q : Bool) (b a d : Reg) (s : State) :=
  plain (.scanrd p q b a d) (do
    privileged (.scanrd p q b a d)
    sources [.x p a, .x q b]
    let u ← getX a
    let v ← getX b
    let t ← look id
    let f := (u.extractLsb' 0 8).toNat
    illegalIf (.scanrd p q b a d) (u.extractLsb' 13 51 != 0 || !(t.frontAt f).scannable)
    match t.scan f (u.extractLsb' 8 4).toNat (u.getLsbD 12) v.toNat with
    | none => illegal (.scanrd p q b a d)
    | some w => putX d w) s

/-! Translations (07 R127, R128, R132) -/

/-- Whether TLBINV's scope removes a cached leaf. -/
def scopeRemoves (scope ctx va : Nat) (e : TlbEntry) : Bool :=
  match scope with
  | 0 => e.ctx == ctx && e.base == va / e.size * e.size
  | 1 => e.ctx == ctx
  | _ => true

/-- R395. -/
def execTlbinv (p q : Bool) (b a : Reg) (s : State) :=
  plain (.tlbinv p q b a) (do
    privileged (.tlbinv p q b a)
    sources [.x p a, .x q b]
    afterQueues
    let u ← getX a
    let v ← getX b
    illegalIf (.tlbinv p q b a) (v.extractLsb' 8 56 != 0 || v.extractLsb' 2 2 != 0 || v.extractLsb' 0 2 == 3)
    update (fun t => { t with
      fronts := t.fronts.map (fun e => (e.1, { e.2 with
        tlb := e.2.tlb.filter (fun l => !scopeRemoves (v.extractLsb' 0 2).toNat (v.extractLsb' 4 4).toNat u.toNat l) })) })) s

/-- The reserved bits of a Vector Page Map entry (07 R125). -/
def vpmReserved (e : Word) : Bool := e.extractLsb' 24 24 != 0 || e.extractLsb' 17 2 != 0 || e.extractLsb' 11 3 != 0

/-- An entry that VPMSET refuses at granule `g` (R127). -/
def State.vpmRefused (s : State) (g : Nat) (e : Word) : Bool :=
  let frame := (e.extractLsb' 0 11).toNat
  let old := s.dev.vpm.get 0 g
  vpmReserved e || 1429 < frame || (e.getLsbD 22 && frame != 0) ||
  (!e.getLsbD 22 && 1430 ≤ frame + s.dev.pool + s.dev.savePool) ||
  ((old.getLsbD 22 != e.getLsbD 22 || old.extractLsb' 14 3 != e.extractLsb' 14 3) &&
    s.dev.patches.any (fun x => x.1 / 1024 == g))

/-- Write map entries. -/
def State.setVpm (s : State) (t : Table Word) : State := { s with dev := { s.dev with vpm := t } }

/-- R442. -/
def execVpmset (p q : Bool) (b a : Reg) (s : State) :=
  plain (.vpmset p q b a) (do
    privileged (.vpmset p q b a)
    sources [.x p a, .x q b]
    afterQueues
    let u ← getX a
    let v ← getX b
    trapIf (2 ^ 42 ≤ u.toNat) Cause.outwin u.toNat
    let t ← look id
    let g := u.toNat / 2 ^ 26
    illegalIf (.vpmset p q b a) (t.vpmRefused g v)
    update (fun t => t.setVpm (t.dev.vpm.set 0 g v))) s

/-- Clear V in the entries of [lo, hi). -/
def invalidate (t : Table Word) (lo hi : Nat) : Table Word :=
  (t.map (fun e => if lo ≤ e.1 ∧ e.1 < hi then (e.1, e.2 &&& ~~~(1#64 <<< 23)) else e)).filter (fun e => e.2 != 0)

/-- R442: a range that runs past entry 65,535 stops there. -/
def execVpminv (p q : Bool) (b a : Reg) (s : State) :=
  plain (.vpminv p q b a) (do
    privileged (.vpminv p q b a)
    sources [.x p a, .x q b]
    afterQueues
    let u ← getX a
    let v ← getX b
    trapIf (2 ^ 42 ≤ u.toNat) Cause.outwin u.toNat
    let g := u.toNat / 2 ^ 26
    update (fun t => t.setVpm (invalidate t.dev.vpm g (g + if v = 0 then 65536 else v.toNat)))) s

end Sys2Proof.Machine
end

