-- ==== Sys2Proof/Machine/Task.lean ====
section
/-! DEFINITION. The TASK group (03 R30-R50; 07 R140; 08 R161): SPAWN, JOIN, EXIT, LAUNCH, WITHDRAW, CLAIM, YIELD, WMPUB,
QSYNC, PIN and UNPIN. -/

namespace Sys2Proof.Machine

/-- The key of the current CR's region. -/
def State.regionKeyNow (s : State) : Nat := regionKey s.ctx s.run.cr.region

/-- The region of the current CR. -/
def State.regionNow (s : State) : Region := s.regionAt s.regionKeyNow

/-- Change what the front holds of its CR. -/
def updateRun (f : Run → Run) : M Unit := update (fun s => s.setRun (f s.run))

/-! SPAWN (R34, R383) -/

/-- The lane and kind fields of an image, after the header's defaults and the region's clamp (R27). -/
def resolveCr (R : Region) (c : CR) : CR :=
  let lo := if c.lanemin = 0 then R.hmin else c.lanemin
  let hi := if c.lanemax = 0 then R.hmax else c.lanemax
  { c with lanemin := max lo R.lanemin, lanemax := min hi R.lanemax, kind := if c.kind = 0 then R.hkind else c.kind }

/-- R27: what makes SPAWN trap ILLEGAL. -/
def imageIllegal (R : Region) (img : List Byte) : Bool :=
  let c := CR.ofBytes img
  let lo := if c.lanemin = 0 then R.hmin else c.lanemin
  let hi := if c.lanemax = 0 then R.hmax else c.lanemax
  let r := resolveCr R c
  3 ≤ c.kind || !crReserved img || hi < lo || 8 < lo || 8 < hi || r.lanemax < r.lanemin

/-- Read bytes as one scalar load of any length at an alignment (R34, R39, R231): as accesses of 8 bytes (log entry 20). -/
def loadBlock (va n align : Nat) : M (List Byte) := do
  let s ← look id
  trapIf (va % align != 0) Cause.misalign va
  let ps ← orTrapAt (scalarRange s s.fid s.ctx .read s.priv va n)
  update (fun s => cacheLeaf (cacheLeaf s s.fid s.ctx .read s.priv va) s.fid s.ctx .read s.priv (va + n - 1))
  loadPieces va 8 ps

/-- The charge and the split of the weight (R34): QUEUE, then a draw where cweight is below 2, then WEIGHT. The part
given away. -/
def chargeAndSplit (share : Nat) : M Word := do
  let s ← look id
  let R := s.regionNow
  trapIf (R.failing || R.reserve.get 0 0 < R.charged.get 0 0 + 2) Cause.queue 0
  let w := s.run.cweight.toNat
  let drawn := if w < 2 then 2 ^ 32 else 0
  trapIf (w < 2 && 2 ^ 63 < R.drawn.toNat + 2 ^ 32) Cause.weight w
  let give := if share = 0 then (w + drawn) / 2 else share
  trapIf (w + drawn ≤ give) Cause.weight w
  update (fun s => s.putRegion s.regionKeyNow { R with
    drawn := R.drawn + BitVec.ofNat 64 drawn, charged := R.charged.set 0 0 (R.charged.get 0 0 + 1) })
  update (fun s =>
    if s.ticket = 0 then s
    else
      let T := s.ticketAt s.ticket
      s.setTicketAt s.ticket { T with total := T.total + BitVec.ofNat 64 drawn })
  updateRun (fun r => { r with cweight := BitVec.ofNat 64 (w + drawn - give) })
  pure (BitVec.ofNat 64 give)

/-- A word of memory as the current hart reads it, at no place of its strip: a join counter (R36). -/
def readCounter (va : Nat) : M Nat := do
  let ps ← scalarPieces .read va 8
  let s ← look id
  match ps with
  | [] => pure 0
  | p :: _ => do
    let bs ← orTrap va (s.readMem s.ctx s.agent 8 p.key 8)
    pure (ofBytes bs)

/-- R383. -/
def execSpawn (p q : Bool) (b a : Reg) (s : State) :=
  irrevocable (.spawn p q b a) (notExec (.spawn p q b a))
    (do
      sources [.x p a, .x q b]
      afterQueues
      let u ← getX a
      let v ← getX b
      let img ← loadBlock u.toNat 64 8
      let t ← look id
      illegalIf (.spawn p q b a) (imageIllegal t.regionNow img)
      let c := resolveCr t.regionNow (CR.ofBytes img)
      let count ← if c.joinaddr = 0 then pure 0 else readCounter c.joinaddr.toNat
      let give ← chargeAndSplit v.toNat
      let t ← look id
      let c := { c with weight := give, region := t.run.cr.region, ticket := t.ticket }
      updateRun (fun r => { r with spawns := (r.spawns + 1) % 2 ^ 32 })
      update (fun t => if count = 0 then t.pushReady t.regionKeyNow c img else t.park t.regionKeyNow c img)) s

/-! JOIN (R35, R359) -/

/-- R359. -/
def execJoin (p : Bool) (a d : Reg) (s : State) :=
  irrevocable (.join p a d) (notExec (.join p a d))
    (do
      sources [.x p a]
      afterQueues
      let u ← getX a
      let _ ← scalarPieces .both u.toNat 8
      let t ← look id
      if t.ticket ≠ 0 then
        logEffect (.join u.toNat t.priv)
        fillX d 0
      else
        let (old, t) ← orTrap u.toNat (t.joinAt t.fid t.ctx t.agent t.priv u.toNat)
        update (fun _ => t)
        updateRun (fun r => { r with joins := (r.joins + 1) % 2 ^ 32 })
        fillX d (BitVec.ofNat 64 old)) s

/-! EXIT (R342, R246) -/

/-- A load queue has room: fewer than 16 entries pushed and not released (R66). -/
def Front.queueRoom (F : Front) (q : Nat) : Bool := (F.queueSeen q).length < 16

/-- The front's load queues with an entry more at the tail of queue `q`. -/
def Front.pushLoad (F : Front) (q : Nat) (e : QEntry) : Front := { F with lq := F.lq.set [] q (F.lq.get [] q ++ [e]) }

/-- The end entries of an access hart's EXIT (R66). -/
def Front.pushEnds (F : Front) : Front := [0, 1, 2, 3].foldl (fun F q => F.pushLoad q { vl := 0, stop := true }) F

/-- A store queue holds a complete pair (R65). -/
def Front.pairReady (F : Front) (q : Nat) : Bool := !(F.sqAddr.get [] q).isEmpty && !(F.sqData.get [] q).isEmpty

/-- Every complete pair has been performed. -/
def Front.pairsDone (F : Front) : Bool := [0, 1, 2, 3].all (fun q => !F.pairReady q)

/-- A PAIR CR whose harts have both exited ends once its pairs are performed (R66). -/
def State.pairEnd (s : State) (f : Nat) : State :=
  let F := s.frontAt f
  if F.run.isSome ∧ F.theRun.cr.kind = 2 ∧ F.a.live = false ∧ F.e.live = false ∧ F.pairsDone = true then s.endCr f else s

/-- A command whose issuing hart, of the CR of a serial number, has exited. -/
def Cmd.disown (serial : Nat) (c : Cmd) : Cmd := if c.owned ∧ c.serial = serial then c.orphan else c

/-- The current hart exits: the commit of its ticket follows its accesses (12 R236). -/
def State.leaveTicket (s : State) : State :=
  if s.ticket = 0 then s else { s with order := (s.order.offer s.agent (ticketKey s.ticket)).tick s.agent }

/-- The hart has exited. -/
def State.retired (s : State) : State :=
  let s := s.setHart { s.hart with live := false, wait := .none, waitInstr := none }
  let F := s.front
  let s := s.leaveTicket
  let s := if s.isAccess then s.setFront { F with chain := F.chain.map (fun e => (e.1, e.2.map (Cmd.disown F.theRun.serial))) } else s
  if s.pair then s.pairEnd s.fid else s.endCr s.fid

/-- The EXIT of a SOLO CR leaves queue entries that retire later (R80), in a turn that says so; a run that holds its leases commits
at once. -/
def State.exitsLate (s : State) : Bool := s.late && !s.pair && !s.hart.holds && s.front.drain.isNone

/-- The scalar pipeline passes the EXIT of a SOLO CR: the front's queue drains, and another CR may come behind it (R80). -/
def State.passExit (s : State) : State :=
  let F := s.front
  s.setFront { F with
    run := none, a := F.a.blank, e := F.e.blank, lq := [], sqData := [], sqAddr := [], held := []
    drain := some {
      run := F.theRun, hart := { F.e with wait := .none, waitInstr := none }, grant := F.grant, lanes := F.lanes, image := F.image } }

/-- Front `f` without the CR whose queue has drained, whose commands run on: the CR that ran ahead, as in `F`, keeps the
grant. -/
def State.passBerth (s : State) (f : Nat) (F : Front) (x : Run) : State :=
  let C := s.coreAt (f / 2)
  (s.setCoreAt (f / 2) (releaseSwatches (releaseTiles C x.tiles) x.swatches)).setFrontAt f
    { F with
      drain := none, tlb := (s.frontAt f).tlb
      chain := F.chain.map (fun e => (e.1, e.2.map (dropShadows x.serial)))
      shadows := F.shadows.map (fun e => (e.1, e.2.map (dropShadows x.serial))) }

/-- The last queue entry of the CR that exited from front `f` retires (R37, R81): its strip commits and it ends. Where the commit
faults, or is to run again, the exiting CR does so and the CR that runs ahead goes back. -/
def State.drainFront (s : State) (f : Nat) : State :=
  let F := s.frontAt f
  match F.drain with
  | none => s
  | some x =>
    let t := { s with fid := f, slot := .e }
    match commitStrip (t.setFrontAt f { F with run := some x.run, drain := none, e := x.hart, image := x.image }) with
    | .ok t => if F.run.isNone then t.retired else (t.leaveTicket.passBerth f F x.run).endRun x.run
    | .error (.wait _) => s
    | .error e => halt .exit (t.undrain f).settled e

/-- EXIT in privileged mode (R246, R249): the terminated flag of the fault record is set and the CR ends. -/
def State.terminateNow (s : State) : State :=
  let flags := (if s.hart.tasync then 1 else 0) + 4
  let s :=
    match windowPieces s s.ctx .write (s.recordAddr + 19) 1 with
    | .ok ps => s.forcePieces s.ctx s.agent 1 ps (toBytes 1 flags)
    | .error _ => s
  s.terminate s.fid s.hart.tcause.toNat

/-- The address entries whose data has come: those that no data completes are discarded (R66). -/
def Front.matchedOnly (F : Front) : Front :=
  [0, 1, 2, 3].foldl (fun F q =>
    { F with sqAddr := F.sqAddr.set [] q ((F.sqAddr.get [] q).take (F.sqData.get [] q).length) }) F

/-- The other hart of a PAIR stops as one of them ends the CR (13 R246): its strip is rolled back. -/
def State.stopOther (s : State) : State :=
  let sl : Slot := match s.slot with | .a => .e | .e => .a
  let t := { s with slot := sl }
  if t.hart.live then
    let t := rollback t
    { t.setHart { t.hart with live := false } with slot := s.slot }
  else s

/-- EXIT in privileged mode follows the store-queue stores whose data has come (03 R31); a PAIR's other hart brings no more. -/
def State.leaves (s : State) : State :=
  if s.pair then
    let s := s.stopOther
    let s := s.setFront s.front.matchedOnly
    if s.front.pairsDone then s.terminateNow else s.waiting .exit .room
  else s.terminateNow

/-- R342. -/
def execExit (s : State) : Host.Outcome State Fault Refusal :=
  if s.priv then .next s.leaves
  else if s.exitsLate then .next s.passExit
  else
    match commitStrip s with
    | .error e => .next (halt .exit s e)
    | .ok s =>
      let s := checkpoint s
      if s.isAccess then
        if [0, 1, 2, 3].all s.front.queueRoom then .next (s.setFront s.front.pushEnds).retired
        else .next (s.waiting .exit .room)
      else .next s.retired

/-! LAUNCH, WITHDRAW, CLAIM -/

/-- R360. -/
def execLaunch (p q : Bool) (b a d : Reg) (s : State) :=
  irrevocable (.launch p q b a d) (notExec (.launch p q b a d))
    (do
      sources [.x p a, .x q b]
      afterQueues
      let u ← getX a
      let v ← getX b
      noTicket u.toNat
      let hdr ← loadBlock u.toNat 128 128
      let img ← loadBlock v.toNat 256 256
      let t ← look id
      let (w, t) := t.launch t.regionKeyNow ⟨hdr, img, v.toNat⟩
      update (fun _ => t)
      fillX d (BitVec.ofNat 64 w)) s

/-- R466. -/
def execWithdraw (p q : Bool) (b a d : Reg) (s : State) :=
  irrevocable (.withdraw p q b a d) (notExec (.withdraw p q b a d))
    (do
      sources [.x p a, .x q b]
      afterQueues
      let u ← getX a
      let v ← getX b
      noTicket 0
      let t ← look id
      let k := if u = 0 then t.regionKeyNow else t.regionNamed u
      let (n, t) := t.withdraw k (v.extractLsb' 0 32) (v.extractLsb' 32 32)
      update (fun _ => t.settled)
      fillX d (BitVec.ofNat 64 n)) s

/-- One word of CLAIM's block. -/
def claimWord (va key : Nat) : M Nat := do
  let s ← look id
  let bs ← orTrap va (s.readMem s.ctx s.agent 8 key 8)
  pure (ofBytes bs)

/-- R335, R47. -/
def execClaim (p q : Bool) (b a d : Reg) (s : State) :=
  irrevocable (.claim p q b a d) (notExec (.claim p q b a d))
    (do
      sources [.x p a, .x q b]
      afterQueues
      let u ← getX a
      let v ← getX b
      noTicket 0
      let ps ← scalarPieces .both u.toNat 16
      match ps with
      | [] => pure ()
      | pc :: _ => do
        let next ← claimWord u.toNat pc.key
        let lim ← claimWord (u.toNat + 8) (pc.key + 8)
        let t ← look id
        let g := min (min v.toNat (lim - next)) t.vlmax
        if g ≠ 0 then
          let t ← orTrap u.toNat (t.writeMem t.ctx t.agent 8 pc.key (toBytes 8 (next + g)))
          update (fun _ => t)
        updateRegs (fun r => { r with vl := BitVec.ofNat 16 g })
        fillX d (BitVec.ofNat 64 next)) s

/-! YIELD (R469) -/

/-- The CR holds a tile or a swatch that a command is using. -/
def State.crBusy (s : State) (f : Nat) : Bool :=
  (s.tilesHeld f).any (fun t => t.st == .busy || t.st == .draining) ||
  (s.swatchesHeld f).any (fun w => w.1.st == .filling || w.1.st == .draining)

/-- Where YIELD takes the CR: off its front to the tail of its region's FIFO, or on to the next instruction where it
cannot be saved. -/
def State.yielded (s : State) : State :=
  let next := checkpoint (s.advance (Instr.size .yield))
  match next.saveCr s.fid true (next.needsOf s.fid) with
  | none => next
  | some (c, t) => t.pushReady (regionKey s.ctx c.region) c c.bytes

/-- R469: legal in no hart of a PAIR CR; in privileged mode it does nothing. -/
def execYield (s : State) : Host.Outcome State Fault Refusal :=
  match illegalIf .yield s.pair s with
  | .error e => .next (halt .yield s e)
  | .ok _ =>
    if s.priv then .next (s.advance (Instr.size .yield))
    else
      match commitStrip s with
      | .error e => .next (halt .yield s e)
      | .ok s =>
        let s := checkpoint s
        if s.hart.fills ≠ [] ∨ s.crBusy s.fid = true then .next (s.waiting .yield .resource) else .next s.yielded

/-! WMPUB, QSYNC -/

/-- R467, R161. -/
def execWmpub (p q : Bool) (b a : Reg) (s : State) :=
  irrevocable (.wmpub p q b a) (notExec (.wmpub p q b a))
    (do
      sources [.x p a, .x q b]
      afterQueues
      let u ← getX a
      let v ← getX b
      let ps ← scalarPieces .both u.toNat 8
      let t ← look id
      if t.ticket ≠ 0 then logEffect (.wmpub u.toNat v t.priv)
      else
        let _ ← modify u.toNat 8 true ps (fun old => if old < v.toNat then some v.toNat else none)
        updateRun (fun r => { r with wmaddr := u, wmval := v })) s

/-- CRs of a region that are held on queue 0 (R372): pushed and neither exited nor withdrawn; the root CR never counts. -/
def State.heldCrs (s : State) (k : Nat) : Nat :=
  let R := s.regionAt k
  (s.running.filter (fun r => regionKey r.2.ctx r.2.cr.region == k && !r.2.cr.root)).length +
  ((R.ready ++ R.parked ++ R.held).filter (fun c => !c.root)).length

/-- A command is of the region that stands at a key: ids are given again (R38), places in the order of launches are not. -/
def State.cmdOf (s : State) (k : Nat) (c : Cmd) : Bool :=
  c.owned && regionKey c.ctx c.region == k && c.launch == (s.regionAt k).order

/-- Commands of a region on an engine selector that have not completed (R40). -/
def State.heldCmds (s : State) (k sel : Nat) : Nat :=
  (s.fronts.flatMap (fun e => (e.2.chain.get [] sel).filter (s.cmdOf k))).length

/-- Entries of queue `q` still held. -/
def State.heldOf (s : State) (k q : Nat) : Nat := if q = 0 then s.heldCrs k else s.heldCmds k (q - 1)

/-- R372. -/
def execQsync (p : Bool) (a d : Reg) (s : State) :=
  plain (.qsync p a d) (do
    notExec (.qsync p a d)
    sources [.x p a]
    let u ← getX a
    illegalIf (.qsync p a d) (3 < u.toNat)
    let t ← look id
    let k := t.regionKeyNow
    let n := t.heldOf k u.toNat
    update (fun t =>
      let R := t.regionAt k
      t.putRegion k { R with charged := R.charged.set 0 u.toNat n })
    fillX d (BitVec.ofNat 64 n)) s

/-! PIN, UNPIN (R370, R404) -/

/-- Write retention register `k` of the current context (07 R140). One that already holds the range with these ways keeps its
place in the order of writes, so that a replay leaves the same state. -/
def State.pin (s : State) (k : Nat) (e : Retention) : State :=
  let C := s.ctxAt s.ctx
  let old := C.retention.get {} k
  if { e with order := old.order } = old then s
  else
    let n := s.dev.retentions + 1
    let s := s.setCtxAt s.ctx { C with retention := C.retention.set {} k { e with order := n } }
    { s with dev := { s.dev with retentions := n } }

/-- R370. -/
def execPin (p q : Bool) (b a : Reg) (s : State) :=
  plain (.pin p q b a) (do
    notExec (.pin p q b a)
    sources [.x p a, .x q b]
    let u ← getX a
    let v ← getX b
    let base := u.toNat / 128 * 128
    illegalIf (.pin p q b a) (u.getLsbD 6 || v == 0 || v.toNat % 128 != 0)
    trapIf (2 ^ 42 ≤ base || 2 ^ 42 < base + v.toNat) Cause.outwin base
    update (fun t => t.pin (u.toNat % 8) ⟨base, v.toNat, (u.extractLsb' 3 3).toNat + 1, 0⟩)) s

/-- R404. -/
def execUnpin (p : Bool) (a : Reg) (s : State) :=
  plain (.unpin p a) (do
    notExec (.unpin p a)
    sources [.x p a]
    let u ← getX a
    update (fun t =>
      let C := t.ctxAt t.ctx
      t.setCtxAt t.ctx { C with retention := C.retention.set {} (u.toNat % 8) {} })) s

end Sys2Proof.Machine
end

