-- ==== Sys2Proof/Machine/Dispatcher.lean ====
section
/-! DEFINITION. The dispatchers (03 R41-R45; 04 R44, R53, R58-R60; 13 R251-R256): DISPATCH, BOUNDARY_PREEMPTION and
ABORT_PREEMPTION. Each step names a front in `arg.front` and does nothing where it is not due. -/

namespace Sys2Proof.Machine

/-! Lanes (R44, R58, R59) -/

/-- Lanes in a set. -/
def laneCount (w : Word) : Nat := popCount w 64

/-- The `n` lowest lanes of a set, looking from lane `k` up. -/
def lowestLanes (w : Word) : Nat → Nat → Nat → Word
  | 0, _, _ => 0
  | fuel + 1, k, n =>
    if n = 0 then 0
    else if w.getLsbD k then (1#64 <<< k) ||| lowestLanes w fuel (k + 1) (n - 1)
    else lowestLanes w fuel (k + 1) n

/-- The splits from the largest slice of front `k` of a core to the smallest. -/
def splitsFor (k : Nat) : List Nat := if k = 0 then [0, 1, 2, 3] else [3, 2, 1, 0]

/-- The largest split that leaves the other front's grant intact, and the healthy lanes of front `f`'s slice under it. -/
def State.freeLanes (s : State) (f : Nat) : Nat × Word :=
  let other := (s.frontAt (f / 2 * 2 + (1 - f % 2))).lanes
  let split := ((splitsFor (f % 2)).find? (fun sp => other &&& sliceOf sp (f % 2) == 0)).getD 0
  (split, sliceOf split (f % 2) &&& ~~~other &&& ~~~(s.coreAt (f / 2)).lanemap)

/-- Lanes, in a multiple of 8, that front `f` could ever be granted: those of its largest slice that are not retired. -/
def State.healthiest (s : State) (f : Nat) : Nat :=
  laneCount (sliceOf (if f % 2 = 0 then 0 else 3) (f % 2) &&& ~~~(s.coreAt (f / 2)).lanemap) / 8 * 8

/-! Eligibility (R41, R44, R174, R253) -/

/-- Tiles of a core that can be allocated, lowest first. -/
def Core.freeTiles (C : Core) : List Nat :=
  (List.range 8).filter (fun k => let t := C.tiles.get {} k; t.front == 256 && t.st == .off && !t.retired)

/-- Descriptors of a core that nothing owns, lowest first. -/
def Core.freeSwatches (C : Core) : List Nat := (List.range 64).filter (fun k => (C.swatches.get {} k).front == 256)

/-- VLMAX of a vtype under a grant reaches a vl. -/
def reaches (g : Nat) (n : BitVec 9 × Nat) : Bool :=
  let r : Regs := { vtype := n.1 }
  n.2 ≤ vlmaxOf g r.grp r.sew

/-- The grant that a CR would get of `n` free lanes, if one will do: as saved in `A` where it has been. -/
def grantOf (c : CR) (A : Save) (n : Nat) : Option Nat :=
  let g := min (c.lanemax * 8) (n / 8 * 8)
  if c.save = 0 then (if g < 8 ∨ g < c.lanemin * 8 then none else some g)
  else if A.sameGrant then (if n < A.grant ∨ n < c.lanemin * 8 ∨ A.grant < 8 then none else some A.grant)
  else if g < 8 ∨ g < c.lanemin * 8 ∨ A.needs.any (fun x => !reaches g x) then none
  else some g

/-- The fronts field leaves room for another running CR of a region, and nothing gates it. -/
def State.regionOpen (s : State) (k : Nat) (R : Region) : Bool :=
  R.status == 1 && !R.frozen && (s.running.filter (fun r => regionKey r.2.ctx r.2.cr.region == k)).length < R.fronts

/-- The grant that a ready CR would receive on front `f`, where it is eligible for it. -/
def State.offer (s : State) (f : Nat) (R : Region) (c : CR) : Option Nat :=
  let A := s.dev.saves.get {} c.save
  let C := s.coreAt (f / 2)
  if c.save ≠ 0 ∧ A.run.bound = true ∧ A.front ≠ f then none
  else if C.freeTiles.length < R.htiles ∨ C.freeSwatches.length < R.hswatches then none
  else grantOf c A (laneCount (s.freeLanes f).2)

/-- The oldest eligible ready CR of a region for front `f`, with its grant. -/
def State.oldest (s : State) (f : Nat) (R : Region) : List CR → Option (CR × Nat)
  | [] => none
  | c :: cs =>
    match s.offer f R c with
    | some g => some (c, g)
    | none => State.oldest s f R cs

/-- A region's choice for front `f`. -/
def State.choiceOf (s : State) (f : Nat) (e : Nat × Region) : Option (CR × Nat) :=
  if s.regionOpen e.1 e.2 then s.oldest f e.2 e.2.ready else none

/-! Run-ahead (R80, 13 R257) -/

/-- A retired lane is among those granted on front `f` (R60). -/
def State.laneLost (s : State) (f : Nat) : Bool := (s.frontAt f).lanes &&& (s.coreAt (f / 2)).lanemap != 0

/-- Front `f` can take a ready CR of region `k` behind the CR whose queue drains there, under exactly that one's grant: tiles and
descriptors of that one are still taken. -/
def State.follows (s : State) (f k : Nat) (x : Drain) (c : CR) : Bool :=
  let A := s.dev.saves.get {} c.save
  let C := s.coreAt (f / 2)
  let R := s.regionAt k
  c.kind == 1 && k / 65536 == x.run.ctx && !s.laneLost f && c.lanemin * 8 ≤ x.grant && x.grant ≤ c.lanemax * 8 &&
  R.htiles ≤ C.freeTiles.length && R.hswatches ≤ C.freeSwatches.length &&
  (c.save == 0 || (!(A.run.bound && A.front != f) &&
    if A.sameGrant then A.grant == x.grant else A.needs.all (reaches x.grant)))

/-- A region's choice for front `f` behind the CR whose queue drains there. -/
def State.choiceBehind (s : State) (f : Nat) (x : Drain) (e : Nat × Region) : Option (CR × Nat) :=
  if s.regionOpen e.1 e.2 then (e.2.ready.find? (s.follows f e.1 x)).map (fun c => (c, x.grant)) else none

/-! The choice of a region (R42, R43) -/

/-- What a dispatcher may place of a region: nothing, or a CR and its grant. -/
abbrev Chooser := Nat × Region → Option (CR × Nat)

/-- Effective priority. -/
def Region.level (R : Region) : Nat := min 7 (R.priority + R.steps)

/-- Put a region into a list in the order of launches. -/
def insertByOrder (e : Nat × Region) : List (Nat × Region) → List (Nat × Region)
  | [] => [e]
  | x :: xs => if e.2.order < x.2.order then e :: x :: xs else x :: insertByOrder e xs

/-- The ACTIVE regions of a priority in the order of launches. -/
def State.ringAt (s : State) (level : Nat) : List (Nat × Region) :=
  ((s.regions.filter (fun e => e.2.status == 1 && e.2.level == level)).foldl (fun l e => insertByOrder e l) [])

/-- Turn a list round to begin at the first entry that `p` picks. -/
def rotateTo {α : Type} (p : α → Bool) (l : List α) : List α := l.dropWhile (fun x => !p x) ++ l.takeWhile (fun x => !p x)

/-- The visits of deficit round-robin: the region that places and the deficits then. `fresh` says that a visit begins a
turn; `all` is a round, and the list what is left of this one. -/
def visit (ch : Chooser) (all : List (Nat × Region)) :
    Nat → List (Nat × Region) → Bool → Table Nat → Option (Nat × CR × Nat × Table Nat)
  | 0, _, _, _ => none
  | n + 1, [], fresh, D => visit ch all n all fresh D
  | n + 1, e :: es, fresh, D =>
    match ch e with
    | none => visit ch all n es true (D.set 0 e.1 0)
    | some (c, g) =>
      let d := D.get 0 e.1 + if fresh then e.2.share else 0
      if g / 8 ≤ d then some (e.1, c, g, D.set 0 e.1 (d - g / 8)) else visit ch all n es true (D.set 0 e.1 d)

/-- The highest effective priority that has a CR to place. -/
def State.topLevel (s : State) (ch : Chooser) : Option Nat :=
  s.regions.foldl (fun m e =>
    if (ch e).isSome then (match m with | none => some e.2.level | some l => some (max l e.2.level)) else m) none

/-- The placement that front `f`'s dispatcher decides on: region, CR, grant, and the die's deficits. A decision at another priority
than the one before ends the turn of the region at the cursor, and the next region in the order begins one (DESIGN CHOICE: R42
does not say; log entry 56). -/
def State.decideBy (s : State) (f : Nat) (ch : Chooser) : Option (Nat × CR × Nat × Table Nat) :=
  match s.topLevel ch with
  | none => none
  | some level =>
    let ring := s.ringAt level
    let cur := s.dev.cursor.get 0 (f / 128)
    let going := ring.any (fun e => e.2.order + 1 == cur)
    let ring := if going then rotateTo (fun e => e.2.order + 1 == cur) ring
      else rotateTo (fun e => cur < e.2.order + 1) ring
    visit ch ring (20 * (ring.length + 1)) ring (!going) (s.dev.deficits.get [] (f / 128))

/-- The decision for an idle front, and the one behind a CR whose queue drains there. -/
def State.decision (s : State) (f : Nat) : Option (Nat × CR × Nat × Table Nat) := s.decideBy f (s.choiceOf f)
def State.decisionBehind (s : State) (f : Nat) (x : Drain) : Option (Nat × CR × Nat × Table Nat) := s.decideBy f (s.choiceBehind f x)

/-- Aging after a decision that placed a CR of region `k` (R43). -/
def age (ch : Chooser) (k : Nat) (e : Nat × Region) : Nat × Region :=
  if e.1 = k then (e.1, { e.2 with aging := 0, steps := 0 })
  else if (ch e).isSome then
    if 65536 ≤ e.2.aging + 1 then (e.1, { e.2 with aging := 0, steps := e.2.steps + 1 })
    else (e.1, { e.2 with aging := e.2.aging + 1 })
  else e

/-! Placing (R44, R53, R194, R255) -/

/-- The run tag that a register reads as at dispatch: free where the map has a field (R9, 06 R105). -/
def freeTag (cycle place : Nat) : Word := Config.freeWord cycle place &&& 0xFF03FFFF#64

/-- The registers of a hart at dispatch (R9, R53): x1 the frame, the others free values of this cycle. -/
def freshRegs (cycle : Nat) (sl : Slot) (frame pc : Word) : Regs :=
  let base := 64 * slotNum sl
  { x := (List.range 31).map (fun k => (k + 1, if k = 0 then frame else Config.freeWord cycle (base + k + 1)))
    v := (List.range 32).map (fun k => (k, Config.freeVector cycle (base + k)))
    m := (List.range 8).map (fun k => (k, Config.freeMask cycle (base + k)))
    stag := (List.range 32).map (fun k => (k, freeTag cycle (base + 32 + k)))
    pc := pc }

/-- A hart at dispatch. -/
def freshHart (cycle : Nat) (sl : Slot) (c : CR) (tiles : List Tile) : Hart :=
  let r := freshRegs cycle sl c.frame (if sl = .e ∧ c.kind = 2 then c.code + 4 else c.code)
  { regs := r, ckpt := r, ckTiles := tiles, live := true }

/-- Give tiles to a CR: as they stand in `old`, or OFF; that a tile of it was retired stays with that tile (10 R208, R209). -/
def giveTiles (C : Core) (f serial : Nat) : List Nat → List Tile → Core
  | [], _ => C
  | k :: ks, old =>
    giveTiles { C with tiles := C.tiles.set {} k { old.headD {} with front := f, serial := serial, retired := false } } f serial ks old.tail

/-- Give descriptors to a CR: as they stood with the bytes of those that were READY, or zero. -/
def giveSwatches (C : Core) (f serial : Nat) : List Nat → List (Swatch × List Byte) → Core
  | [], _ => C
  | k :: ks, old =>
    let e := old.headD ({}, [])
    giveSwatches { C with
      swatches := C.swatches.set {} k { e.1 with front := f, serial := serial }
      scratch := C.scratch.setBytes e.1.base.toNat e.2 } f serial ks old.tail

/-- The place that a CR gets on a front: grant, lanes, the core's split, and the core's tiles and descriptors. -/
structure Berth where
  grant : Nat
  lanes : Word
  split : BitVec 2
  tiles : List Nat
  swatches : List Nat
  deriving DecidableEq, Repr

/-- Give back the Sorus commands of a CR's swatches, on front `f` (14 R273). -/
def giveSorus (C : Core) (f : Nat) (sw : List Nat) (l : List (Nat × Sorus)) : Core :=
  { C with sorus := l.foldl (fun t e => Table.set none t (sw.getD e.1 64) (some { e.2 with front := f })) C.sorus }

/-- A command of a CR that comes back after RESTORE (14 R273): it holds the tile and the descriptors that the CR gets. -/
def Cmd.back (serial : Nat) (tiles sw : List Nat) (c : Cmd) : Cmd :=
  if c.away ∧ c.serial = serial then
    { c with
      away := false, srcs := c.srcs.map (fun k => sw.getD k 64), dsts := c.dsts.map (fun k => sw.getD k 64)
      tile := c.tile.map (fun k => tiles.getD k 8) }
  else c

/-- The harts of front `f` have observed what a CR has (log entry 76): the JOIN that woke it (11 R222), and what it has done itself where
it comes from a save area. -/
def State.takeOrder (s : State) (f : Nat) (c : CR) (serial : Nat) : State :=
  { s with order := [Slot.a, Slot.e].foldl (fun o sl =>
      let o := if c.woke = 0 then o else o.observe (hartAgent f sl) (wakeKey c.woke)
      if c.save = 0 then o else o.observe (hartAgent f sl) (crKey serial (slotNum sl))) s.order }

/-- Place a CR of region `k` on front `f`. In a SOLO CR's unoccupied access slot every register that a CR has holds 0 (DESIGN CHOICE:
R9 and 02 R12 give it none; log entry 65); the trap registers are the slot's. -/
def State.placeAt (s : State) (f k : Nat) (c : CR) (B : Berth) : State :=
  let g := B.grant
  let C := s.coreAt (f / 2)
  let tiles := B.tiles
  let sw := B.swatches
  let A := s.dev.saves.get {} c.save
  let serial := if c.save = 0 then s.dev.serials + 1 else A.run.serial
  let C := giveTiles C f serial tiles A.tiles
  let C := giveSorus (giveSwatches C f serial sw A.swatches) f sw A.sorus
  let s := s.setCoreAt (f / 2) { C with lpart := B.split }
  let now := tiles.map (fun t => C.tiles.get {} t)
  let F := s.frontAt f
  let F := { F with grant := g, lanes := B.lanes, held := A.held, image := s.mem, frozen := false }
  let run : Run := { (if c.save = 0 then {} else A.run) with
    cr := c, ctx := k / 65536, serial := serial, since := s.cycle, cweight := c.weight, tiles := tiles, swatches := sw,
    laneless := false }
  let F :=
    if c.save = 0 then
      { F with
        run := some run, lq := [], sqData := [], sqAddr := []
        a := if c.kind = 2 then (freshHart s.cycle .a c []).inSlot F.a else F.a.blank
        e := (freshHart s.cycle .e c now).inSlot F.e }
    else
      { F with
        run := some run, lq := A.lq, sqData := A.sqData, sqAddr := A.sqAddr
        chain := F.chain.map (fun e => (e.1, e.2.map (Cmd.back serial tiles sw)))
        a := (A.a.restored 0 g A.grant A.lens []).inSlot F.a, e := (A.e.restored 1 g A.grant A.lens now).inSlot F.e }
  let s := (s.setFrontAt f F).takeOrder f c serial
  { s with dev := { s.dev with
    serials := if c.save = 0 then s.dev.serials + 1 else s.dev.serials
    saves := if c.save = 0 then s.dev.saves else s.dev.saves.set {} c.save { A with lens := keptLens g A.lens, sorus := [], held := [] } } }

/-- Place a CR of region `k` on front `f` with `g` of its free lanes. -/
def State.place (s : State) (f k : Nat) (c : CR) (g : Nat) : State :=
  let R := s.regionAt k
  let (split, free) := s.freeLanes f
  let C := s.coreAt (f / 2)
  s.placeAt f k c ⟨g, lowestLanes free 64 0 g, BitVec.ofNat 2 split, C.freeTiles.take R.htiles, C.freeSwatches.take R.hswatches⟩

/-- Place a CR of region `k` on front `f` behind the CR whose queue drains there, on the same lanes. -/
def State.placeBehind (s : State) (f k : Nat) (c : CR) (x : Drain) : State :=
  let R := s.regionAt k
  let C := s.coreAt (f / 2)
  s.placeAt f k c ⟨x.grant, x.lanes, C.lpart, C.freeTiles.take R.htiles, C.freeSwatches.take R.hswatches⟩

/-! A CR that no lanes of its front can serve (R60, R253) -/

/-- No grant of front `f`'s healthy lanes satisfies a CR with these needs. -/
def State.hopeless (s : State) (f : Nat) (c : CR) (needs : List (BitVec 9 × Nat)) : Bool :=
  let g := min (c.lanemax * 8) (s.healthiest f)
  decide (g < 8) || decide (g < c.lanemin * 8) || needs.any (fun x => !reaches g x)

/-- Terminate a queued CR with a cause: its weight and its area return. -/
def State.terminateQueued (s : State) (k : Nat) (c : CR) (cause : Nat) : State :=
  let R := s.regionAt k
  let s := (s.setRegionAt k { R with ready := R.ready.filter (fun x => x != c) }).freeSave c.save
  if c.ticket ≠ 0 then ((s.addPool c.ticket c.weight).squash c.ticket (BitVec.ofNat 8 cause) 0xFFFFFFFF#32).settled
  else
    let R := s.regionAt k
    let s := s.putRegion k { R with returned := R.returned + c.weight, faults := if R.propagate then R.faults else R.faults + 1 }
    if R.propagate then (s.failRegion k).settled else (s.checkComplete k).settled

/-- A CR bound to front `f`, queued, that nothing there can serve. -/
def State.stranded (s : State) (f : Nat) : Option (Nat × CR) :=
  s.regions.findSome? (fun e =>
    (e.2.ready.find? (fun c =>
      let A := s.dev.saves.get {} c.save
      c.save != 0 && A.run.bound && A.front == f && !A.sameGrant && s.hopeless f c A.needs)).map (fun c => (e.1, c)))

/-- Take a CR off its front to the head of its region's FIFO, saved; none where no area can be allocated. -/
def State.preempt (s : State) (f : Nat) (same : Bool) (needs : List (BitVec 9 × Nat)) (cause : Nat) : Option State :=
  let ctx := (s.frontAt f).theRun.ctx
  match s.saveCr f same needs with
  | none => none
  | some (c, s) =>
    let A := s.dev.saves.get {} c.save
    let s := { s with dev := { s.dev with saves := s.dev.saves.set {} c.save { A with cause := cause } } }
    some (s.pushHead (regionKey ctx c.region) c)

/-- A hart that goes on under a grant of `g` lanes: what its registers hold beyond them is lost, and tags follow R109. -/
def Hart.regranted (h : Hart) (g : Nat) : Hart :=
  let f (r : Regs) : Regs := { r with v := r.v.map (fun e => (e.1, mergeLow (32 * g) 0 e.2)), stag := capTags g r.stag }
  { h with regs := f h.regs, ckpt := f h.ckpt, vlen := keptLens g h.vlen }

/-- What a CR without lanes does (R60): it resumes where a grant of its front's healthy lanes will do now; where none ever will and
it is bound, it is terminated; otherwise it leaves the front once it can be saved. One that a command's tile or swatch binds
waits for the command (DESIGN CHOICE: log entry 69). -/
def State.serveLaneless (s : State) (f : Nat) : State :=
  let F := s.frontAt f
  let r := F.theRun
  let needs := s.needsOf f
  let (split, free) := s.freeLanes f
  let g := min (r.cr.lanemax * 8) (laneCount free / 8 * 8)
  if 8 ≤ g ∧ r.cr.lanemin * 8 ≤ g ∧ needs.all (reaches g) = true then
    let C := s.coreAt (f / 2)
    (s.setCoreAt (f / 2) { C with lpart := BitVec.ofNat 2 split }).setFrontAt f
      { F with
        grant := g, lanes := lowestLanes free 64 0 g, run := some { r with laneless := false }
        a := F.a.regranted g, e := F.e.regranted g }
  else if r.bound = true ∧ s.hopeless f r.cr needs = true then s.terminate f Cause.ecc
  else if s.crBusy f then s
  else (s.preempt f false needs Cause.preempt).getD s

/-! DISPATCH (R42) -/

/-- The dispatcher takes what it decided on off its region's FIFO; `ch` is what it chose from. -/
def State.takeReady (s : State) (f : Nat) (ch : Chooser) (k : Nat) (c : CR) (D : Table Nat) : State :=
  let R := s.regionAt k
  let regions := s.regions.map (age ch k)
  let dev := { s.dev with
    deficits := s.dev.deficits.set [] (f / 128) D, cursor := s.dev.cursor.set 0 (f / 128) (R.order + 1) }
  let s := { s with regions := regions, dev := dev }
  let R := s.regionAt k
  s.putRegion k { R with ready := R.ready.erase c, head := (R.head + 1) % 2 ^ 32 }

/-- Place a run-ahead CR on front `f`, behind the CR whose queue drains there (R80). -/
def State.dispatchBehind (s : State) (f : Nat) (x : Drain) : State :=
  match s.decisionBehind f x with
  | none => s
  | some (k, c, _, D) => (s.takeReady f (s.choiceBehind f x) k c D).placeBehind f k c x

/-- What the dispatcher does for the idle front `f`. -/
def State.dispatchIdle (s : State) (f : Nat) : State :=
  match s.stranded f with
  | some (k, c) => s.terminateQueued k c Cause.ecc
  | none =>
    match s.decision f with
    | none => s
    | some (k, c, g, D) => (s.takeReady f (s.choiceOf f) k c D).place f k c g

/-- The idle front `f` asks, and there is something for its dispatcher to do. -/
def State.asks (s : State) (f : Nat) : Bool :=
  let F := s.frontAt f
  F.run.isNone && F.drain.isNone && !F.frozen && ((s.stranded f).isSome || (s.decision f).isSome)

/-- No front of the die with a lower number asks (R42). An idle front asks as soon as there is something for it (DEDUCED; log entry
70). -/
def State.firstOfDie (s : State) (f : Nat) : Bool := (List.range (f % 128)).all (fun i => !s.asks (f / 128 * 128 + i))

/-- R42: front `arg.front` asks its die's dispatcher for a CR, one that runs ahead where a queue drains there (R80). -/
def execDispatch (s : State) : Host.Outcome State Fault Refusal :=
  let f := s.arg.front % 256
  let F := s.frontAt f
  if F.frozen then .next s
  else if F.run.isSome then .next (if F.theRun.laneless then s.serveLaneless f else s)
  else if s.firstOfDie f = false then .next s
  else
    match F.drain with
    | some x => .next (s.dispatchBehind f x)
    | none => .next (s.dispatchIdle f)

/-! Pre-emption (R45, R251-R253) -/

/-- The front with its CR taken off it, for the question whether another would then be eligible. -/
def State.without (s : State) (f : Nat) : State :=
  let r := (s.frontAt f).theRun
  let C := s.coreAt (f / 2)
  (s.setCoreAt (f / 2) (releaseSwatches (releaseTiles C r.tiles) r.swatches)).setFrontAt f
    { s.frontAt f with run := none, grant := 0, lanes := 0 }

/-- A ready CR is eligible for front `f`. -/
def State.fits (s : State) (f k : Nat) (c : CR) : Bool :=
  (s.frontAt f).run.isNone && (s.frontAt f).drain.isNone && s.regionOpen k (s.regionAt k) && (s.offer f (s.regionAt k) c).isSome

/-- R251: the CR of front `f` is passed over: a tile or swatch of it is busy, or one hart of a PAIR has exited; so are two CRs of
which one's queue drains (log entry 51). -/
def State.passedOver (s : State) (f : Nat) : Bool :=
  let F := s.frontAt f
  F.drain.isSome || s.crBusy f || (F.theRun.cr.kind == 2 && !(F.a.live && F.e.live))

/-- Whether front `f`'s CR is a candidate for a ready CR (R45): `some false` where the freed front serves it (boundary),
`some true` where the core's other front does, with the lanes reclaimed (abort). -/
def State.candidate (s : State) (k : Nat) (c : CR) (f : Nat) : Option Bool :=
  let r := (s.frontAt f).theRun
  let V := s.regionAt (regionKey r.ctx r.cr.region)
  if V.preemptible = false ∨ (s.regionAt k).level ≤ V.level ∨ V.frozen = true ∨ s.passedOver f = true then none
  else if (s.without f).fits f k c then some false
  else if (s.without f).fits (f / 2 * 2 + (1 - f % 2)) k c then some true
  else none

/-- The better victim of two: lower effective priority, then more recently dispatched. -/
def State.betterVictim (s : State) (f g : Nat) : Bool :=
  let r := (s.frontAt f).theRun
  let q := (s.frontAt g).theRun
  let lf := (s.regionAt (regionKey r.ctx r.cr.region)).level
  let lg := (s.regionAt (regionKey q.ctx q.cr.region)).level
  lf < lg || (lf == lg && q.since < r.since)

/-- The victim among running CRs for a ready one. -/
def State.victimFor (s : State) (k : Nat) (c : CR) : List (Nat × Run) → Option (Nat × Bool)
  | [] => none
  | (f, _) :: l =>
    match s.candidate k c f, State.victimFor s k c l with
    | none, v => v
    | some kind, none => some (f, kind)
    | some kind, some (g, kg) => if s.betterVictim f g then some (f, kind) else some (g, kg)

/-- A ready CR that no idle front of either die can take. -/
def State.unserved (s : State) (k : Nat) (c : CR) : Bool :=
  (s.regionAt k).status == 1 && !(s.regionAt k).frozen && (List.range 256).all (fun f => !s.fits f k c)

/-- The victim of R45, for the first ready CR that has one, and for that CR alone: its front, and whether the pre-emption aborts. CRs
are looked at by falling effective priority, then in the order of launches, then oldest first (DESIGN CHOICE: R45 does not say
which of several is served; log entry 57). -/
def State.victim (s : State) : Option (Nat × Bool) :=
  if s.dev.savePool = 0 then none
  else
    [7, 6, 5, 4, 3, 2, 1].findSome? (fun level =>
      (s.ringAt level).findSome? (fun e => e.2.ready.findSome? (fun c =>
        if s.unserved e.1 c then s.victimFor e.1 c s.running else none)))

/-- A hart of a front is in privileged mode (R245, R251). -/
def Front.anyPriv (F : Front) : Bool := F.a.priv || F.e.priv

/-- A hart of a front is inside an iteration of a VLOOP. -/
def Front.midLoop (F : Front) : Bool := (F.a.live && F.a.regs.midLoop) || (F.e.live && F.e.regs.midLoop)

/-- Commit the strip so far of one hart of front `f` and take its checkpoint there; where the commit stops, what it does
to the hart. -/
def State.drain (s : State) (f : Nat) (sl : Slot) : Except State State :=
  let t := { s with fid := f, slot := sl }
  if t.hart.live then
    match commitStrip t with
    | .ok t => .ok (checkpoint t)
    | .error (.wait _) => .error s
    | .error e => .error (halt (t.hart.waitInstr.getD .yield) t e)
  else .ok t

/-- R252: the victim `arg.front` is drained, saved and returned to the head of its region's FIFO. -/
def execBoundaryPreemption (s : State) : Host.Outcome State Fault Refusal :=
  let f := s.arg.front % 256
  let F := s.frontAt f
  if s.victim = some (f, false) ∧ F.anyPriv = false ∧ F.a.fills = [] ∧ F.e.fills = [] ∧ F.midLoop = false then
    match s.drain f .a with
    | .error t => .next t
    | .ok t =>
      match t.drain f .e with
      | .error t => .next t
      | .ok t =>
        let live := [Slot.a, Slot.e].filter (fun sl => ((t.frontAt f).hart sl).live)
        let same := !live.all (fun sl => { t with fid := f, slot := sl }.atStripStart)
        .next ((t.preempt f same (if same then t.needsOf f else []) 0).getD s)
  else .next s

/-- Roll back the strips of a front's live harts; what committed strips load has landed. -/
def State.abortHarts (s : State) (f : Nat) : State :=
  [Slot.a, Slot.e].foldl (fun s sl =>
    let t := { s with fid := f, slot := sl }
    if t.hart.live then
      let t := rollback t
      t.setHart { t.hart.landAll with ckpt := t.hart.landAll.regs }
    else s) s

/-- R60, R253: the CR of `arg.front` is rolled back and saved, because a lane of its grant is retired or the dispatcher
reclaims its lanes. `arg.flag`: its checkpoint copy is uncorrectable. -/
def execAbortPreemption (s : State) : Host.Outcome State Fault Refusal :=
  let f := s.arg.front % 256
  let s := if s.laneLost f && (s.frontAt f).drain.isSome && !(s.frontAt f).frozen then (s.undrain f).settled else s
  let F := s.frontAt f
  if F.run.isNone ∨ F.anyPriv = true ∨ F.frozen = true then .next s
  else if s.laneLost f then
    if s.arg.flag then .next (s.terminate f Cause.ecc)
    else
      let t := s.abortHarts f
      let needs := t.needsOf f
      let r := (t.frontAt f).theRun
      if r.bound = true ∧ t.hopeless f r.cr needs = true then .next (t.terminate f Cause.ecc)
      else
        match if t.crBusy f then none else t.preempt f false needs Cause.preempt with
        | some t => .next t
        | none =>
          .next (t.setFrontAt f { t.frontAt f with grant := 0, lanes := 0, run := some { r with laneless := true } })
  else if s.victim = some (f, true) then
    let t := s.abortHarts f
    .next ((t.preempt f false (t.needsOf f) Cause.preempt).getD s)
  else .next s

end Sys2Proof.Machine
end

