-- ==== Sys2Proof/Machine/Float.lean ====
section
/-! DEFINITION. Floating and tapered arithmetic (05 R82-R103): values are computed exactly as sign, integer and power of
two, and rounded once. Patterns are numbers; flags are NV, DZ, OF, UF, NX from bit 4 down (R94). -/

namespace Sys2Proof.Machine

/-- A binary format: exponent bits and fraction bits (R82). -/
structure Fmt where
  eb : Nat
  mb : Nat
  deriving DecidableEq, Repr

def f64 : Fmt := ⟨11, 52⟩
def f32 : Fmt := ⟨8, 23⟩
def f16 : Fmt := ⟨5, 10⟩
def bf16 : Fmt := ⟨8, 7⟩

def Fmt.width (f : Fmt) : Nat := f.eb + f.mb + 1
def Fmt.bias (f : Fmt) : Int := 2 ^ (f.eb - 1) - 1
/-- Exponents of the least normal and of the greatest value, and of the least subnormal's unit. -/
def Fmt.emin (f : Fmt) : Int := 1 - f.bias
def Fmt.emax (f : Fmt) : Int := f.bias
def Fmt.qmin (f : Fmt) : Int := f.emin - f.mb

/-- Rounding modes (R90). -/
abbrev Rm := Nat
def rne : Rm := 0
def rtz : Rm := 1
def rdn : Rm := 2
def rup : Rm := 3
def rmm : Rm := 4

abbrev Flags := BitVec 5
def nv : Flags := 16
def dz : Flags := 8
def ovf : Flags := 4
def unf : Flags := 2
def nx : Flags := 1

/-- What a pattern means: a NaN (signalling or not), an infinity, or ±m·2^e. -/
inductive Fp where
  | nan (sig : Bool)
  | inf (neg : Bool)
  | fin (neg : Bool) (m : Nat) (e : Int)
  deriving DecidableEq, Repr

/-- The number of bits of a natural number. -/
def bitlen (n : Nat) : Nat := if n = 0 then 0 else Nat.log2 n + 1

/-- Read a pattern; the bits above the format's width are ignored (R83). -/
def Fmt.decode (f : Fmt) (p : Nat) : Fp :=
  let fr := p % 2 ^ f.mb
  let ex := p / 2 ^ f.mb % 2 ^ f.eb
  let neg := p / 2 ^ (f.eb + f.mb) % 2 == 1
  if ex = 2 ^ f.eb - 1 then (if fr = 0 then .inf neg else .nan (fr < 2 ^ (f.mb - 1)))
  else if ex = 0 then .fin neg fr f.qmin
  else .fin neg (2 ^ f.mb + fr) (f.qmin + (ex - 1))

/-- The canonical quiet NaN (R84). -/
def Fmt.canon (f : Fmt) : Nat := (2 ^ f.eb - 1) * 2 ^ f.mb + 2 ^ (f.mb - 1)
def Fmt.signBit (f : Fmt) (neg : Bool) : Nat := if neg then 2 ^ (f.eb + f.mb) else 0
def Fmt.infinity (f : Fmt) (neg : Bool) : Nat := f.signBit neg + (2 ^ f.eb - 1) * 2 ^ f.mb
def Fmt.maxFinite (f : Fmt) (neg : Bool) : Nat := f.signBit neg + (2 ^ f.eb - 1) * 2 ^ f.mb - 1
def Fmt.zero (f : Fmt) (neg : Bool) : Nat := f.signBit neg

/-- Divide m·2^e by 2^q and round to an integer: the integer, and whether it is inexact. `sticky` says that the
magnitude lies strictly between m·2^e and (m+1)·2^e. -/
def roundQ (rm : Rm) (neg : Bool) (m : Nat) (e q : Int) (sticky : Bool) : Nat × Bool :=
  if q ≤ e then (m * 2 ^ (e - q).toNat, sticky)
  else
    let sh := (q - e).toNat
    let n := m / 2 ^ sh
    let r := m % 2 ^ sh
    let h := 2 ^ (sh - 1)
    let inexact := r != 0 || sticky
    let up :=
      match rm with
      | 0 => h < r || (r == h && (sticky || n % 2 == 1))
      | 2 => neg && inexact
      | 3 => !neg && inexact
      | 4 => h ≤ r
      | _ => false
    (if up then n + 1 else n, inexact)

/-- What an overflow rounds to (R89). -/
def Fmt.overflow (f : Fmt) (rm : Rm) (neg : Bool) : Nat :=
  match rm with
  | 1 => f.maxFinite neg
  | 2 => if neg then f.infinity true else f.maxFinite false
  | 3 => if neg then f.maxFinite true else f.infinity false
  | _ => f.infinity neg

/-- Round ±(m, sticky)·2^e to a format: the pattern and its flags. Tininess is detected after rounding (R84). -/
def Fmt.round (f : Fmt) (rm : Rm) (neg : Bool) (m : Nat) (e : Int) (sticky : Bool) : Nat × Flags :=
  if m = 0 ∧ sticky = false then (f.zero neg, 0)
  else
    let top := e + bitlen m - 1
    let q := max (top - f.mb) f.qmin
    let (n, inexact) := roundQ rm neg m e q sticky
    let (n, q) := if n = 2 ^ (f.mb + 1) then (2 ^ f.mb, q + 1) else (n, q)
    if f.emax < q + bitlen n - 1 then (f.overflow rm neg, ovf ||| nx)
    else
      let u := (roundQ rm neg m e (top - f.mb) sticky).1
      let tiny := decide (top - f.mb + bitlen u - 1 < f.emin)
      let bits := if n < 2 ^ f.mb then n else (q - f.qmin + 1).toNat * 2 ^ f.mb + (n - 2 ^ f.mb)
      (f.signBit neg + bits, (if inexact then nx else 0) ||| (if inexact && tiny then unf else 0))

/-- NV for a signalling NaN. -/
def Fp.sig : Fp → Flags
  | .nan true => nv
  | _ => 0

/-- The exact sum of two finite values; a zero sum takes the sign given for it. -/
def exactAdd (n1 : Bool) (m1 : Nat) (e1 : Int) (n2 : Bool) (m2 : Nat) (e2 : Int) (rm : Rm) : Bool × Nat × Int :=
  let e := min e1 e2
  let a : Int := m1 * 2 ^ (e1 - e).toNat
  let b : Int := m2 * 2 ^ (e2 - e).toNat
  let s := (if n1 then -a else a) + (if n2 then -b else b)
  let neg := if s = 0 then (if n1 = n2 then n1 else rm == rdn) else decide (s < 0)
  (neg, s.natAbs, e)

/-- FADD (R344). -/
def Fmt.add (f : Fmt) (rm : Rm) (x y : Nat) : Nat × Flags :=
  match f.decode x, f.decode y with
  | .nan s, b => (f.canon, Fp.sig (.nan s) ||| b.sig)
  | a, .nan s => (f.canon, a.sig ||| Fp.sig (.nan s))
  | .inf n1, .inf n2 => if n1 = n2 then (f.infinity n1, 0) else (f.canon, nv)
  | .inf n, _ => (f.infinity n, 0)
  | _, .inf n => (f.infinity n, 0)
  | .fin n1 m1 e1, .fin n2 m2 e2 =>
    let (n, m, e) := exactAdd n1 m1 e1 n2 m2 e2 rm
    f.round rm n m e false

/-- The pattern with the other sign; a NaN keeps its kind. -/
def Fmt.negate (f : Fmt) (x : Nat) : Nat :=
  let p := x % 2 ^ f.width
  if p < 2 ^ (f.eb + f.mb) then p + 2 ^ (f.eb + f.mb) else p - 2 ^ (f.eb + f.mb)

/-- FSUB (R355). -/
def Fmt.sub (f : Fmt) (rm : Rm) (x y : Nat) : Nat × Flags := f.add rm x (f.negate y)

/-- FMUL (R352). -/
def Fmt.mul (f : Fmt) (rm : Rm) (x y : Nat) : Nat × Flags :=
  match f.decode x, f.decode y with
  | .nan s, b => (f.canon, Fp.sig (.nan s) ||| b.sig)
  | a, .nan s => (f.canon, a.sig ||| Fp.sig (.nan s))
  | .inf n1, .inf n2 => (f.infinity (n1 != n2), 0)
  | .inf n1, .fin n2 m _ => if m = 0 then (f.canon, nv) else (f.infinity (n1 != n2), 0)
  | .fin n1 m _, .inf n2 => if m = 0 then (f.canon, nv) else (f.infinity (n1 != n2), 0)
  | .fin n1 m1 e1, .fin n2 m2 e2 => f.round rm (n1 != n2) (m1 * m2) (e1 + e2) false

/-- FDIV (R349). -/
def Fmt.div (f : Fmt) (rm : Rm) (x y : Nat) : Nat × Flags :=
  match f.decode x, f.decode y with
  | .nan s, b => (f.canon, Fp.sig (.nan s) ||| b.sig)
  | a, .nan s => (f.canon, a.sig ||| Fp.sig (.nan s))
  | .inf _, .inf _ => (f.canon, nv)
  | .inf n1, .fin n2 _ _ => (f.infinity (n1 != n2), 0)
  | .fin n1 _ _, .inf n2 => (f.zero (n1 != n2), 0)
  | .fin n1 m1 e1, .fin n2 m2 e2 =>
    if m2 = 0 then (if m1 = 0 then (f.canon, nv) else (f.infinity (n1 != n2), dz))
    else if m1 = 0 then (f.zero (n1 != n2), 0)
    else
      let k := f.mb + 4 + bitlen m2
      f.round rm (n1 != n2) (m1 * 2 ^ k / m2) (e1 - e2 - k) (m1 * 2 ^ k % m2 != 0)

/-- The integer square root, bit by bit: `k` bits remain to be tried. -/
def isqrt (n : Nat) : Nat → Nat → Nat
  | 0, r => r
  | k + 1, r => if (r + 2 ^ k) * (r + 2 ^ k) ≤ n then isqrt n k (r + 2 ^ k) else isqrt n k r

/-- FSQRT (R354). -/
def Fmt.sqrt (f : Fmt) (rm : Rm) (x : Nat) : Nat × Flags :=
  match f.decode x with
  | .nan s => (f.canon, Fp.sig (.nan s))
  | .inf n => if n then (f.canon, nv) else (f.infinity false, 0)
  | .fin n m e =>
    if m = 0 then (f.zero n, 0)
    else if n then (f.canon, nv)
    else
      let k := 2 * (f.mb + 4) + (if e % 2 = 0 then 0 else 1)
      let a := m * 2 ^ k
      let r := isqrt a (bitlen a / 2 + 1) 0
      f.round rm false r ((e - k) / 2) (r * r != a)

/-- a × b + c with one rounding (R350, R84). -/
def Fmt.fma (f : Fmt) (rm : Rm) (x y z : Nat) : Nat × Flags :=
  let a := f.decode x
  let b := f.decode y
  let c := f.decode z
  let sig := a.sig ||| b.sig ||| c.sig
  let add (n : Bool) (m : Nat) (e : Int) : Nat × Flags :=
    match c with
    | .nan _ => (f.canon, sig)
    | .inf nc => (f.infinity nc, 0)
    | .fin nc mc ec =>
      let (n, m, e) := exactAdd n m e nc mc ec rm
      f.round rm n m e false
  let big (n : Bool) : Nat × Flags :=
    match c with
    | .nan _ => (f.canon, sig)
    | .inf nc => if nc = n then (f.infinity n, 0) else (f.canon, nv)
    | .fin _ _ _ => (f.infinity n, 0)
  match a, b with
  | .nan _, _ => (f.canon, sig)
  | _, .nan _ => (f.canon, sig)
  | .inf n1, .inf n2 => big (n1 != n2)
  | .inf n1, .fin n2 m _ => if m = 0 then (f.canon, nv) else big (n1 != n2)
  | .fin n1 m _, .inf n2 => if m = 0 then (f.canon, nv) else big (n1 != n2)
  | .fin n1 m1 e1, .fin n2 m2 e2 => add (n1 != n2) (m1 * m2) (e1 + e2)

/-- Whether ±m1·2^e1 is below ±m2·2^e2. -/
def finLt (n1 : Bool) (m1 : Nat) (e1 : Int) (n2 : Bool) (m2 : Nat) (e2 : Int) : Bool :=
  let e := min e1 e2
  let a : Int := m1 * 2 ^ (e1 - e).toNat
  let b : Int := m2 * 2 ^ (e2 - e).toNat
  decide ((if n1 then -a else a) < (if n2 then -b else b))

/-- a < b for values that are no NaN; −0 = +0. -/
def Fp.lt : Fp → Fp → Bool
  | .inf n1, .inf n2 => n1 && !n2
  | .inf n, .fin _ _ _ => n
  | .fin _ _ _, .inf n => !n
  | .fin n1 m1 e1, .fin n2 m2 e2 => finLt n1 m1 e1 n2 m2 e2
  | _, _ => false

def Fp.isNan : Fp → Bool
  | .nan _ => true
  | _ => false

/-- Sign of a value that is no NaN. -/
def Fp.neg : Fp → Bool
  | .inf n => n
  | .fin n _ _ => n
  | .nan _ => false

/-- FMIN and FMAX (R351): minimumNumber and maximumNumber, with −0 below +0. -/
def Fmt.minMax (f : Fmt) (max : Bool) (x y : Nat) : Nat × Flags :=
  let a := f.decode x
  let b := f.decode y
  let x := x % 2 ^ f.width
  let y := y % 2 ^ f.width
  let fl := a.sig ||| b.sig
  if a.isNan ∧ b.isNan then (f.canon, fl)
  else if a.isNan then (y, fl)
  else if b.isNan then (x, fl)
  else
    let below := a.lt b || (!b.lt a && a.neg && !b.neg)
    (if below != max then x else y, fl)

/-- Compare (R346): conditions 0 EQ, 1 LT, 2 LE, 3 UN. -/
def Fmt.cmp (f : Fmt) (c : Nat) (x y : Nat) : Bool × Flags :=
  let a := f.decode x
  let b := f.decode y
  let un := a.isNan || b.isNan
  let quiet := a.sig ||| b.sig
  match c with
  | 0 => (!un && !a.lt b && !b.lt a, quiet)
  | 1 => (!un && a.lt b, if un then nv else 0)
  | 2 => (!un && !b.lt a, if un then nv else 0)
  | _ => (un, quiet)

/-- FCLASS (R345): the bit number. -/
def Fmt.classOf (f : Fmt) (x : Nat) : Nat :=
  match f.decode x with
  | .nan true => 8
  | .nan false => 9
  | .inf true => 0
  | .inf false => 7
  | .fin n m _ =>
    if m = 0 then (if n then 3 else 4)
    else if m < 2 ^ f.mb then (if n then 2 else 5)
    else if n then 1 else 6

/-- Float to float (R89). A conversion to the same format copies the value. -/
def Fmt.ofFp (f : Fmt) (rm : Rm) (a : Fp) : Nat × Flags :=
  match a with
  | .nan s => (f.canon, if s then nv else 0)
  | .inf n => (f.infinity n, 0)
  | .fin n m e => f.round rm n m e false

/-- Float to an integer of `w` bits (R89): the low `w` bits. -/
def intOfFp (signed : Bool) (w : Nat) (rm : Rm) (a : Fp) : Nat × Flags :=
  let hi : Int := if signed then 2 ^ (w - 1) - 1 else 2 ^ w - 1
  let lo : Int := if signed then -(2 ^ (w - 1)) else 0
  let wrap (v : Int) : Nat := (v % 2 ^ w).toNat
  match a with
  | .nan _ => (0, nv)
  | .inf n => (wrap (if n then lo else hi), nv)
  | .fin n m e =>
    let (k, inexact) := roundQ rm n m e 0 false
    let v : Int := if n then -(k : Int) else k
    if v < lo then (wrap lo, nv)
    else if hi < v then (wrap hi, nv)
    else (wrap v, if inexact then nx else 0)

/-- An integer of `w` bits as a value. -/
def intValue (signed : Bool) (w p : Nat) : Int :=
  let p := p % 2 ^ w
  if signed ∧ 2 ^ (w - 1) ≤ p then (p : Int) - 2 ^ w else p

/-- An integer as an exact float value. -/
def fpOfInt (v : Int) : Fp := .fin (decide (v < 0)) v.natAbs 0

/-! Tapered formats (R85-R87): n = 8 or 6 -/

/-- Leading bits of the `k` low bits of `b` that equal `on`. -/
def leadRun (b : Nat) (on : Bool) : Nat → Nat
  | 0 => 0
  | k + 1 => if (b / 2 ^ k % 2 == 1) == on then 1 + leadRun b on k else 0

/-- DecodeTaper (R85) of a positive pattern: significand and exponent. -/
def taperMag (n p : Nat) : Nat × Int :=
  let top := p / 2 ^ (n - 2) % 2 == 1
  let run := leadRun p top (n - 1)
  let k : Int := if top then run - 1 else -run
  let left := n - 1 - run - 1
  if n - 1 ≤ run then (1, 2 * k)
  else if left = 0 then (1, 2 * k)
  else
    let rest := p % 2 ^ left
    let e := rest / 2 ^ (left - 1)
    let fr := rest % 2 ^ (left - 1)
    (2 ^ (left - 1) + fr, 2 * k + e - (left - 1 : Nat))

/-- DecodeTaper (R85); NaR reads as a quiet NaN (R86). -/
def taperDecode (n p : Nat) : Fp :=
  let p := p % 2 ^ n
  if p = 0 then .fin false 0 0
  else if p = 2 ^ (n - 1) then .nan false
  else
    let neg := decide (2 ^ (n - 1) < p)
    let (m, e) := taperMag n (if neg then 2 ^ n - p else p)
    .fin neg m e

/-- The greatest positive pattern whose value is not above m·2^e, searching down from pattern `p`. -/
def taperFloor (n m : Nat) (e : Int) : Nat → Nat
  | 0 => 0
  | p + 1 =>
    let (m', e') := taperMag n (p + 1)
    if finLt false m e false m' e' then taperFloor n m e p else p + 1

/-- Round a magnitude between minpos and maxpos to a pattern: the pattern, and whether it is inexact. -/
def taperNear (n : Nat) (rm : Rm) (neg : Bool) (m : Nat) (e : Int) : Nat × Bool :=
  let lo := taperFloor n m e (2 ^ (n - 1) - 1)
  let (ml, el) := taperMag n lo
  if !finLt false ml el false m e then (lo, false)
  else
    let (mh, eh) := taperMag n (lo + 1)
    let (_, s, es) := exactAdd false ml el false mh eh rne      -- lower + upper: twice the midpoint
    let below := finLt false (2 * m) e false s es
    let above := finLt false s es false (2 * m) e
    let up :=
      match rm with
      | 0 => above || (!below && lo % 2 == 1)
      | 2 => neg
      | 3 => !neg
      | 4 => !below
      | _ => false
    (if up then lo + 1 else lo, true)

/-- Convert to T8 or T6 (R87). -/
def taperEncode (n : Nat) (rm : Rm) (a : Fp) : Nat × Flags :=
  match a with
  | .nan _ => (2 ^ (n - 1), nv)
  | .inf _ => (2 ^ (n - 1), nv)
  | .fin neg m e =>
    if m = 0 then (0, 0)
    else
      let sign (p : Nat) : Nat := if neg then 2 ^ n - p else p
      let (mx, ex) := taperMag n (2 ^ (n - 1) - 1)
      let (mn, en) := taperMag n 1
      if finLt false mx ex false m e then (sign (2 ^ (n - 1) - 1), ovf ||| nx)
      else if finLt false m e false mn en then (sign 1, unf ||| nx)
      else
        let (p, inexact) := taperNear n rm neg m e
        (sign p, if inexact then nx else 0)

end Sys2Proof.Machine
end

