-- ==== Sys2Proof/Machine/Special.lean ====
section
/-! DEFINITION. The functions of VSF (05 R102). The spec bounds an inexact result and does not determine it: the exact
value is enclosed by fixed-point series of 192 bits, and which of the patterns within the bound the device returns is a
free value, a fixed function of the operand (`Config.vsf`; log entry 7). -/

namespace Sys2Proof.Machine

/-- Bits of the fixed-point numbers. -/
def fixP : Nat := 192

/-- One. -/
def fixOne : Int := 2 ^ fixP

/-- A product of fixed-point numbers. -/
def fixMul (x y : Int) : Int := x * y / fixOne

/-- Sum of `t`, t·s/(k(k+1)), …: terms of the sine and cosine series; `k` grows by two. -/
def altSeries (s : Int) : Nat → Int → Int → Int
  | 0, _, _ => 0
  | n + 1, t, k => t + altSeries s n (-(fixMul t s) / (k * (k + 1))) (k + 2)

/-- The exponential series: t, t·x/k, …. -/
def expSeries (x : Int) : Nat → Int → Int → Int
  | 0, _, _ => 0
  | n + 1, t, k => t + expSeries x n (fixMul t x / k) (k + 1)

/-- z + z³/3 + z⁵/5 + …: `t` is the power, `k` the divisor; `s` is ±z². -/
def atanSeries (s : Int) : Nat → Int → Int → Int
  | 0, _, _ => 0
  | n + 1, t, k => t / k + atanSeries s n (fixMul t s) (k + 2)

/-- ln 2 = 2 artanh(1/3). -/
def fixLn2 : Int := 2 * atanSeries (fixOne / 9) 64 (fixOne / 3) 1

/-- π = 16 arctan(1/5) − 4 arctan(1/239). -/
def fixPi : Int := 16 * atanSeries (-(fixOne / 25)) 48 (fixOne / 5) 1 - 4 * atanSeries (-(fixOne / 57121)) 16 (fixOne / 239) 1

/-- ±m·2^e as a fixed-point number. -/
def fixOf (neg : Bool) (m : Nat) (e : Int) : Int :=
  let k := e + fixP
  let v : Int := if 0 ≤ k then m * 2 ^ k.toNat else m / 2 ^ (-k).toNat
  if neg then -v else v

/-- 2^v as m·2^e. -/
def exp2Of (v : Int) : Nat × Int :=
  let n := v / fixOne
  ((expSeries (fixMul (v - n * fixOne) fixLn2) 48 fixOne 1).toNat, n - fixP)

/-- e^v as a fixed-point number, of a v that is not large. -/
def expFix (v : Int) : Int :=
  let r := exp2Of (v * fixOne / fixLn2)
  fixOf false r.1 r.2

/-- A magnitude just below 1, and just above 1, times 2^e. -/
def below1 (e : Int) : Nat × Int := (2 ^ 70 - 1, e - 70)
def above1 (e : Int) : Nat × Int := (2 ^ 70, e - 70)

/-- A fixed-point value as sign, magnitude and exponent. -/
def ofFix (v : Int) : Bool × Nat × Int := (decide (v < 0), v.natAbs, -fixP)

/-- x mod 2π between −π and π. -/
def reducePi (v : Int) : Int :=
  let r := v % (2 * fixPi)
  if fixPi < r then r - 2 * fixPi else r

/-- sin and cos of a reduced angle. -/
def sinFix (v : Int) : Int := altSeries (fixMul v v) 48 v 2
def cosFix (v : Int) : Int := altSeries (fixMul v v) 48 fixOne 1

/-- The exact value of an inexact result, as sign and magnitude between m·2^e and (m + 1)·2^e. Functions by F: 0 exp2, 1
log2, 2 rcp, 3 rsqrt, 4 sin, 5 cos, 6 tanh, 7 sigm, 8 erf; the operand is ±m·2^e, not 0. -/
def special (fn : Nat) (neg : Bool) (m : Nat) (e : Int) : Bool × Nat × Int :=
  let top := e + bitlen m                    -- the operand's magnitude is below 2^top and not below 2^(top - 1)
  let x := fixOf neg m e
  let small := decide (top ≤ -40)
  match fn with
  | 0 =>
    if small then (false, if neg then below1 0 else above1 0)
    else if 10 < top then (false, if neg then (1, -1024) else (1, 1024))
    else (false, exp2Of x)
  | 1 =>
    let k := bitlen m - 1
    let z := fixOne * ((m : Int) - 2 ^ k) / (m + 2 ^ k)
    ofFix (fixOne * (e + k) + 2 * atanSeries (fixMul z z) 72 z 1 * fixOne / fixLn2)
  | 2 => (neg, 2 ^ (128 + bitlen m) / m, -128 - (bitlen m : Nat) - e)
  | 3 =>
    let j : Nat := if e % 2 = 0 then 256 else 257
    let q := 2 ^ j * 2 ^ (2 * bitlen m) / m
    (false, isqrt q (bitlen q / 2 + 1) 0, (-e - (j : Int) - 2 * (bitlen m : Int)) / 2)
  | 4 => if small then (neg, m * 2 ^ 64 - 1, e - 64) else ofFix (sinFix (reducePi x))
  | 5 => if small then (false, below1 0) else ofFix (cosFix (reducePi x))
  | 6 =>
    if small then (neg, m * 2 ^ 64 - 1, e - 64)
    else if 20 * fixOne ≤ x.natAbs ∨ 10 < top then (neg, below1 0)
    else
      let E := expFix (2 * x.natAbs)
      (neg, ((E - fixOne) * fixOne / (E + fixOne)).toNat, -fixP)
  | 7 =>
    if small then (false, if neg then below1 (-1) else above1 (-1))
    else if !neg && (40 * fixOne ≤ x || 10 < top) then (false, below1 0)
    else if neg && (200 * fixOne ≤ -x || 10 < top) then (false, 1, -280)
    else (false, (2 ^ (2 * fixP + 400) / (fixOne + expFix (-x)).toNat), -(fixP + 400 : Nat))
  | _ =>
    let root := isqrt (fixPi.toNat * 2 ^ fixP) (fixP + 2) 0
    if small then (neg, m * 2 ^ (fixP + 65) / root, e - 64)
    else if 6 * fixOne ≤ x.natAbs ∨ 10 < top then (neg, below1 0)
    else
      let y : Int := x.natAbs
      let s := fixMul y y
      let rec sum : Nat → Int → Int → Int
        | 0, _, _ => 0
        | n + 1, t, k => t / (2 * k + 1) + sum n (-(fixMul t s) / (k + 1)) (k + 1)
      (neg, (2 * sum 200 y 0 * fixOne / root).toNat, -fixP)

/-- A magnitude m·2^e in units of 2^q, of a q that is not above e. -/
def inUnits (m : Nat) (e q : Int) : Int := m * 2 ^ (e - q).toNat

/-- The positive pattern `p` lies within the bound of an exact value just above m·2^e, whose neighbour towards 0 is `lo`: F32
results lie within 2 ulp, F16 and BF16 results within 1 ulp. An ulp is the distance of the patterns that enclose the exact value
(log entry 7). -/
def inBound (f : Fmt) (m : Nat) (e : Int) (lo p : Nat) : Bool :=
  match f.decode lo, f.decode p with
  | .fin _ _ el, .fin _ mp ep =>
    let q := min e f.qmin
    let d := inUnits mp ep q - inUnits m e q
    let room := (if f = f32 then 2 else 1) * inUnits 1 el q
    d ≤ room && -d < room
  | _, _ => false

/-- The patterns within the bound, below the smallest normal where `tiny`. -/
def within (f : Fmt) (m : Nat) (e : Int) (lo : Nat) (tiny : Bool) : List Nat :=
  ([lo + 2, lo + 1, lo, lo - 1, lo - 2, lo - 3].eraseDups).filter (fun p => inBound f m e lo p && (!tiny || p < 2 ^ f.mb))

/-- An inexact result: one of the patterns within the bound, and its flags. A result that underflows is a subnormal or zero. -/
def Fmt.inexactly (f : Fmt) (neg : Bool) (m : Nat) (e : Int) (choice : Nat) : Nat × Flags :=
  let lo := (f.round rtz false m e true).1
  if f.maxFinite false ≤ lo then (f.infinity neg, ovf ||| nx)
  else
    let under := (f.round rne false m e true).2 &&& unf
    let l := within f m e lo (under != 0)
    (f.signBit neg + l.getD (choice % l.length) lo, nx ||| under)

/-- ±m·2^e is a power of two: its exponent. -/
def powerOf2 (m : Nat) (e : Int) : Option Int := if m = 2 ^ (bitlen m - 1) then some (e + (bitlen m - 1 : Nat)) else none

/-- An integer as an exact value of a format. -/
def Fmt.ofInt (f : Fmt) (n : Int) : Nat × Flags := f.ofFp rne (fpOfInt n)

/-- The exact result of a finite nonzero operand where R102 lists one. -/
def exactSpecial (f : Fmt) (fn : Nat) (neg : Bool) (m : Nat) (e : Int) : Option (Nat × Flags) :=
  let r : Option (Nat × Flags) :=
    match fn with
    | 0 =>
      if 0 ≤ e ∨ m % 2 ^ (-e).toNat = 0 then
        let n : Int := if 0 ≤ e then (m * 2 ^ e.toNat : Nat) else (m / 2 ^ (-e).toNat : Nat)
        if 1024 < n then none else some (f.round rne false 1 (if neg then -n else n) false)
      else none
    | 1 => (powerOf2 m e).map f.ofInt
    | 2 => (powerOf2 m e).map (fun k => f.round rne neg 1 (-k) false)
    | 3 => (powerOf2 m e).bind (fun k => if k % 2 = 0 then some (f.round rne false 1 (-k / 2) false) else none)
    | _ => none
  match r with
  | some (v, 0) => some (v, 0)
  | _ => none

/-- 1.0 of a format, and 0.5. -/
def Fmt.one (f : Fmt) : Nat := (f.ofInt 1).1
def Fmt.half (f : Fmt) : Nat := (f.round rne false 1 (-1) false).1

/-- The number of a format among VSF's operands: 0 F16, 1 BF16, 2 F32. -/
def fmtNo (f : Fmt) : Nat := if f = f16 then 0 else if f = bf16 then 1 else 2

/-- sin and cos of a magnitude above 2^16: any value between −1 and 1. -/
def Fmt.anySine (f : Fmt) (choice : Nat) : Nat × Flags :=
  (f.signBit (choice % 2 == 1) + choice / 2 % (f.one + 1), nx)

/-- VSF's function of one element (R102). -/
def Fmt.special (f : Fmt) (fn p : Nat) : Nat × Flags :=
  let choice := Config.vsf fn (fmtNo f) (p % 2 ^ f.width)
  match f.decode p with
  | .nan s => (f.canon, if s then nv else 0)
  | .inf n =>
    match fn with
    | 0 => (if n then f.zero false else f.infinity false, 0)
    | 1 => if n then (f.canon, nv) else (f.infinity false, 0)
    | 2 => (f.zero n, 0)
    | 3 => if n then (f.canon, nv) else (f.zero false, 0)
    | 4 => (f.canon, nv)
    | 5 => (f.canon, nv)
    | 7 => (if n then f.zero false else f.one, 0)
    | _ => (f.signBit n + f.one, 0)
  | .fin n m e =>
    if m = 0 then
      match fn with
      | 0 => (f.one, 0)
      | 1 => (f.infinity true, dz)
      | 2 => (f.infinity n, dz)
      | 3 => (f.infinity n, dz)
      | 5 => (f.one, 0)
      | 7 => (f.half, 0)
      | _ => (f.zero n, 0)
    else if n && (fn == 1 || fn == 3) then (f.canon, nv)
    else if (fn == 4 || fn == 5) && finLt false 1 16 false m e then f.anySine choice
    else
      match exactSpecial f fn n m e with
      | some r => r
      | none =>
        let (neg, m', e') := Machine.special fn n m e
        f.inexactly neg m' e' choice

end Sys2Proof.Machine
end

