-- ==== Sys2Proof/Machine/Flags.lean ====
section
/-! DEFINITION. The flag computations (05 R94, R104; 15 R298): how an instruction's events reach fflags, the exception
locators and vsflags. -/

namespace Sys2Proof.Machine

/-- OR flags into fflags, and locate them where fex.V is 0: the flags of element `elem`, raised by the instruction at
`pc` (R94, R298). -/
def Regs.raiseAt (r : Regs) (flags first : BitVec 5) (elem : Nat) (pc : Word) : Regs :=
  if flags = 0 then r
  else
    let r := { r with fflags := r.fflags ||| flags }
    if r.fex.getLsbD 63 then r
    else { r with fex := 1#1 ++ 0#26 ++ first ++ BitVec.ofNat 32 elem, fev := pc }

/-- The flags of a scalar instruction: element 0. -/
def Regs.raise (r : Regs) (flags : BitVec 5) : Regs := r.raiseAt flags flags 0 r.pc

/-- The flags of the elements of a vector instruction, by ascending index: all of them, and the first element that
raised any with what it raised. -/
def gatherFlags : List (Nat × BitVec 5) → BitVec 5 × Nat × BitVec 5
  | [] => (0, 0, 0)
  | (i, f) :: l =>
    let (all, j, g) := gatherFlags l
    if f = 0 then (all, j, g) else (f ||| all, i, f)

/-- The flags of a vector or tile instruction. -/
def Regs.raiseAll (r : Regs) (l : List (Nat × BitVec 5)) : Regs :=
  let (all, j, first) := gatherFlags l
  r.raiseAt all first j r.pc

/-- SAT, OV and DZ of vsflags accrue (R104). -/
def Regs.accrue (r : Regs) (f : BitVec 3) : Regs := { r with vsflags := r.vsflags ||| f }

end Sys2Proof.Machine
end

