-- ==== Sys2Proof/Machine/ScalarFp.lean ====
section
/-! DEFINITION. The FP group (R343-R355) and its compressed forms (15 R301). -/

namespace Sys2Proof.Machine

/-- The format that SUB names (15 R294). -/
def subFmt (sz : BitVec 2) : Fmt :=
  match sz.toNat with
  | 0 => f32
  | 1 => f64
  | 2 => f16
  | _ => bf16

/-- RM = EFB traps ILLEGAL (05 R91). -/
def noEfb (i : Instr) : M Unit := do
  let s ← look id
  illegalIf i (s.regs.frm == 5)

/-- The rounding mode in force. -/
def rounding : M Rm := look (fun s => s.regs.frm.toNat)

/-- Raise a scalar instruction's flags. -/
def raiseFlags (f : Flags) : M Unit := updateRegs (fun r => r.raise f)

/-- Write a result and raise its flags. -/
def putFp (d : Reg) (r : Nat × Flags) : M Unit := do
  putX d (BitVec.ofNat 64 r.1)
  raiseFlags r.2

/-- An FP function of two sources. -/
def fp2 (i : Instr) (p q : Bool) (b a d : Reg) (f : Rm → Nat → Nat → Nat × Flags) : State → Host.Outcome State Fault Refusal :=
  plain i do
    noEfb i
    sources [.x p a, .x q b]
    let u ← getX a
    let v ← getX b
    let rm ← rounding
    putFp d (f rm u.toNat v.toNat)

/-- An FP function of one source. -/
def fp1 (i : Instr) (p : Bool) (a d : Reg) (f : Rm → Nat → Nat × Flags) : State → Host.Outcome State Fault Refusal :=
  plain i do
    noEfb i
    sources [.x p a]
    let u ← getX a
    let rm ← rounding
    putFp d (f rm u.toNat)

/-- a × b + d: D is a source that always waits. -/
def fp3 (i : Instr) (p q : Bool) (b a d : Reg) (f : Rm → Nat → Nat → Nat → Nat × Flags) : M Unit := do
  noEfb i
  sources [.x p a, .x q b, .x false d]
  let u ← getX a
  let v ← getX b
  let w ← getX d
  let rm ← rounding
  putFp d (f rm u.toNat v.toNat w.toNat)

/-- R344. -/
def execFadd (p q : Bool) (sz : BitVec 2) (b a d : Reg) (s : State) := fp2 (.fadd p q sz b a d) p q b a d (subFmt sz).add s
/-- R355. -/
def execFsub (p q : Bool) (sz : BitVec 2) (b a d : Reg) (s : State) := fp2 (.fsub p q sz b a d) p q b a d (subFmt sz).sub s
/-- R352. -/
def execFmul (p q : Bool) (sz : BitVec 2) (b a d : Reg) (s : State) := fp2 (.fmul p q sz b a d) p q b a d (subFmt sz).mul s
/-- R349. -/
def execFdiv (p q : Bool) (sz : BitVec 2) (b a d : Reg) (s : State) := fp2 (.fdiv p q sz b a d) p q b a d (subFmt sz).div s
/-- R354. -/
def execFsqrt (p : Bool) (sz : BitVec 2) (a d : Reg) (s : State) := fp1 (.fsqrt p sz a d) p a d (subFmt sz).sqrt s
/-- R351. -/
def execFmin (p q : Bool) (sz : BitVec 2) (b a d : Reg) (s : State) :=
  fp2 (.fmin p q sz b a d) p q b a d (fun _ => (subFmt sz).minMax false) s
/-- R351. -/
def execFmax (p q : Bool) (sz : BitVec 2) (b a d : Reg) (s : State) :=
  fp2 (.fmax p q sz b a d) p q b a d (fun _ => (subFmt sz).minMax true) s

/-- R346: the result goes to one of x0-x7. -/
def execFcmp (p q : Bool) (sz : BitVec 2) (b a : Reg) (c : BitVec 2) (d : BitVec 3) (s : State) :=
  fp2 (.fcmp p q sz b a c d) p q b a (d.setWidth 5) (fun _ u v =>
    let r := (subFmt sz).cmp c.toNat u v
    (if r.1 then 1 else 0, r.2)) s

/-- R345. -/
def execFclass (p : Bool) (sz : BitVec 2) (a d : Reg) (s : State) :=
  fp1 (.fclass p sz a d) p a d (fun _ u => (2 ^ (subFmt sz).classOf u, 0)) s

/-- A source format of a conversion (05 R88, R347): width, and what the pattern means. -/
inductive CvtSrc where
  | float (f : Fmt)
  | taper (n : Nat)
  | int (signed : Bool) (w : Nat)
  deriving DecidableEq, Repr

/-- The source formats by code; `none` for the codes that trap. -/
def cvtSrc : Nat → Option CvtSrc
  | 0 => some (.float f32)
  | 1 => some (.float f16)
  | 2 => some (.float bf16)
  | 3 => some (.taper 8)
  | 4 => some (.taper 6)
  | 5 => some (.int true 32)
  | 6 => some (.int false 32)
  | 7 => some (.int true 16)
  | 8 => some (.int false 16)
  | 9 => some (.int true 8)
  | 10 => some (.int false 8)
  | 11 => some (.int true 64)
  | 12 => some (.int false 64)
  | 13 => some (.float f64)
  | _ => none

/-- Width in bits of a source format. -/
def CvtSrc.width : CvtSrc → Nat
  | .float f => f.width
  | .taper n => n
  | .int _ w => w

/-- The exact value of a source. -/
def CvtSrc.value (c : CvtSrc) (p : Nat) : Fp :=
  match c with
  | .float f => f.decode p
  | .taper n => taperDecode n p
  | .int sg w => fpOfInt (intValue sg w p)

/-- Convert to a float (R89). -/
def CvtSrc.toFloat (c : CvtSrc) (f : Fmt) (rm : Rm) (p : Nat) : Nat × Flags := f.ofFp rm (c.value p)

/-- Convert to an integer of `w` bits (R89). -/
def CvtSrc.toInt (c : CvtSrc) (signed : Bool) (w : Nat) (rm : Rm) (p : Nat) : Nat × Flags :=
  match c with
  | .int sg sw => ((intValue sg sw p % 2 ^ w).toNat, 0)
  | _ => intOfFp signed w rm (c.value p)

/-- FCVT's conversion (R348): `b` is the format code, `sz` the destination. -/
def fcvtOf (b : Reg) (sz : BitVec 2) (rm : Rm) (u : Nat) : Nat × Flags :=
  match cvtSrc (b.toNat % 16) with
  | none => (0, 0)
  | some c =>
    if b.getLsbD 4 = false then c.toFloat (subFmt sz) rm u
    else
      match sz.toNat with
      | 0 =>
        let r := c.toInt true 32 rm u
        ((sext (BitVec.ofNat 32 r.1)).toNat, r.2)
      | 1 => c.toInt true 64 rm u
      | 2 => c.toInt false 32 rm u
      | _ => c.toInt false 64 rm u

/-- R348. -/
def execFcvt (p : Bool) (sz : BitVec 2) (b a d : Reg) (s : State) :=
  plain (.fcvt p sz b a d) (do
    illegalIf (.fcvt p sz b a d) (cvtSrc (b.toNat % 16)).isNone
    noEfb (.fcvt p sz b a d)
    sources [.x p a]
    let u ← getX a
    let rm ← rounding
    putFp d (fcvtOf b sz rm u.toNat)) s

/-- R350: with d = 0 the addend is +0 and the result is discarded, its flags kept. -/
def execFma (p q : Bool) (sz : BitVec 2) (b a d : Reg) (s : State) :=
  plain (.fma p q sz b a d) (fp3 (.fma p q sz b a d) p q b a d (subFmt sz).fma) s

/-- A compressed F32 form: LAST and X[b] (R301). -/
def compressedFp (i : Instr) (b d : Reg) (f : Rm → Nat → Nat → Nat × Flags) : State → Host.Outcome State Fault Refusal :=
  plain i do
    noEfb i
    let a ← needLast i lastX
    sources [.x false a, .x false b]
    let u ← getX a
    let v ← getX b
    let rm ← rounding
    putFp d (f rm u.toNat v.toNat)

def execCFadd (b d : Reg) (s : State) := compressedFp (.cFadd b d) b d f32.add s
def execCFmul (b d : Reg) (s : State) := compressedFp (.cFmul b d) b d f32.mul s
/-- `fma.s` with A = LAST. -/
def execCFma (b d : Reg) (s : State) :=
  plain (.cFma b d) (do
    noEfb (.cFma b d)
    let a ← needLast (.cFma b d) lastX
    fp3 (.cFma b d) false false b a d f32.fma) s

end Sys2Proof.Machine
end

