-- ==== Sys2Proof/Machine/Vec.lean ====
section
/-! DEFINITION. Vector operands (04 R52, R54, R56, R57, R63-R65, R77; 06 R106; 13 R254; 19 R406): register groups as bit
strings of elements, the queues that the execute hart names as v28-v31, the predicate, and the write of a destination. -/

namespace Sys2Proof.Machine

/-! Groups -/

/-- The bit string of `n` registers from `k` up, `cap` bits of each (R56). -/
def groupBits (v : Table (BitVec 16384)) (cap k : Nat) : Nat → Nat
  | 0 => 0
  | n + 1 => groupBits v cap k n + 2 ^ (cap * n) * ((v.get 0 (k + n)).toNat % 2 ^ cap)

/-- A bit string of elements of `w` bits. -/
def packElems (w : Nat) : List Nat → Nat
  | [] => 0
  | x :: xs => x % 2 ^ w + 2 ^ w * packElems w xs

/-- A bit string with `w` bits from `lo` up replaced. -/
def setBits (x lo w v : Nat) : Nat := x % 2 ^ lo + 2 ^ lo * (v % 2 ^ w) + 2 ^ (lo + w) * (x / 2 ^ (lo + w))

/-- The code of an element width. -/
def widthCode (w : Nat) : Nat := if w = 6 then 0 else if w = 8 then 1 else if w = 16 then 2 else if w = 32 then 3 else 4

/-- Bits of a vector register under the current grant. -/
def State.cap (s : State) : Nat := 256 * s.front.grant

/-- The hart owns `n` vector registers from `k` up (R52). -/
def State.owns (s : State) (k n : Nat) : Bool :=
  if s.isExec then 8 ≤ k && k + n ≤ 28 else if s.isAccess then k + n ≤ 8 else true

/-- A group that traps ILLEGAL: not owned, not aligned, or past v31 (R52, R57). v28-v31 of the execute hart name queues
where GRP is 1, and are no group's base; one that an instruction reads as an operand of `n` registers is a multiple of `n` like
any other (05 R88, 20 R437). -/
def State.badGroup (s : State) (k n : Nat) : Bool :=
  if s.isQueue k then s.regs.grp != 1 || k % n != 0 else k % n != 0 || 32 < k + n || !s.owns k n

/-- A register number and the registers of its group. -/
abbrev Grp := Reg × Nat

/-- Trap ILLEGAL where a group or another condition on fields and vtype is at fault (R282). -/
def legal (i : Instr) (groups : Regs → List Grp) (bad : Regs → Bool) : M Unit := do
  let s ← look id
  illegalIf i ((groups s.regs).any (fun g => s.badGroup g.1.toNat g.2) || bad s.regs)

/-- Two groups share a register; a queue shares none. -/
def State.overlap (s : State) (k n j m : Nat) : Bool := !s.isQueue k && !s.isQueue j && k < j + m && j < k + n

/-- GROUPOVL where groups overlap, or overlap other than exactly when `exact`. -/
def noOverlap (i : Instr) (exact : Bool) (a b : Grp) : M Unit := do
  let s ← look id
  trapIf (s.overlap a.1.toNat a.2 b.1.toNat b.2 && !(exact && a.1 == b.1 && a.2 == b.2)) Cause.groupovl i.bits.toNat

/-- Bit `i` of a mask register. -/
def Regs.mbit (r : Regs) (k : Nat) (i : Nat) : Bool := (r.m.get 0 k).getLsbD i

/-- Which of elements 0 to vl - 1 are active (R406). -/
def Regs.active (r : Regs) (m : Bool) : List Bool := (List.range r.vl.toNat).map (fun i => !m || r.mbit 0 i)

/-! Sources -/

/-- The element width and count that an entry holds are those that it is read at; its elements beyond its vl read 0. -/
def queueElems (i : Instr) (w n : Nat) (e : QEntry) : M (List Nat) := do
  illegalIf i (e.stop || sewBits e.sew != w)
  pure (elems w (e.bits % 2 ^ (e.vl * w)) n)

/-- The first `n` elements of a source of `w` bits: of a group of `c` registers, or of a queue's head (R64). -/
def readV (i : Instr) (k : Reg) (c w n : Nat) : M (List Nat) := do
  let s ← look id
  if s.isQueue k.toNat then
    match s.front.lq.get [] (k.toNat - 28) with
    | [] => if s.hart.popsSpent (k.toNat - 28) then trap Cause.stripcap 0 else stop (.wait (.head (k.toNat - 28)))
    | e :: _ => queueElems i w n e
  else pure (elems w (groupBits s.regs.v s.cap k.toNat c) n)

/-- Pop the head of a load queue (R64, R74). -/
def popQueue (q : Nat) : M Unit := fun s =>
  if s.hart.popsSpent q then .error (.trap Cause.stripcap 0)
  else
    match s.front.lq.get [] q with
    | [] => .ok ((), s)
    | e :: es =>
      let s := s.setFront { s.front with lq := s.front.lq.set [] q es }
      .ok ((), s.setHart { s.hart with popped := s.hart.popped ++ [(q, e)] })

/-- Pop queues one by one. -/
def popQueues : List Nat → M Unit
  | [] => pure ()
  | q :: qs => do
    popQueue q
    popQueues qs

/-- Pop each queue that the sources named, once (R64). -/
def retire (ks : List Reg) : M Unit := do
  let s ← look id
  popQueues (((ks.filter (fun k => s.isQueue k.toNat)).map (fun k => k.toNat - 28)).eraseDups)

/-! Destinations -/

/-- What becomes of an element 0 to vl - 1 of a destination. -/
inductive Out where
  | put (v : Nat)
  /-- Inactive: by the mask policy (R54). -/
  | idle
  /-- Active and not written. -/
  | keep
  deriving DecidableEq, Repr

/-- Elements to write: of those from `i` up, under the mask policy. -/
def writesOf (mp : Bool) : Nat → List Out → List (Nat × Nat)
  | _, [] => []
  | i, .put v :: l => (i, v) :: writesOf mp (i + 1) l
  | i, .idle :: l => if mp then (i, 0) :: writesOf mp (i + 1) l else writesOf mp (i + 1) l
  | i, .keep :: l => writesOf mp (i + 1) l

/-- A bit string after writes of elements of `w` bits. -/
def applyWrites (w : Nat) (bits : Nat) : List (Nat × Nat) → Nat
  | [] => bits
  | (i, v) :: l => applyWrites w (setBits bits (w * i) w v) l

/-- The end of the highest written part of register `j` of a group, in bits of the register; 0 where nothing is written.
`spans` are the bit ranges [lo, hi) written. -/
def topOf (cap j : Nat) : List (Nat × Nat) → Nat
  | [] => 0
  | (lo, hi) :: l =>
    if lo < hi ∧ lo < cap * (j + 1) ∧ cap * j < hi then max (min hi (cap * (j + 1)) - cap * j) (topOf cap j l)
    else topOf cap j l

/-- The tags after writes to registers (R106): a run's tag whose key group holds a written register reads S = 0, and one
whose payload group does reads PAY = 0. -/
def clearTags (written : List Nat) (t : Table Word) : Table Word :=
  t.filterMap (fun e =>
    let g := 2 ^ (e.2.extractLsb' 16 2).toNat
    let key := written.any (fun k => e.1 ≤ k && k < e.1 + g)
    let pay := written.any (fun k => e.1 + 16 ≤ k && k < e.1 + 16 + g)
    let v := if key then e.2 &&& ~~~(1#64 <<< 31) else e.2
    let v := if pay then v &&& ~~~(1#64 <<< 24) else v
    if v = 0 then none else some (e.1, v))

/-- A register with its low `cap` bits replaced. -/
def withLow (cap : Nat) (old : BitVec 16384) (bits : Nat) : BitVec 16384 :=
  BitVec.ofNat 16384 (setBits old.toNat 0 cap bits)

/-- Write registers of a group from a bit string: those that have a top. -/
def storeGroup (cap k bits : Nat) (tops : List (Nat × Nat)) (h : Hart) : Hart :=
  tops.foldl (fun (h : Hart) (t : Nat × Nat) =>
    { h with
      regs := { h.regs with v := h.regs.v.set 0 (k + t.1) (withLow cap (h.regs.v.get 0 (k + t.1)) (bits / 2 ^ (cap * t.1))) }
      dirty := setBit h.dirty (k + t.1) true
      vlen := h.vlen.set 0 (k + t.1) (max (h.vlen.get 0 (k + t.1)) ((t.2 + 63) / 64 * 8)) }) h

/-- Fill the registers of a group later (R68): they are empty now, and hold their new bits when their fills land. -/
def fillGroup (cap k bits : Nat) (tops : List (Nat × Nat)) (h : Hart) : Hart :=
  tops.foldl (fun (h : Hart) (t : Nat × Nat) =>
    { h with
      regs := { h.regs with vEmpty := setBit h.regs.vEmpty (k + t.1) true }
      fills := h.fills ++ [⟨true, k + t.1, (withLow cap (h.regs.v.get 0 (k + t.1)) (bits / 2 ^ (cap * t.1))).toNat, false⟩]
      dirty := setBit h.dirty (k + t.1) true
      vlen := h.vlen.set 0 (k + t.1) (max (h.vlen.get 0 (k + t.1)) ((t.2 + 63) / 64 * 8)) }) h

/-- Push an entry at the data tail of a store queue (R65). -/
def pushEntry (i : Instr) (q : Nat) (e : QEntry) : M Unit := do
  let s ← look id
  let d := s.front.sqData.get [] q
  waitIf (16 ≤ d.length) .room
  match (s.front.sqAddr.get [] q)[d.length]? with
  | some a => illegalIf i (a.vl != e.vl || a.sew != e.sew)
  | none => pure ()
  update (fun s => s.setFront { s.front with sqData := s.front.sqData.set [] q (d ++ [e]) })

/-- Push a result (R64). An active element that the instruction leaves unwritten (below VSLIDE's shift, beyond VRED's element 0 or
VPACKM's packed ones) is 0 (DESIGN CHOICE: R64 does not say; log entry 80). -/
def pushData (i : Instr) (q w : Nat) (outs : List Out) : M Unit := do
  let s ← look id
  let n := s.regs.vl.toNat
  let vals := (outs.map (fun o => match o with | .put v => v | _ => 0)).take n
  pushEntry i q { vl := n, sew := widthCode w, bits := packElems w vals }

/-- A bit string of a group of `c` registers after elements are written by `outs`, and the elements from there to VLMAX by the
tail policy (R54); and the bit ranges written. -/
def written (r : Regs) (cap k c w : Nat) (outs : List Out) : Nat × List (Nat × Nat) :=
  let writes := writesOf r.mp 0 outs
  let lo := w * outs.length
  let hi := w * (cap * c / w)
  let bits := applyWrites w (groupBits r.v cap k c) writes
  let tail := r.tp && decide (lo < hi)
  (if tail then setBits bits lo (hi - lo) 0 else bits,
    writes.map (fun x => (w * x.1, w * x.1 + w)) ++ if tail then [(lo, hi)] else [])

/-- The registers of a group that hold a written bit, each with the end of its highest written part. -/
def topsOf (cap c : Nat) (spans : List (Nat × Nat)) : List (Nat × Nat) :=
  ((List.range c).map (fun j => (j, topOf cap j spans))).filter (fun t => t.2 != 0)

/-- The current hart with a group written (R54, R106, R254; 15 R297). `late`: the registers fill later (R68). -/
def State.writeGroup (s : State) (k : Reg) (c w : Nat) (outs : List Out) (late : Bool) : State :=
  let h := s.hart
  let new := written h.regs s.cap k.toNat c w outs
  let tops := topsOf s.cap c new.2
  let h := if late && s.late && !s.priv then fillGroup s.cap k.toNat new.1 tops h else storeGroup s.cap k.toNat new.1 tops h
  let r := h.regs
  s.setHart { h with regs := { r with stag := clearTags (tops.map (fun (t : Nat × Nat) => k.toNat + t.1)) r.stag }.lastV k }

/-- Write a destination of `c` registers at `w` bits, or push an entry into the queue that it names. -/
def putGroup (i : Instr) (k : Reg) (c w : Nat) (outs : List Out) (late : Bool) : M Unit := do
  let s ← look id
  if s.isQueue k.toNat then do
    pushData i (k.toNat - 28) w outs
    updateRegs (fun r => r.lastV k)
  else do
    waitIf ((List.range c).any (fun j => s.regs.emptyV (k.toNat + j))) .register
    update (fun s => s.writeGroup k c w outs late)

/-- Write a destination. -/
def putV (i : Instr) (k : Reg) (c w : Nat) (outs : List Out) : M Unit := putGroup i k c w outs false

/-- The registers with a mask register written from elements 0 to vl - 1 (R410). -/
def Regs.writeMask (r : Regs) (d : BitVec 3) (outs : List Out) : Regs :=
  let bits := applyWrites 1 (r.m.get 0 d.toNat).toNat (writesOf r.mp 0 outs)
  { r with m := r.m.set 0 d.toNat (BitVec.ofNat 32768 (if r.tp then bits % 2 ^ outs.length else bits)) }

/-- Write a mask register. -/
def putM (d : BitVec 3) (outs : List Out) : M Unit := updateRegs (fun r => r.writeMask d outs)

/-! Second operands (R284, R289, R406) -/

/-- The second operand of a vector instruction: a group, the low bits of an x register, or an immediate. -/
inductive Second where
  | v (policy : Bool) (b : Reg)
  | x (policy : Bool) (b : Reg)
  | imm (i : Reg)
  deriving DecidableEq, Repr

/-- As a source whose group holds `n` registers. -/
def Second.src (n : Nat) : Second → List Src
  | .v q b => [Src.v q b n]
  | .x q b => [Src.x q b]
  | .imm _ => []

/-- Its group, and the register that it names as one. -/
def Second.groups (n : Nat) : Second → List Grp
  | .v _ b => [(b, n)]
  | .x .. => []
  | .imm _ => []

/-- The vector registers that it names. -/
def Second.regs : Second → List Reg
  | .v _ b => [b]
  | .x .. => []
  | .imm _ => []

/-- Its elements at `w` bits. -/
def Second.read (i : Instr) (n w count : Nat) : Second → M (List Nat)
  | .v _ b => readV i b n w count
  | .x _ b => do
    let u ← getX b
    pure (List.replicate count (u.toNat % 2 ^ w))
  | .imm k => pure (List.replicate count ((sext k).toNat % 2 ^ w))

/-! Running -/

/-- Run a vector instruction whose destination is `d`: one that writes a queue is irrevocable (R76). `early` are its
traps on fields and vtype. -/
def vector (i : Instr) (d : Reg) (early body : M Unit) (s : State) : Host.Outcome State Fault Refusal :=
  if s.isQueue d.toNat then irrevocable i early body s
  else plain i (do early; body) s

/-- Run a vector instruction that writes no vector register. -/
def vectorPlain (i : Instr) (early body : M Unit) (s : State) : Host.Outcome State Fault Refusal :=
  plain i (do early; body) s

/-- Pair elements with their predicate: `f` gives the result of active elements. -/
def outsOf (act : List Bool) (f : Nat → Out) : List Out := (act.zipIdx).map (fun x => if x.1 then f x.2 else .idle)

end Sys2Proof.Machine
end

