-- ==== Sys2Proof/Machine/VInt.lean ====
section
/-! DEFINITION. The VINT, VINT.X and VINT.I groups, VCMP, and the compressed vector integer forms (19, 20 reference
entries R406-R411, R413, R433, R435, R437, R438, R448, R450, R454, R460, R463, R464; 05 R103, R104; 15 R301). -/

namespace Sys2Proof.Machine

/-! Functions of two elements of `w` bits: the result and the vsflags -/

/-- The pattern of an integer at `w` bits. -/
def wrap (w : Nat) (v : Int) : Nat := (v % 2 ^ w).toNat

/-- The range of signed or unsigned integers. -/
def lowest (signed : Bool) (w : Nat) : Int := if signed then -(2 ^ (w - 1)) else 0
def highest (signed : Bool) (w : Nat) : Int := if signed then 2 ^ (w - 1) - 1 else 2 ^ w - 1

/-- Clamp to a range; SAT where the value does not fit (R103). -/
def clamp (signed : Bool) (w : Nat) (v : Int) : Nat × BitVec 3 :=
  if v < lowest signed w then (wrap w (lowest signed w), 4)
  else if highest signed w < v then (wrap w (highest signed w), 4)
  else (wrap w v, 0)

/-- A function of two patterns: width, a, b. -/
abbrev IntFn := Nat → Nat → Nat → Nat × BitVec 3

def fnAdd : IntFn := fun w a b => ((a + b) % 2 ^ w, 0)
def fnSub : IntFn := fun w a b => (wrap w ((a : Int) - b), 0)
def fnMul : IntFn := fun w a b => (a * b % 2 ^ w, 0)
/-- High half of the product (R435). -/
def fnMulh (signed : Bool) : IntFn := fun w a b => (wrap w (intValue signed w a * intValue signed w b / 2 ^ w), 0)
/-- R103: quotient and remainder. -/
def fnDiv (signed rem : Bool) : IntFn := fun w a b =>
  let r := divide signed (BitVec.ofNat w a) (BitVec.ofNat w b)
  ((if rem then r.2.1 else r.1).toNat, r.2.2)
def fnMin (signed : Bool) : IntFn := fun w a b => (if intValue signed w b < intValue signed w a then b else a, 0)
def fnMax (signed : Bool) : IntFn := fun w a b => (if intValue signed w a < intValue signed w b then b else a, 0)
def fnAnd : IntFn := fun _ a b => (a &&& b, 0)
def fnOr : IntFn := fun _ a b => (a ||| b, 0)
def fnXor : IntFn := fun _ a b => (a ^^^ b, 0)
def fnShl : IntFn := fun w a b => (a * 2 ^ (b % w) % 2 ^ w, 0)
def fnShr : IntFn := fun w a b => (a / 2 ^ (b % w), 0)
def fnSha : IntFn := fun w a b => (wrap w (intValue true w a / 2 ^ (b % w)), 0)
def fnSadd (signed : Bool) : IntFn := fun w a b => clamp signed w (intValue signed w a + intValue signed w b)
def fnSsub (signed : Bool) : IntFn := fun w a b => clamp signed w (intValue signed w a - intValue signed w b)

/-- Divide by 2^s, to nearest, ties to even (R437). -/
def roundShift (v : Int) (s : Nat) : Int :=
  let q := v / 2 ^ s
  let r := v % 2 ^ s
  if 2 ^ s < 2 * r ∨ (2 * r = 2 ^ s ∧ q % 2 = 1) then q + 1 else q

/-! The shape of the group (R406) -/

/-- The results of a function on active elements, and the flags of each. -/
def applyFn (f : Nat → Nat → Nat × BitVec 3) : List Bool → List Nat → List Nat → List Out × BitVec 3
  | true :: act, a :: as, b :: bs =>
    let r := f a b
    let (os, fl) := applyFn f act as bs
    (.put r.1 :: os, r.2 ||| fl)
  | false :: act, _ :: as, _ :: bs =>
    let (os, fl) := applyFn f act as bs
    (.idle :: os, fl)
  | _, _, _ => ([], 0)

/-- Groups of `k` x GRP registers. -/
def grps (k : Nat) (l : List Reg) (r : Regs) : List Grp := l.map (fun x => (x, k * r.grp))

/-- A function of VINT on va (named by `getA`) and the second operand. -/
def intOp (i : Instr) (getA : M Reg) (p : Bool) (o : Second) (m : Bool) (d : Reg) (f : IntFn) : State → Host.Outcome State Fault Refusal :=
  vector i d
    (do
      legal i (fun r => grps 1 [d] r ++ o.groups r.grp) (fun r => r.sewCode == 0)
      let a ← getA
      legal i (grps 1 [a]) (fun _ => false))
    (do
      let a ← getA
      let s ← look id
      let n := s.regs.grp
      let w := s.regs.sew
      let vl := s.regs.vl.toNat
      sources (.v p a n :: o.src n)
      let as ← readV i a n w vl
      let bs ← o.read i n w vl
      let r := applyFn (f w) (s.regs.active m) as bs
      retire (a :: o.regs)
      putV i d n w r.1
      updateRegs (fun g => g.accrue r.2))

/-- VINT with va named. -/
def vint (i : Instr) (p : Bool) (o : Second) (m : Bool) (a d : Reg) (f : IntFn) : State → Host.Outcome State Fault Refusal :=
  intOp i (pure a) p o m d f

/-- A compressed form: va = LAST, and both sources wait (R300, R301). -/
def vintLast (i : Instr) (b d : Reg) (f : IntFn) : State → Host.Outcome State Fault Refusal :=
  intOp i (needLast i lastV) false (.v false b) false d f

/-! Widening and narrowing (R437, R463) -/

/-- SEW 6 or 64, or GRP 8 (R437, R463). -/
def notHalvable (r : Regs) : Bool := r.sewCode == 0 || r.sewCode == 4 || r.grp == 8

/-- VWMUL, and VWMACC where `acc`. The destination is a group of two registers or more, and v28-v31 of the execute hart are no
group's base (04 R52). -/
def widen (i : Instr) (acc signed : Bool) (p : Bool) (o : Second) (m : Bool) (a d : Reg) : State → Host.Outcome State Fault Refusal :=
  vector i d
    (do
      legal i (fun r => grps 1 [a] r ++ o.groups r.grp ++ grps 2 [d] r) notHalvable
      let s ← look id
      illegalIf i (s.isQueue d.toNat))
    (do
      let s ← look id
      let n := s.regs.grp
      let w := s.regs.sew
      let vl := s.regs.vl.toNat
      sources ((.v p a n :: o.src n) ++ if acc then [.v false d (2 * n)] else [])
      noOverlap i false (d, 2 * n) (a, n)
      match o with
      | .v _ b => noOverlap i false (d, 2 * n) (b, n)
      | _ => pure ()
      let as ← readV i a n w vl
      let bs ← o.read i n w vl
      let ds ← if acc then readV i d (2 * n) (2 * w) vl else pure (List.replicate vl 0)
      let prods := (as.zip bs).map (fun x => wrap (2 * w) (intValue signed w x.1 * intValue signed w x.2))
      let r := applyFn (fun x y => ((x + y) % 2 ^ (2 * w), 0)) (s.regs.active m) ds prods
      retire ((a :: o.regs) ++ if acc then [d] else [])
      putV i d (2 * n) (2 * w) r.1)

/-- VNSHR (R437). -/
def narrowShift (i : Instr) (signed : Bool) (p : Bool) (o : Second) (m : Bool) (a d : Reg) : State → Host.Outcome State Fault Refusal :=
  vector i d
    (legal i (fun r => grps 2 [a] r ++ o.groups r.grp ++ grps 1 [d] r) notHalvable)
    (do
      let s ← look id
      let n := s.regs.grp
      let w := s.regs.sew
      let vl := s.regs.vl.toNat
      sources (.v p a (2 * n) :: o.src n)
      noOverlap i false (d, n) (a, 2 * n)
      let as ← readV i a (2 * n) (2 * w) vl
      let bs ← o.read i n w vl
      let r := applyFn (fun x y => clamp signed w (roundShift (intValue signed (2 * w) x) (y % (2 * w)))) (s.regs.active m) as bs
      retire (a :: o.regs)
      putV i d n w r.1
      updateRegs (fun g => g.accrue r.2))

/-! VINT, VINT.X, VINT.I -/

/-- R407. -/
def execVaddVr (p q m : Bool) (b a d : Reg) (s : State) := vint (.vaddVr p q m b a d) p (.v q b) m a d fnAdd s
/-- R407. -/
def execVaddVx (p q m : Bool) (b a d : Reg) (s : State) := vint (.vaddVx p q m b a d) p (.x q b) m a d fnAdd s
/-- R407. -/
def execVaddVi (p m : Bool) (i a d : Reg) (s : State) := vint (.vaddVi p m i a d) p (.imm i) m a d fnAdd s
/-- R460. -/
def execVsubVr (p q m : Bool) (b a d : Reg) (s : State) := vint (.vsubVr p q m b a d) p (.v q b) m a d fnSub s
/-- R460. -/
def execVsubVx (p q m : Bool) (b a d : Reg) (s : State) := vint (.vsubVx p q m b a d) p (.x q b) m a d fnSub s
/-- R460. -/
def execVsubVi (p m : Bool) (i a d : Reg) (s : State) := vint (.vsubVi p m i a d) p (.imm i) m a d fnSub s
/-- R435. -/
def execVmulVr (p q m : Bool) (b a d : Reg) (s : State) := vint (.vmulVr p q m b a d) p (.v q b) m a d fnMul s
/-- R435. -/
def execVmulVx (p q m : Bool) (b a d : Reg) (s : State) := vint (.vmulVx p q m b a d) p (.x q b) m a d fnMul s
/-- R435. -/
def execVmulVi (p m : Bool) (i a d : Reg) (s : State) := vint (.vmulVi p m i a d) p (.imm i) m a d fnMul s
/-- R435. -/
def execVmulhVr (p q m g : Bool) (b a d : Reg) (s : State) := vint (.vmulhVr p q m g b a d) p (.v q b) m a d (fnMulh (!g)) s
/-- R435. -/
def execVmulhVx (p q m g : Bool) (b a d : Reg) (s : State) := vint (.vmulhVx p q m g b a d) p (.x q b) m a d (fnMulh (!g)) s
/-- R435. -/
def execVmulhVi (p m g : Bool) (i a d : Reg) (s : State) := vint (.vmulhVi p m g i a d) p (.imm i) m a d (fnMulh (!g)) s
/-- R413. -/
def execVdivVr (p q m g : Bool) (b a d : Reg) (s : State) := vint (.vdivVr p q m g b a d) p (.v q b) m a d (fnDiv (!g) false) s
/-- R413. -/
def execVdivVx (p q m g : Bool) (b a d : Reg) (s : State) := vint (.vdivVx p q m g b a d) p (.x q b) m a d (fnDiv (!g) false) s
/-- R413. -/
def execVdivVi (p m g : Bool) (i a d : Reg) (s : State) := vint (.vdivVi p m g i a d) p (.imm i) m a d (fnDiv (!g) false) s
/-- R448. -/
def execVremVr (p q m g : Bool) (b a d : Reg) (s : State) := vint (.vremVr p q m g b a d) p (.v q b) m a d (fnDiv (!g) true) s
/-- R448. -/
def execVremVx (p q m g : Bool) (b a d : Reg) (s : State) := vint (.vremVx p q m g b a d) p (.x q b) m a d (fnDiv (!g) true) s
/-- R448. -/
def execVremVi (p m g : Bool) (i a d : Reg) (s : State) := vint (.vremVi p m g i a d) p (.imm i) m a d (fnDiv (!g) true) s
/-- R433. -/
def execVminVr (p q m g : Bool) (b a d : Reg) (s : State) := vint (.vminVr p q m g b a d) p (.v q b) m a d (fnMin (!g)) s
/-- R433. -/
def execVminVx (p q m g : Bool) (b a d : Reg) (s : State) := vint (.vminVx p q m g b a d) p (.x q b) m a d (fnMin (!g)) s
/-- R433. -/
def execVminVi (p m g : Bool) (i a d : Reg) (s : State) := vint (.vminVi p m g i a d) p (.imm i) m a d (fnMin (!g)) s
/-- R433. -/
def execVmaxVr (p q m g : Bool) (b a d : Reg) (s : State) := vint (.vmaxVr p q m g b a d) p (.v q b) m a d (fnMax (!g)) s
/-- R433. -/
def execVmaxVx (p q m g : Bool) (b a d : Reg) (s : State) := vint (.vmaxVx p q m g b a d) p (.x q b) m a d (fnMax (!g)) s
/-- R433. -/
def execVmaxVi (p m g : Bool) (i a d : Reg) (s : State) := vint (.vmaxVi p m g i a d) p (.imm i) m a d (fnMax (!g)) s
/-- R408. -/
def execVandVr (p q m : Bool) (b a d : Reg) (s : State) := vint (.vandVr p q m b a d) p (.v q b) m a d fnAnd s
/-- R408. -/
def execVandVx (p q m : Bool) (b a d : Reg) (s : State) := vint (.vandVx p q m b a d) p (.x q b) m a d fnAnd s
/-- R408. -/
def execVandVi (p m : Bool) (i a d : Reg) (s : State) := vint (.vandVi p m i a d) p (.imm i) m a d fnAnd s
/-- R438. -/
def execVorVr (p q m : Bool) (b a d : Reg) (s : State) := vint (.vorVr p q m b a d) p (.v q b) m a d fnOr s
/-- R438. -/
def execVorVx (p q m : Bool) (b a d : Reg) (s : State) := vint (.vorVx p q m b a d) p (.x q b) m a d fnOr s
/-- R438. -/
def execVorVi (p m : Bool) (i a d : Reg) (s : State) := vint (.vorVi p m i a d) p (.imm i) m a d fnOr s
/-- R464. -/
def execVxorVr (p q m : Bool) (b a d : Reg) (s : State) := vint (.vxorVr p q m b a d) p (.v q b) m a d fnXor s
/-- R464. -/
def execVxorVx (p q m : Bool) (b a d : Reg) (s : State) := vint (.vxorVx p q m b a d) p (.x q b) m a d fnXor s
/-- R464. -/
def execVxorVi (p m : Bool) (i a d : Reg) (s : State) := vint (.vxorVi p m i a d) p (.imm i) m a d fnXor s
/-- R454. -/
def execVshlVr (p q m : Bool) (b a d : Reg) (s : State) := vint (.vshlVr p q m b a d) p (.v q b) m a d fnShl s
/-- R454. -/
def execVshlVx (p q m : Bool) (b a d : Reg) (s : State) := vint (.vshlVx p q m b a d) p (.x q b) m a d fnShl s
/-- R454. -/
def execVshlVi (p m : Bool) (i a d : Reg) (s : State) := vint (.vshlVi p m i a d) p (.imm i) m a d fnShl s
/-- R454. -/
def execVshrVr (p q m : Bool) (b a d : Reg) (s : State) := vint (.vshrVr p q m b a d) p (.v q b) m a d fnShr s
/-- R454. -/
def execVshrVx (p q m : Bool) (b a d : Reg) (s : State) := vint (.vshrVx p q m b a d) p (.x q b) m a d fnShr s
/-- R454. -/
def execVshrVi (p m : Bool) (i a d : Reg) (s : State) := vint (.vshrVi p m i a d) p (.imm i) m a d fnShr s
/-- R454. -/
def execVshaVr (p q m : Bool) (b a d : Reg) (s : State) := vint (.vshaVr p q m b a d) p (.v q b) m a d fnSha s
/-- R454. -/
def execVshaVx (p q m : Bool) (b a d : Reg) (s : State) := vint (.vshaVx p q m b a d) p (.x q b) m a d fnSha s
/-- R454. -/
def execVshaVi (p m : Bool) (i a d : Reg) (s : State) := vint (.vshaVi p m i a d) p (.imm i) m a d fnSha s
/-- R450. -/
def execVsaddVr (p q m g : Bool) (b a d : Reg) (s : State) := vint (.vsaddVr p q m g b a d) p (.v q b) m a d (fnSadd (!g)) s
/-- R450. -/
def execVsaddVx (p q m g : Bool) (b a d : Reg) (s : State) := vint (.vsaddVx p q m g b a d) p (.x q b) m a d (fnSadd (!g)) s
/-- R450. -/
def execVsaddVi (p m g : Bool) (i a d : Reg) (s : State) := vint (.vsaddVi p m g i a d) p (.imm i) m a d (fnSadd (!g)) s
/-- R450. -/
def execVssubVr (p q m g : Bool) (b a d : Reg) (s : State) := vint (.vssubVr p q m g b a d) p (.v q b) m a d (fnSsub (!g)) s
/-- R450. -/
def execVssubVx (p q m g : Bool) (b a d : Reg) (s : State) := vint (.vssubVx p q m g b a d) p (.x q b) m a d (fnSsub (!g)) s
/-- R450. -/
def execVssubVi (p m g : Bool) (i a d : Reg) (s : State) := vint (.vssubVi p m g i a d) p (.imm i) m a d (fnSsub (!g)) s
/-- R463. -/
def execVwmulVr (p q m g : Bool) (b a d : Reg) (s : State) := widen (.vwmulVr p q m g b a d) false (!g) p (.v q b) m a d s
/-- R463. -/
def execVwmulVx (p q m g : Bool) (b a d : Reg) (s : State) := widen (.vwmulVx p q m g b a d) false (!g) p (.x q b) m a d s
/-- R463. -/
def execVwmulVi (p m g : Bool) (i a d : Reg) (s : State) := widen (.vwmulVi p m g i a d) false (!g) p (.imm i) m a d s
/-- R463. -/
def execVwmaccVr (p q m g : Bool) (b a d : Reg) (s : State) := widen (.vwmaccVr p q m g b a d) true (!g) p (.v q b) m a d s
/-- R463. -/
def execVwmaccVx (p q m g : Bool) (b a d : Reg) (s : State) := widen (.vwmaccVx p q m g b a d) true (!g) p (.x q b) m a d s
/-- R463. -/
def execVwmaccVi (p m g : Bool) (i a d : Reg) (s : State) := widen (.vwmaccVi p m g i a d) true (!g) p (.imm i) m a d s
/-- R437. -/
def execVnshrVr (p q m g : Bool) (b a d : Reg) (s : State) := narrowShift (.vnshrVr p q m g b a d) (!g) p (.v q b) m a d s
/-- R437. -/
def execVnshrVx (p q m g : Bool) (b a d : Reg) (s : State) := narrowShift (.vnshrVx p q m g b a d) (!g) p (.x q b) m a d s
/-- R437. -/
def execVnshrVi (p m g : Bool) (i a d : Reg) (s : State) := narrowShift (.vnshrVi p m g i a d) (!g) p (.imm i) m a d s

/-! VCMP (R410, R411) -/

/-- The conditions of VCMP. -/
def compareInt (c w a b : Nat) : Bool :=
  match c with
  | 0 => a == b
  | 1 => a != b
  | 2 => decide (intValue true w a < intValue true w b)
  | 3 => decide (intValue true w b ≤ intValue true w a)
  | 4 => decide (a < b)
  | _ => decide (b ≤ a)

/-- A bit as an element of a mask. -/
def bitOut (b : Bool) : Out := .put (if b then 1 else 0)

/-- Bits of a mask by a test of two elements. -/
def testOuts (f : Nat → Nat → Bool) : List Bool → List Nat → List Nat → List Out
  | true :: act, a :: as, b :: bs => bitOut (f a b) :: testOuts f act as bs
  | false :: act, _ :: as, _ :: bs => .idle :: testOuts f act as bs
  | _, _, _ => []

/-- R411. -/
def execVcmp (p q m : Bool) (c b a : Reg) (d : BitVec 3) (s : State) :=
  vectorPlain (.vcmp p q m c b a d) (legal (.vcmp p q m c b a d) (grps 1 [a, b]) (fun r => r.sewCode == 0))
    (do
      let t ← look id
      let n := t.regs.grp
      let w := t.regs.sew
      let vl := t.regs.vl.toNat
      sources [.v p a n, .v q b n]
      let as ← readV (.vcmp p q m c b a d) a n w vl
      let bs ← readV (.vcmp p q m c b a d) b n w vl
      retire [a, b]
      putM d (testOuts (compareInt c.toNat w) (t.regs.active m) as bs)) s

/-! Compressed forms (15 R301) -/

def execCVadd (b d : Reg) (s : State) := vintLast (.cVadd b d) b d fnAdd s
def execCVsub (b d : Reg) (s : State) := vintLast (.cVsub b d) b d fnSub s
def execCVmul (b d : Reg) (s : State) := vintLast (.cVmul b d) b d fnMul s
def execCVmax (b d : Reg) (s : State) := vintLast (.cVmax b d) b d (fnMax true) s
def execCVand (b d : Reg) (s : State) := vintLast (.cVand b d) b d fnAnd s
def execCVxor (b d : Reg) (s : State) := vintLast (.cVxor b d) b d fnXor s

end Sys2Proof.Machine
end

