-- ==== Sys2Proof/Machine/VPerm.lean ====
section
/-! DEFINITION. The VPERM and VMASK groups (18 R363-R365; 19, 20 reference entries R409, R412, R419, R436, R439, R441,
R444, R445, R447, R452, R455, R457; 05 R100, R101). -/

namespace Sys2Proof.Machine

/-! Moving elements -/

/-- Elements of a list by active indices. -/
def pickOuts (act : List Bool) (f : Nat → Nat) : List Out := outsOf act (fun i => .put (f i))

/-- R409: every element, active or not. -/
def execVblend (p q : Bool) (b a d : Reg) (s : State) :=
  vector (.vblend p q b a d) d (legal (.vblend p q b a d) (grps 1 [a, b, d]) (fun _ => false))
    (do
      let t ← look id
      let n := t.regs.grp
      let w := t.regs.sew
      let vl := t.regs.vl.toNat
      sources [.v p a n, .v q b n]
      let as ← readV (.vblend p q b a d) a n w vl
      let bs ← readV (.vblend p q b a d) b n w vl
      retire [a, b]
      putV (.vblend p q b a d) d n w ((List.range vl).map (fun i =>
        .put (if t.regs.mbit 0 i then bs.getD i 0 else as.getD i 0)))) s

/-- The tag that VMV leaves in vd (R122, R436): on the three conditions that R122 lists, whatever the tag's key width (DESIGN CHOICE
where KW is wider than SEW: log entry 82). -/
def movedTag (r : Regs) (m : Bool) (queue : Bool) (a : Reg) : Word :=
  let t := r.stag.get 0 a.toNat
  if !queue ∧ t.getLsbD 31 = true ∧ 2 ^ (t.extractLsb' 16 2).toNat ≤ r.grp ∧ (t.extractLsb' 0 16).toNat ≤ r.vl.toNat ∧ m = false
  then t &&& ~~~(1#64 <<< 24) else 0

/-- VMV's work, va named by `getA` (R436). -/
def move (i : Instr) (getA : M Reg) (p m : Bool) (d : Reg) : State → Host.Outcome State Fault Refusal :=
  vector i d
    (do
      let a ← getA
      legal i (grps 1 [a, d]) (fun _ => false))
    (do
      let a ← getA
      let t ← look id
      let n := t.regs.grp
      let w := t.regs.sew
      sources [.v p a n]
      let as ← readV i a n w t.regs.vl.toNat
      retire [a]
      putV i d n w (pickOuts (t.regs.active m) (fun j => as.getD j 0))
      let tag := movedTag t.regs m (t.isQueue a.toNat) a
      if t.isQueue d.toNat then pure ()
      else if tag ≠ 0 then updateRegs (fun r => { r with stag := setTag r.stag d.toNat (tagRegs tag) tag })
      else updateRegs (fun r => { r with stag := r.stag.set 0 d.toNat (r.stag.get 0 d.toNat &&& ~~~(1#64 <<< 31)) }))

/-- R436. -/
def execVmv (p m : Bool) (a d : Reg) (s : State) := move (.vmv p m a d) (pure a) p m d s
/-- R301: C.VMV names its source. -/
def execCVmv (b d : Reg) (s : State) := move (.cVmv b d) (pure b) false false d s

/-- R455. -/
def execVslide (p q m u : Bool) (b a d : Reg) (s : State) :=
  vector (.vslide p q m u b a d) d (legal (.vslide p q m u b a d) (grps 1 [a, d]) (fun _ => false))
    (do
      let t ← look id
      let n := t.regs.grp
      let w := t.regs.sew
      sources [.v p a n, .x q b]
      noOverlap (.vslide p q m u b a d) false (d, n) (a, n)
      let k ← getX b
      let as ← readV (.vslide p q m u b a d) a n w t.vlmax
      retire [a]
      putV (.vslide p q m u b a d) d n w (outsOf (t.regs.active m) (fun i =>
        if u then (if k.toNat ≤ i then .put (as.getD (i - k.toNat) 0) else .keep)
        else .put (as.getD (i + k.toNat) 0)))) s

/-- R441. -/
def execVpick (p q m : Bool) (b a d : Reg) (s : State) :=
  vector (.vpick p q m b a d) d (legal (.vpick p q m b a d) (grps 1 [a, b, d]) (fun r => r.sewCode == 0))
    (do
      let t ← look id
      let n := t.regs.grp
      let w := t.regs.sew
      sources [.v p a n, .v q b n]
      noOverlap (.vpick p q m b a d) false (d, n) (a, n)
      noOverlap (.vpick p q m b a d) false (d, n) (b, n)
      let as ← readV (.vpick p q m b a d) a n w t.vlmax
      let bs ← readV (.vpick p q m b a d) b n w t.regs.vl.toNat
      retire [a, b]
      putV (.vpick p q m b a d) d n w (pickOuts (t.regs.active m) (fun i => as.getD (bs.getD i 0) 0))) s

/-- Set bits of `l` before each position. -/
def countBefore (c : Nat) : List Bool → List Nat
  | [] => []
  | b :: l => c :: countBefore (if b then c + 1 else c) l

/-- R445. -/
def execVprepop (m : Bool) (a : BitVec 3) (d : Reg) (s : State) :=
  vector (.vprepop m a d) d (legal (.vprepop m a d) (grps 1 [d]) (fun r => r.sewCode == 0))
    (do
      let t ← look id
      let act := t.regs.active m
      let set := (act.zipIdx).map (fun x => x.1 && t.regs.mbit a.toNat x.2)
      let ks := countBefore 0 set
      putV (.vprepop m a d) d t.regs.grp t.regs.sew (pickOuts act (fun i => ks.getD i 0))) s

/-- R439. -/
def execVpackm (p : Bool) (k : BitVec 3) (a d : Reg) (s : State) :=
  vector (.vpackm p k a d) d (legal (.vpackm p k a d) (grps 1 [a, d]) (fun _ => false))
    (do
      let t ← look id
      let n := t.regs.grp
      let w := t.regs.sew
      sources [.v p a n]
      noOverlap (.vpackm p k a d) false (d, n) (a, n)
      let as ← readV (.vpackm p k a d) a n w t.regs.vl.toNat
      retire [a]
      putV (.vpackm p k a d) d n w
        (((as.zipIdx).filter (fun x => t.regs.mbit k.toNat x.2)).map (fun x => .put x.1))) s

/-- R457. -/
def execVspread (p : Bool) (k : BitVec 3) (a d : Reg) (s : State) :=
  vector (.vspread p k a d) d (legal (.vspread p k a d) (grps 1 [a, d]) (fun _ => false))
    (do
      let t ← look id
      let n := t.regs.grp
      let w := t.regs.sew
      let vl := t.regs.vl.toNat
      sources [.v p a n]
      noOverlap (.vspread p k a d) false (d, n) (a, n)
      let as ← readV (.vspread p k a d) a n w vl
      retire [a]
      let set := (List.range vl).map (fun i => t.regs.mbit k.toNat i)
      let cs := countBefore 0 set
      putV (.vspread p k a d) d n w (outsOf set (fun i => .put (as.getD (cs.getD i 0) 0)))) s

/-- Whether an active element other than `i`, earlier or (when `later`) later, equals element `i` (R412). -/
def conflict (later : Bool) (act : List Bool) (as : List Nat) (i : Nat) : Bool :=
  (List.range act.length).any (fun j =>
    act.getD j false && (if later then decide (i < j) else decide (j < i)) && as.getD j 0 == as.getD i 0)

/-- R412. -/
def execVconf (p m l : Bool) (a : Reg) (d : BitVec 3) (s : State) :=
  vectorPlain (.vconf p m l a d) (legal (.vconf p m l a d) (grps 1 [a]) (fun r => r.sewCode == 0))
    (do
      let t ← look id
      let n := t.regs.grp
      sources [.v p a n]
      let as ← readV (.vconf p m l a d) a n t.regs.sew t.regs.vl.toNat
      retire [a]
      let act := t.regs.active m
      putM d (outsOf act (fun i => bitOut (conflict l act as i)))) s

/-! Folds (R100, R101, R447, R452) -/

/-- The format of vector FP under a vtype (R83). -/
def Regs.vfmt (r : Regs) : Option Fmt :=
  match r.sewCode with
  | 3 => some f32
  | 2 => if r.fmt = 0 then some f16 else some bf16
  | _ => none

/-- ILLEGAL of R100 for an op: its code, an integer op at SEW 6, an FP op without a format or under EFB. -/
def badFold (op : Reg) (r : Regs) : Bool :=
  10 < op.toNat || (if op.toNat < 8 then r.sewCode == 0 else r.vfmt.isNone || r.frm == 5)

/-- Op of R100: the result and its flags. -/
def foldOp (r : Regs) (op : Reg) (x y : Nat) : Nat × Flags :=
  let w := r.sew
  let f := r.vfmt.getD f32
  match op.toNat with
  | 0 => ((fnAdd w x y).1, 0)
  | 1 => ((fnMin true w x y).1, 0)
  | 2 => ((fnMax true w x y).1, 0)
  | 3 => ((fnMin false w x y).1, 0)
  | 4 => ((fnMax false w x y).1, 0)
  | 5 => (x &&& y, 0)
  | 6 => (x ||| y, 0)
  | 7 => (x ^^^ y, 0)
  | 8 => f.add r.frm.toNat x y
  | 9 => f.minMax false x y
  | _ => f.minMax true x y

/-- One level of VRED's tree: the next level, and the flags with the lowest index that each combination covers. Entries are
value and index; `none` is ABSENT. -/
def treeLevel (op : Nat → Nat → Nat × Flags) : List (Option (Nat × Nat)) → List (Option (Nat × Nat)) × List (Nat × Flags)
  | some x :: some y :: l =>
    let (t, fs) := treeLevel op l
    let r := op x.1 y.1
    (some (r.1, x.2) :: t, (x.2, r.2) :: fs)
  | some x :: none :: l =>
    let (t, fs) := treeLevel op l
    (some x :: t, fs)
  | none :: y :: l =>
    let (t, fs) := treeLevel op l
    (y :: t, fs)
  | l => (l, [])

/-- VRED's tree; `n` levels at most. -/
def treeFold (op : Nat → Nat → Nat × Flags) : Nat → List (Option (Nat × Nat)) → List (Option (Nat × Nat)) × List (Nat × Flags)
  | 0, l => (l, [])
  | n + 1, l =>
    if l.length ≤ 1 then (l, [])
    else
      let (t, fs) := treeLevel op l
      let (u, gs) := treeFold op n t
      (u, fs ++ gs)

/-- The active elements with their indices. -/
def present (act : List Bool) (as : List Nat) : List (Option (Nat × Nat)) :=
  ((act.zip as).zipIdx).map (fun x => if x.1.1 then some (x.1.2, x.2) else none)

/-- VREDO's fold in ascending order, from an old value: the result and the flags of each rounding. -/
def orderFold (op : Nat → Nat → Nat × Flags) (acc : Nat) : List (Option (Nat × Nat)) → Nat × List (Nat × Flags)
  | [] => (acc, [])
  | none :: l => orderFold op acc l
  | some x :: l =>
    let r := op acc x.1
    let (v, fs) := orderFold op r.1 l
    (v, (x.2, r.2) :: fs)

/-- VRED's result on an old element 0: the new one, if any element is active, and the flags in order. -/
def treeReduce (op : Nat → Nat → Nat × Flags) (old : Nat) (l : List (Option (Nat × Nat))) : Option Nat × List (Nat × Flags) :=
  let (t, fs) := treeFold op 16 l
  match t with
  | some x :: _ =>
    let r := op old x.1
    (some r.1, fs ++ [(x.2, r.2)])
  | _ => (none, fs)

/-- VREDO's result on an old element 0. -/
def orderReduce (op : Nat → Nat → Nat × Flags) (old : Nat) (l : List (Option (Nat × Nat))) : Option Nat × List (Nat × Flags) :=
  let r := orderFold op old l
  if l.any Option.isSome then (some r.1, r.2) else (none, r.2)

/-- A reduction into element 0 of vd (R100). The old element of a queue's tail is a free value (log entry 2). -/
def reduce (i : Instr) (p m : Bool) (b a d : Reg)
    (f : (Nat → Nat → Nat × Flags) → Nat → List (Option (Nat × Nat)) → Option Nat × List (Nat × Flags)) :
    State → Host.Outcome State Fault Refusal :=
  vector i d (legal i (grps 1 [a, d]) (badFold b))
    (do
      let t ← look id
      let n := t.regs.grp
      let w := t.regs.sew
      sources ([.v p a n] ++ if t.isQueue d.toNat then [] else [.v false d n])
      let as ← readV i a n w t.regs.vl.toNat
      let old :=
        if t.isQueue d.toNat then (Config.freeWord t.cycle (2048 + d.toNat)).toNat % 2 ^ w
        else groupBits t.regs.v t.cap d.toNat n % 2 ^ w
      let r := f (foldOp t.regs b) old (present (t.regs.active m) as)
      retire [a]
      putV i d n w (match r.1 with | some v => [.put v] | none => [.keep])
      updateRegs (fun g => g.raiseAll r.2))

/-- R447. -/
def execVred (p m : Bool) (b a d : Reg) (s : State) := reduce (.vred p m b a d) p m b a d treeReduce s
/-- R447. -/
def execVredo (p m : Bool) (b a d : Reg) (s : State) := reduce (.vredo p m b a d) p m b a d orderReduce s

/-- The running fold of VSCAN (R452): results and flags. -/
def scanFold (op : Nat → Nat → Nat × Flags) : Option Nat → List (Option (Nat × Nat)) → List Out × List (Nat × Flags)
  | _, [] => ([], [])
  | acc, none :: l =>
    let (os, fs) := scanFold op acc l
    (.idle :: os, fs)
  | none, some x :: l =>
    let (os, fs) := scanFold op (some x.1) l
    (.put x.1 :: os, fs)
  | some v, some x :: l =>
    let r := op v x.1
    let (os, fs) := scanFold op (some r.1) l
    (.put r.1 :: os, (x.2, r.2) :: fs)

/-- R452. -/
def execVscan (p m : Bool) (b a d : Reg) (s : State) :=
  vector (.vscan p m b a d) d (legal (.vscan p m b a d) (grps 1 [a, d]) (badFold b))
    (do
      let t ← look id
      let n := t.regs.grp
      let w := t.regs.sew
      sources [.v p a n]
      noOverlap (.vscan p m b a d) true (d, n) (a, n)
      let as ← readV (.vscan p m b a d) a n w t.regs.vl.toNat
      let r := scanFold (foldOp t.regs b) none (present (t.regs.active m) as)
      retire [a]
      putV (.vscan p m b a d) d n w r.1
      updateRegs (fun g => g.raiseAll r.2)) s

/-! Counts of a mask (R419, R444) -/

/-- The set bits of a mask among the active elements. -/
def maskBits (r : Regs) (m : Bool) (a : BitVec 3) : List Bool :=
  ((r.active m).zipIdx).map (fun x => x.1 && r.mbit a.toNat x.2)

/-- R444. -/
def execVpopc (m : Bool) (a : BitVec 3) (d : Reg) (s : State) :=
  vectorPlain (.vpopc m a d) (pure ())
    (do
      let t ← look id
      putX d (BitVec.ofNat 64 ((maskBits t.regs m a).countP id))) s

/-- R419. -/
def execVfirst (m : Bool) (a : BitVec 3) (d : Reg) (s : State) :=
  vectorPlain (.vfirst m a d) (pure ())
    (do
      let t ← look id
      let l := maskBits t.regs m a
      putX d (if l.any id then BitVec.ofNat 64 (l.idxOf true) else BitVec.allOnes 64)) s

/-! VMASK (R363-R365) -/

/-- R363. -/
def maskOp (o : BitVec 3) (a b : Bool) : Bool :=
  match o.toNat with
  | 0 => a && b
  | 1 => a || b
  | 2 => a != b
  | 3 => a && !b
  | 4 => !(a && b)
  | 5 => !(a || b)
  | 6 => a == b
  | _ => a || !b

/-- R364. -/
def execMlog (m : Bool) (o b a d : BitVec 3) (s : State) :=
  vectorPlain (.mlog m o b a d) (pure ())
    (do
      let t ← look id
      putM d (outsOf (t.regs.active m) (fun i => bitOut (maskOp o (t.regs.mbit a.toNat i) (t.regs.mbit b.toNat i))))) s

/-- R365, kind 00. -/
def execMmovMask (m : Bool) (a d : BitVec 3) (s : State) :=
  vectorPlain (.mmovMask m a d) (pure ())
    (do
      let t ← look id
      putM d (outsOf (t.regs.active m) (fun i => bitOut (t.regs.mbit a.toNat i)))) s

/-- R365, kind 01. -/
def execMmovFromVector (p m : Bool) (a : Reg) (d : BitVec 3) (s : State) :=
  vectorPlain (.mmovFromVector p m a d) (legal (.mmovFromVector p m a d) (grps 1 [a]) (fun r => r.sewCode == 0))
    (do
      let t ← look id
      let n := t.regs.grp
      sources [.v p a n]
      let as ← readV (.mmovFromVector p m a d) a n t.regs.sew t.regs.vl.toNat
      retire [a]
      putM d (outsOf (t.regs.active m) (fun i => bitOut (as.getD i 0 != 0)))) s

/-- R365, kind 10. -/
def execMmovToVector (m : Bool) (a : BitVec 3) (d : Reg) (s : State) :=
  vector (.mmovToVector m a d) d (legal (.mmovToVector m a d) (grps 1 [d]) (fun r => r.sewCode == 0))
    (do
      let t ← look id
      putV (.mmovToVector m a d) d t.regs.grp t.regs.sew
        (outsOf (t.regs.active m) (fun i => bitOut (t.regs.mbit a.toNat i)))) s

end Sys2Proof.Machine
end

