-- ==== Sys2Proof/Machine/VFp.lean ====
section
/-! DEFINITION. The VFP, VFP.X and VSF groups and the compressed vector FP forms (05 R83-R94, R99, R102; 15 R301; 19, 20
R414-R418, R420-R423, R451, R453). -/

namespace Sys2Proof.Machine

/-! The shape of the group (R414) -/

/-- ILLEGAL of R83 and R91. -/
def badFp (r : Regs) : Bool := r.vfmt.isNone || r.frm == 5

/-- The format that vtype names. -/
def Regs.fpFmt (r : Regs) : Fmt := r.vfmt.getD f32

/-- Results of a function of one, two or three elements on active elements, with the flags of each. -/
def fpOuts (act : List Bool) (f : Nat → Nat × Flags) : List Out × List (Nat × Flags) :=
  let rs := (act.zipIdx).map (fun x => (x.1, x.2, if x.1 then f x.2 else (0, 0)))
  (rs.map (fun r => if r.1 then .put r.2.2.1 else .idle), rs.filterMap (fun r => if r.1 then some (r.2.1, r.2.2.2) else none))

/-- A function of three elements at a format under a rounding mode; the third is the old element of vd. -/
abbrev FpFn := Fmt → Rm → Nat → Nat → Nat → Nat × Flags

/-- A vector FP instruction on va (named by `getA`), the second operand and, where `acc`, the old vd. -/
def fpOp (i : Instr) (getA : M Reg) (p : Bool) (o : Second) (acc m : Bool) (d : Reg) (bad : Regs → Bool) (f : FpFn) :
    State → Host.Outcome State Fault Refusal :=
  vector i d
    (do
      legal i (fun r => grps 1 [d] r ++ o.groups r.grp) bad
      let a ← getA
      legal i (grps 1 [a]) (fun _ => false))
    (do
      let a ← getA
      let t ← look id
      let n := t.regs.grp
      let w := t.regs.sew
      let vl := t.regs.vl.toNat
      sources ((.v p a n :: o.src n) ++ if acc then [.v false d n] else [])
      let as ← readV i a n w vl
      let bs ← o.read i n w vl
      let ds ← if acc then readV i d n w vl else pure []
      let r := fpOuts (t.regs.active m) (fun j =>
        f t.regs.fpFmt t.regs.frm.toNat (as.getD j 0) (bs.getD j 0) (ds.getD j 0))
      retire ((a :: o.regs) ++ if acc then [d] else [])
      putV i d n w r.1
      updateRegs (fun g => g.raiseAll r.2))

/-- VFP and VFP.X with va named. -/
def vfp (i : Instr) (p : Bool) (o : Second) (m : Bool) (a d : Reg) (f : FpFn) := fpOp i (pure a) p o false m d badFp f

/-- A compressed form: va = LAST, and both sources wait (R300, R301). -/
def vfpLast (i : Instr) (b : Reg) (acc : Bool) (d : Reg) (f : FpFn) :=
  fpOp i (needLast i lastV) false (.v false b) acc false d badFp f

def fpAdd : FpFn := fun f rm x y _ => f.add rm x y
def fpSub : FpFn := fun f rm x y _ => f.sub rm x y
def fpMul : FpFn := fun f rm x y _ => f.mul rm x y
def fpDiv : FpFn := fun f rm x y _ => f.div rm x y
def fpMin : FpFn := fun f _ x y _ => f.minMax false x y
def fpMax : FpFn := fun f _ x y _ => f.minMax true x y
def fpFma : FpFn := fun f rm x y z => f.fma rm x y z

/-! VFP, VFP.X -/

/-- R415. -/
def execVfaddVr (p q m : Bool) (b a d : Reg) (s : State) := vfp (.vfaddVr p q m b a d) p (.v q b) m a d fpAdd s
/-- R415. -/
def execVfaddVx (p q m : Bool) (b a d : Reg) (s : State) := vfp (.vfaddVx p q m b a d) p (.x q b) m a d fpAdd s
/-- R423. -/
def execVfsubVr (p q m : Bool) (b a d : Reg) (s : State) := vfp (.vfsubVr p q m b a d) p (.v q b) m a d fpSub s
/-- R423. -/
def execVfsubVx (p q m : Bool) (b a d : Reg) (s : State) := vfp (.vfsubVx p q m b a d) p (.x q b) m a d fpSub s
/-- R422. -/
def execVfmulVr (p q m : Bool) (b a d : Reg) (s : State) := vfp (.vfmulVr p q m b a d) p (.v q b) m a d fpMul s
/-- R422. -/
def execVfmulVx (p q m : Bool) (b a d : Reg) (s : State) := vfp (.vfmulVx p q m b a d) p (.x q b) m a d fpMul s
/-- R418. -/
def execVfdivVr (p q m : Bool) (b a d : Reg) (s : State) := vfp (.vfdivVr p q m b a d) p (.v q b) m a d fpDiv s
/-- R418. -/
def execVfdivVx (p q m : Bool) (b a d : Reg) (s : State) := vfp (.vfdivVx p q m b a d) p (.x q b) m a d fpDiv s
/-- R421. -/
def execVfminVr (p q m : Bool) (b a d : Reg) (s : State) := vfp (.vfminVr p q m b a d) p (.v q b) m a d fpMin s
/-- R421. -/
def execVfminVx (p q m : Bool) (b a d : Reg) (s : State) := vfp (.vfminVx p q m b a d) p (.x q b) m a d fpMin s
/-- R421. -/
def execVfmaxVr (p q m : Bool) (b a d : Reg) (s : State) := vfp (.vfmaxVr p q m b a d) p (.v q b) m a d fpMax s
/-- R421. -/
def execVfmaxVx (p q m : Bool) (b a d : Reg) (s : State) := vfp (.vfmaxVx p q m b a d) p (.x q b) m a d fpMax s
/-- R420: vd is a source that waits. -/
def execVfmaVr (p q m : Bool) (b a d : Reg) (s : State) :=
  fpOp (.vfmaVr p q m b a d) (pure a) p (.v q b) true m d badFp fpFma s
/-- R420: vd is a source that waits. -/
def execVfmaVx (p q m : Bool) (b a d : Reg) (s : State) :=
  fpOp (.vfmaVx p q m b a d) (pure a) p (.x q b) true m d badFp fpFma s

/-! VFCMP (R416) -/

/-- VFCMP's work. -/
def fpCompare (i : Instr) (p : Bool) (o : Second) (m : Bool) (c : BitVec 2) (a : Reg) (d : BitVec 3) :
    State → Host.Outcome State Fault Refusal :=
  vectorPlain i (legal i (fun r => grps 1 [a] r ++ o.groups r.grp) badFp)
    (do
      let t ← look id
      let n := t.regs.grp
      let w := t.regs.sew
      let vl := t.regs.vl.toNat
      sources (.v p a n :: o.src n)
      let as ← readV i a n w vl
      let bs ← o.read i n w vl
      let r := fpOuts (t.regs.active m) (fun j =>
        let x := t.regs.fpFmt.cmp c.toNat (as.getD j 0) (bs.getD j 0)
        (if x.1 then 1 else 0, x.2))
      retire (a :: o.regs)
      putM d r.1
      updateRegs (fun g => g.raiseAll r.2))

/-- R416. -/
def execVfcmpVr (p q m : Bool) (b a : Reg) (c : BitVec 2) (d : BitVec 3) (s : State) :=
  fpCompare (.vfcmpVr p q m b a c d) p (.v q b) m c a d s
/-- R416. -/
def execVfcmpVx (p q m : Bool) (b a : Reg) (c : BitVec 2) (d : BitVec 3) (s : State) :=
  fpCompare (.vfcmpVx p q m b a c d) p (.x q b) m c a d s

/-! VFCVT (R88-R92, R417) -/

/-- A destination of VFCVT. -/
inductive CvtDst where
  | float (f : Fmt)
  | taper (n : Nat)
  | int (signed : Bool) (w : Nat)
  deriving DecidableEq, Repr

/-- The destination by B[4], MODE and vtype; none where R88 or R417 traps ILLEGAL. -/
def cvtDst (r : Regs) (toInt w : Bool) : Option CvtDst :=
  if toInt then (if r.sewCode = 0 ∨ r.sewCode = 4 then none else some (.int (!w) r.sew))
  else if w then none
  else
    match r.sewCode with
    | 0 => some (.taper 6)
    | 1 => if r.fmt = 0 then some (.taper 8) else none
    | 2 => some (.float (if r.fmt = 0 then f16 else bf16))
    | 3 => some (.float f32)
    | _ => none

/-- The source format of VFCVT (R88): F64 is none of them. -/
def vcvtSrc (b : Reg) : Option CvtSrc := if 13 ≤ b.toNat % 16 then none else cvtSrc (b.toNat % 16)

/-- Convert one element (R89). A conversion to the same tapered format copies the value; NaR, a quiet NaN (R86), is its only
NaN. -/
def CvtSrc.convert (c : CvtSrc) (dst : CvtDst) (rm : Rm) (p : Nat) : Nat × Flags :=
  match dst with
  | .float f => c.toFloat f rm p
  | .taper n => if c = .taper n then (p % 2 ^ n, 0) else taperEncode n rm (c.value p)
  | .int sg w => c.toInt sg w rm p

/-- A narrowing conversion (R91): from a wider float to F16, BF16, T8 or T6. -/
def narrowing (c : CvtSrc) (dst : CvtDst) : Bool :=
  match c, dst with
  | .float f, .float g => f == f32 && (g == f16 || g == bf16)
  | .float f, .taper _ => f == f32 || f == f16 || f == bf16
  | _, _ => false

/-- Registers of the source group (R88): the smallest power of two that is at least GRP × Ws / SEW. -/
def cvtGroup (r : Regs) (ws : Nat) : Nat :=
  (([1, 2, 4, 8, 16, 32, 64, 128].find? (fun k => decide (r.grp * ws ≤ k * r.sew))).getD 128)

/-- A finite value of a destination format, as an F32 operation of the chain takes it. -/
def dstValue (dst : CvtDst) (q : Nat) : Fp :=
  match dst with
  | .float f => f.decode q
  | .taper n => taperDecode n q
  | .int sg w => fpOfInt (intValue sg w q)

/-- The exact sum or difference of two finite values, rounded to F32 by RNE; NaN and infinite operands as FADD has them. -/
def chainAdd (x y : Fp) : Nat :=
  match x, y with
  | .nan _, _ => f32.canon
  | _, .nan _ => f32.canon
  | .inf m, .inf n => if m = n then f32.infinity m else f32.canon
  | .inf n, _ => f32.infinity n
  | _, .inf n => f32.infinity n
  | .fin n1 m1 e1, .fin n2 m2 e2 =>
    let (n, m, e) := exactAdd n1 m1 e1 n2 m2 e2 rne
    (f32.round rne n m e false).1

/-- A value with the other sign. -/
def Fp.opposite : Fp → Fp
  | .nan s => .nan s
  | .inf n => .inf (!n)
  | .fin n m e => .fin (!n) m e

def Fp.finite : Fp → Bool
  | .fin .. => true
  | _ => false

/-- A value converted to a narrower float or to a tapered format by RNE (R87, R89). -/
def narrowed (dst : CvtDst) (v : Fp) : Nat × Flags :=
  match dst with
  | .float f => f.ofFp rne v
  | .taper n => taperEncode n rne v
  | .int _ _ => (0, 0)

/-- One element of the EFB chain (R92): the result with its flags, which are those of converting the source element itself
(DEDUCED, log entry 54), and the carry after it. -/
def chainStep (c : CvtSrc) (dst : CvtDst) (carry p : Nat) : (Nat × Flags) × Nat :=
  let x := c.value p
  let y := f32.decode (chainAdd x (f32.decode carry))
  let q := (narrowed dst y).1
  let v := dstValue dst q
  ((q, (narrowed dst x).2), if y.finite && v.finite then chainAdd y v.opposite else 0)

/-- The chain through the elements: results, flags, carry. -/
def chain (c : CvtSrc) (dst : CvtDst) : Nat → Nat → List Bool → List Nat → List Out × List (Nat × Flags) × Nat
  | i, carry, true :: act, x :: xs =>
    let r := chainStep c dst carry x
    let (os, fs, k) := chain c dst (i + 1) r.2 act xs
    (.put r.1.1 :: os, (i, r.1.2) :: fs, k)
  | i, carry, false :: act, _ :: xs =>
    let (os, fs, k) := chain c dst (i + 1) carry act xs
    (.idle :: os, fs, k)
  | _, carry, _, _ => ([], [], carry)

/-- ILLEGAL of VFCVT. -/
def badCvt (b : Reg) (w : Bool) (r : Regs) : Bool :=
  match vcvtSrc b, cvtDst r (b.getLsbD 4) w with
  | some c, some dst => 8 < cvtGroup r c.width || (r.frm == 5 && !narrowing c dst)
  | _, _ => true

/-- R417. -/
def execVfcvt (p m w : Bool) (b a d : Reg) (s : State) :=
  vector (.vfcvt p m w b a d) d
    (do
      legal (.vfcvt p m w b a d) (grps 1 [d]) (badCvt b w)
      legal (.vfcvt p m w b a d) (fun r => [(a, cvtGroup r ((vcvtSrc b).getD (.float f32)).width)]) (fun _ => false))
    (do
      let t ← look id
      let n := t.regs.grp
      let sew := t.regs.sew
      let c := (vcvtSrc b).getD (.float f32)
      let dst := (cvtDst t.regs (b.getLsbD 4) w).getD (.float f32)
      let gs := cvtGroup t.regs c.width
      sources [.v p a gs]
      noOverlap (.vfcvt p m w b a d) (c.width == sew) (d, n) (a, gs)
      let as ← readV (.vfcvt p m w b a d) a gs c.width t.regs.vl.toNat
      let act := t.regs.active m
      retire [a]
      if t.regs.frm = 5 then do
        let (os, fs, carry) := chain c dst 0 t.regs.erc.toNat act as
        putV (.vfcvt p m w b a d) d n sew os
        updateRegs (fun r => if r.vl = 0 then r else { r with erc := BitVec.ofNat 32 carry })
        updateRegs (fun g => g.raiseAll fs)
      else do
        let r := fpOuts act (fun j => c.convert dst t.regs.frm.toNat (as.getD j 0))
        putV (.vfcvt p m w b a d) d n sew r.1
        updateRegs (fun g => g.raiseAll r.2)) s

/-! VSCACC (R98, R99, R451) -/

/-- An E8 scale as an F32 pattern's meaning (R98); 255 acts as a quiet NaN. -/
def e8Value (v : Nat) : Fp := if v % 256 = 255 then .nan false else .fin false 1 ((v % 256 : Nat) - 127)

/-- x + a × s with one rounding, of values (R99). -/
def fmaOf (rm : Rm) (a s : Fp) (acc : Nat) : Nat × Flags :=
  let z := f32.decode acc
  let sig := a.sig ||| s.sig ||| z.sig
  match a, s with
  | .nan _, _ => (f32.canon, sig)
  | _, .nan _ => (f32.canon, sig)
  | .inf n, .fin k m _ => if m = 0 then (f32.canon, nv ||| sig) else bigPlus (n != k) z sig
  | .fin k m _, .inf n => if m = 0 then (f32.canon, nv ||| sig) else bigPlus (n != k) z sig
  | .inf n, .inf k => bigPlus (n != k) z sig
  | .fin n1 m1 e1, .fin n2 m2 e2 =>
    match z with
    | .nan _ => (f32.canon, sig)
    | .inf n => (f32.infinity n, 0)
    | .fin n3 m3 e3 =>
      let (n, m, e) := exactAdd (n1 != n2) (m1 * m2) (e1 + e2) n3 m3 e3 rm
      f32.round rm n m e false
where
  /-- An infinite product plus the accumulator. -/
  bigPlus (n : Bool) (z : Fp) (sig : Flags) : Nat × Flags :=
    match z with
    | .nan _ => (f32.canon, sig)
    | .inf k => if k = n then (f32.infinity n, 0) else (f32.canon, nv)
    | .fin .. => (f32.infinity n, 0)

/-- VSCACC's function. -/
def fpScale (e8 : Bool) : FpFn := fun _ rm x y z => fmaOf rm (f32.decode x) (if e8 then e8Value y else f32.decode y) z

/-- ILLEGAL of VSCACC: SEW other than 32, and EFB. -/
def badScale (r : Regs) : Bool := r.sewCode != 3 || r.fmt != 0 || r.frm == 5

/-- R451. -/
def execVscaccVr (p q m g : Bool) (b a d : Reg) (s : State) :=
  fpOp (.vscaccVr p q m g b a d) (pure a) p (.v q b) true m d badScale (fpScale g) s
/-- R451. -/
def execVscaccVx (p q m g : Bool) (b a d : Reg) (s : State) :=
  fpOp (.vscaccVx p q m g b a d) (pure a) p (.x q b) true m d badScale (fpScale g) s

/-! VSF (R102, R453) -/

/-- R453. -/
def execVsf (p m : Bool) (f a d : Reg) (s : State) :=
  vector (.vsf p m f a d) d (legal (.vsf p m f a d) (grps 1 [a, d]) (fun r => badFp r || 8 < f.toNat))
    (do
      let t ← look id
      let n := t.regs.grp
      let w := t.regs.sew
      sources [.v p a n]
      let as ← readV (.vsf p m f a d) a n w t.regs.vl.toNat
      let r := fpOuts (t.regs.active m) (fun j => t.regs.fpFmt.special f.toNat (as.getD j 0))
      retire [a]
      putV (.vsf p m f a d) d n w r.1
      updateRegs (fun g => g.raiseAll r.2)) s

/-! Compressed forms (15 R301) -/

def execCVfadd (b d : Reg) (s : State) := vfpLast (.cVfadd b d) b false d fpAdd s
def execCVfsub (b d : Reg) (s : State) := vfpLast (.cVfsub b d) b false d fpSub s
def execCVfmul (b d : Reg) (s : State) := vfpLast (.cVfmul b d) b false d fpMul s
/-- V[d] ← LAST × V[b] + V[d]. -/
def execCVfma (b d : Reg) (s : State) := vfpLast (.cVfma b d) b true d fpFma s
def execCVfmax (b d : Reg) (s : State) := vfpLast (.cVfmax b d) b false d fpMax s

end Sys2Proof.Machine
end

