-- ==== Sys2Proof/Machine/VMem.lean ====
section
/-! DEFINITION. The vector memory instructions (07 R133, R134; 20 R429-R431, R458, R459) and the stores of the store
queues (04 R63-R67). -/

namespace Sys2Proof.Machine

/-! Elements (R429) -/

/-- The size of the accesses of an element: at SEW 6 it is accessed byte by byte (08 R151). -/
def elemSize (w : Nat) : Nat := if w = 6 then 1 else w / 8

/-- The rank of a cause in the order of R133. -/
def causeRank (c : Nat) : Nat :=
  if c = Cause.outwin then 0 else if c = Cause.pageabs then 1 else if c = Cause.pageperm then 2
  else if c = Cause.uncovered then 3 else 4

/-- The failure of a byte of a window access. -/
def byteCause (s : State) (acc : Acc) (va : Nat) : Option Nat :=
  match vectorByte s s.ctx acc (va % 2 ^ 64) with
  | .ok _ => none
  | .error c => some c

/-- The failure that an element's probe meets, if any: the first by rank of its bytes' (R133), or of its local range's
(R123, R139). -/
def elemCause (s : State) (acc : Acc) (loc : Bool) (e : Elem) : Option Nat :=
  if loc then
    if 1572864 < e.va + e.n then some Cause.outwin
    else if (s.covering e.va e.n).any (fun w => w.st == .empty) then some Cause.swatch else none
  else
    match byteCause s acc e.va, byteCause s acc (e.va + e.n - 1) with
    | none, c => c
    | some c, none => some c
    | some c, some d => if causeRank d < causeRank c then some d else some c

/-- An element lies in a swatch that is being filled or drained. -/
def elemStalls (s : State) (loc : Bool) (e : Elem) : Bool :=
  loc && (s.covering e.va e.n).any (fun w => w.st == .filling || w.st == .draining)

/-- The first failing element of a list: its position, address and cause. -/
def firstFailure (s : State) (acc : Acc) (loc : Bool) : Nat → List (Option Elem) → Option (Nat × Nat × Nat)
  | _, [] => none
  | i, none :: es => firstFailure s acc loc (i + 1) es
  | i, some e :: es =>
    match elemCause s acc loc e with
    | some c => some (i, e.va, c)
    | none => firstFailure s acc loc (i + 1) es

/-- Active elements, by index. -/
def activeElems (act : List Bool) (es : List Elem) : List (Option Elem) :=
  (act.zip es).map (fun x => if x.1 then some x.2 else none)

/-- Probe the active elements (R133): a trap, or a stall (R139). -/
def probe (acc : Acc) (loc : Bool) (es : List (Option Elem)) : M Unit := do
  let s ← look id
  match firstFailure s acc loc 0 es with
  | some (_, va, c) => trap c va
  | none => do
    waitIf (es.any (fun e => match e with | some e => elemStalls s loc e | none => false)) .resource
    if loc then observeFills (es.flatMap (fun e => match e with | some e => s.covering e.va e.n | none => [])).eraseDups

/-- Load one element, own stores first (R73). -/
def loadElem (loc : Bool) (w : Nat) (e : Elem) : M Nat := do
  let s ← look id
  let bs ←
    if loc then loadLocal e.va e.n
    else do
      let ps ← orTrapAt (windowPieces s s.ctx .read e.va e.n)
      loadPieces e.va (elemSize w) ps
  pure (ofBytes bs / 2 ^ e.sh % 2 ^ w)

/-- Load the active elements in ascending order. -/
def loadElems (loc : Bool) (w : Nat) : List (Option Elem) → M (List Out)
  | [] => pure []
  | none :: es => do
    let os ← loadElems loc w es
    pure (.idle :: os)
  | some e :: es => do
    let v ← loadElem loc w e
    let os ← loadElems loc w es
    pure (.put v :: os)

/-- R67 for every active element. -/
def elemHazards (loc : Bool) : List (Option Elem) → M Unit
  | [] => pure ()
  | none :: es => elemHazards loc es
  | some e :: es => do
    queueHazard loc e.va e.n
    elemHazards loc es

/-! Loads (R430) -/

/-- R134: with FF, a failure after element 0 shortens vl. -/
def firstFault (ff loc : Bool) (es : List (Option Elem)) : M Unit := do
  let s ← look id
  match firstFailure s .read loc 0 es with
  | some (i, _, _) => if ff ∧ i ≠ 0 then updateRegs (fun r => { r with vl := BitVec.ofNat 16 i }) else pure ()
  | none => pure ()

/-- VLD and VLDS once their base and stride are known. -/
def loadVector (i : Instr) (m ff loc : Bool) (base stride bo : Nat) (d : Reg) : M Unit := do
  let t ← look id
  let w := t.regs.sew
  let es := activeElems (t.regs.active m) (elemsOf w base stride bo t.regs.vl.toNat)
  firstFault ff loc es
  let t ← look id
  let es := es.take t.regs.vl.toNat
  probe .read loc es
  elemHazards loc es
  let os ← loadElems loc w es
  putGroup i d t.regs.grp w os true

/-- The conditions on SEW and B of the unit-stride forms (R288). -/
def badOffset (b : Reg) (r : Regs) : Bool := if r.sewCode = 0 then 8 ≤ b.toNat else b.toNat != 0

/-- ILLEGAL of the vector memory instructions. -/
def memLegal (i : Instr) (groups : List Reg) (bad : Regs → Bool) : M Unit := do
  notExec i
  legal i (fun r => groups.map (fun d => (d, r.grp))) bad

/-- R430. The evict-first hint changes timing only (07 R141). -/
def execVld (p m e f l : Bool) (b a d : Reg) (s : State) :=
  vectorPlain (.vld p m e f l b a d) (memLegal (.vld p m e f l b a d) [d] (badOffset b))
    (do
      sources [.x p a]
      let u ← getX a
      let t ← look id
      loadVector (.vld p m e f l b a d) m f l u.toNat (t.regs.sew / 8) b.toNat d) s

/-- R430. -/
def execVlds (p q m e f l : Bool) (b a d : Reg) (s : State) :=
  vectorPlain (.vlds p q m e f l b a d) (memLegal (.vlds p q m e f l b a d) [d] (fun r => r.sewCode == 0))
    (do
      sources [.x p a, .x q b]
      let u ← getX a
      let v ← getX b
      loadVector (.vlds p q m e f l b a d) m f l u.toNat v.toNat 0 d) s

/-! Stores (R458) -/

/-- Every active element lies within an output range of the ticket, if there is one (12 R234). -/
def elemTickets : List (Option Elem) → M Unit
  | [] => pure ()
  | none :: es => elemTickets es
  | some e :: es => do
    checkTicketStore e.va e.n
    elemTickets es

/-- Join bit writes of the same byte, those of higher elements on top. -/
def joinParts : List (Nat × Byte × Byte) → List (Nat × Byte × Byte)
  | [] => []
  | (a, m, v) :: ps =>
    match joinParts ps with
    | [] => [(a, m, v)]
    | (b, m', v') :: qs => if a = b then (a, m ||| m', mergeBits m' v' v) :: qs else (a, m, v) :: (b, m', v') :: qs

/-- The memory key of a window byte to be written, 0 where it does not translate. -/
def writeKey (s : State) (va : Nat) : Nat := match vectorByte s s.ctx .write va with | .ok k => k | .error _ => 0

/-- Perform one bit write at once (13 R245). -/
def performPart (loc : Bool) (x : Nat × Byte × Byte) : M Unit := fun s =>
  match commitOne s (.part loc x.1 (if loc then 0 else writeKey s x.1) x.2.1 x.2.2 s.regs.pc) with
  | .ok s' => .ok ((), s')
  | .error e => .error e

/-- The buffered forms of bit writes; each byte's memory key as the window gives it now. -/
def bufferedParts (s : State) (loc : Bool) (l : List (Nat × Byte × Byte)) : List Buffered :=
  l.map (fun x => .part loc x.1 (if loc then 0 else writeKey s x.1) x.2.1 x.2.2 s.regs.pc)

/-- Perform bit writes one after the other. -/
def performParts (loc : Bool) : List (Nat × Byte × Byte) → M Unit
  | [] => pure ()
  | x :: xs => do
    performPart loc x
    performParts loc xs

/-- Store 6-bit elements. -/
def storeParts (loc : Bool) (l : List (Nat × Byte × Byte)) : M Unit := do
  let s ← look id
  if s.priv then performParts loc l
  else
    match l with
    | [] => pure ()
    | x :: _ => buffer x.1 (bufferedParts s loc l)

/-- The writes of elements of whole bytes. -/
def writesFor (w : Nat) : List (Option Elem × Nat) → M (List Write)
  | [] => pure []
  | (none, _) :: l => writesFor w l
  | (some e, v) :: l => do
    let s ← look id
    let ps ← orTrapAt (windowPieces s s.ctx .write e.va e.n)
    let ws ← writesFor w l
    pure (⟨e.va, e.n, ps, toBytes e.n v⟩ :: ws)

/-- VST and VSTS once their base and stride are known. -/
def storeVector (m loc : Bool) (base stride bo : Nat) (vs : Reg) : M Unit := do
  let t ← look id
  let w := t.regs.sew
  let vl := t.regs.vl.toNat
  let es := activeElems (t.regs.active m) (elemsOf w base stride bo vl)
  let vals := elems w (groupBits t.regs.v t.cap vs.toNat t.regs.grp) vl
  probe .write loc es
  if loc then pure () else elemTickets es
  let l := es.zip vals
  if w = 6 then
    storeParts loc (joinParts (l.flatMap (fun x => match x.1 with | some e => partsOf 6 e x.2 | none => [])))
  else if loc then
    storeLocal (l.filterMap (fun x => x.1.map (fun e => (e.va, toBytes e.n x.2))))
  else do
    let ws ← writesFor w l
    storeAll ws

/-- R458. -/
def execVst (p m e l : Bool) (b a d : Reg) (s : State) :=
  vectorPlain (.vst p m e l b a d) (memLegal (.vst p m e l b a d) [d] (badOffset b))
    (do
      let t ← look id
      sources [.x p a, .v false d t.regs.grp]
      let u ← getX a
      storeVector m l u.toNat (t.regs.sew / 8) b.toNat d) s

/-- R458. -/
def execVsts (p q m e l : Bool) (b a d : Reg) (s : State) :=
  vectorPlain (.vsts p q m e l b a d) (memLegal (.vsts p q m e l b a d) [d] (fun r => r.sewCode == 0))
    (do
      let t ← look id
      sources [.x p a, .x q b, .v false d t.regs.grp]
      let u ← getX a
      let v ← getX b
      storeVector m l u.toNat v.toNat 0 d) s

/-! The queues (R63-R67, R431, R459) -/

/-- Legal in the access hart alone. -/
def accessOnly (i : Instr) (b : Reg) : M Unit := do
  let s ← look id
  illegalIf i (!s.isAccess)
  legal i (fun _ => []) (badOffset b)

/-- A stall that comes before the strip commit, unless the base traps EMPTYSRC (R431). -/
def stallFirst (p : Bool) (a : Reg) (full : State → Bool) : M Unit := do
  let s ← look id
  waitIf (full s && !(p && s.regs.emptyX a)) .room

/-- R431. -/
def execVldq (p e l : Bool) (b a : Reg) (n : BitVec 2) (s : State) :=
  irrevocable (.vldq p e l b a n)
    (do
      accessOnly (.vldq p e l b a n) b
      stallFirst p a (fun t =>
        decide (min 16 t.regs.rad.toNat ≤ (t.front.queueSeen n.toNat).length)))
    (do
      sources [.x p a]
      let u ← getX a
      let t ← look id
      let w := t.regs.sew
      let vl := t.regs.vl.toNat
      let es := (elemsOf w u.toNat (w / 8) b.toNat vl).map some
      probe .read l es
      elemHazards l es
      let os ← loadElems l w es
      update (fun t => t.setFront (t.front.pushLoad n.toNat
        { vl := vl, sew := t.regs.sewCode, stop := vl == 0, bits := packElems w (os.map (fun o => match o with | .put v => v | _ => 0)) }))) s

/-- R459. -/
def execVstq (p e l : Bool) (b a : Reg) (n : BitVec 2) (s : State) :=
  irrevocable (.vstq p e l b a n)
    (do
      accessOnly (.vstq p e l b a n) b
      stallFirst p a (fun t => decide (16 ≤ (t.front.sqAddr.get [] n.toNat).length)))
    (do
      sources [.x p a]
      let u ← getX a
      let t ← look id
      let w := t.regs.sew
      let vl := t.regs.vl.toNat
      let es := (elemsOf w u.toNat (w / 8) b.toNat vl).map some
      probe .write l es
      if l then pure () else elemTickets es
      let q := t.front.sqAddr.get [] n.toNat
      match (t.front.sqData.get [] n.toNat)[q.length]? with
      | some x => illegalIf (.vstq p e l b a n) (x.vl != vl || x.sew != t.regs.sewCode)
      | none => pure ()
      let x : AEntry := { base := u.toNat, loc := l, bo := b.toNat, vl := vl, sew := t.regs.sewCode, time := t.cycle }
      update (fun t => t.setFront { t.front with sqAddr := t.front.sqAddr.set [] n.toNat (q ++ [x]) })) s

/-! STORE_QUEUE_STORE (R65) -/

/-- The earliest store of a front that is not performed, in program order: its queue and itself. One whose data no hart can bring
any more is none (R66). -/
def Front.earliest (F : Front) : Option (Nat × AEntry) :=
  [0, 1, 2, 3].foldl (fun m q =>
    match F.entriesOf q, m with
    | [], m => m
    | x :: _, none => some (q, x.1)
    | x :: _, some (r, y) => if x.1.time < y.time then some (q, x.1) else some (r, y)) none

/-- Store one element of a pair at once; its failure otherwise. -/
def storeElem (s : State) (loc : Bool) (w : Nat) (e : Elem) (v : Nat) : Except Nat State :=
  match elemCause s .write loc e with
  | some c => .error c
  | none =>
    let work : M Unit :=
      if w = 6 then performParts loc (partsOf 6 e v)
      else if loc then update (fun s => s.setScratch s.coreNo e.va (toBytes e.n v))
      else do
        let ps ← orTrapAt (windowPieces s s.ctx .write e.va e.n)
        performAll [⟨e.va, e.n, ps, toBytes e.n v⟩]
    match work s with
    | .ok (_, s') => .ok s'
    | .error (.trap c _) => .error c
    | .error (.trapAt c _ _) => .error c
    | .error _ => .error Cause.swatch

/-- Store the elements of a pair: an element that fails is not written; the first failure's cause and address. -/
def storePair (loc : Bool) (w : Nat) : State → List (Elem × Nat) → State × Option (Nat × Nat)
  | s, [] => (s, none)
  | s, (e, v) :: l =>
    match storeElem s loc w e v with
    | .ok s' => storePair loc w s' l
    | .error c =>
      (((storePair loc w s l).1), some (c, e.va))

/-- R65: the earliest pair of front `arg.front` is performed, once it is complete and, when it is local, no swatch that it
stores into is being filled or drained (log entry 31). -/
def execStoreQueueStore (s : State) : Host.Outcome State Fault Refusal :=
  let f := s.arg.front % 256
  let s := { s with fid := f, slot := .a }
  match if s.front.frozen then none else s.front.earliest with
  | none => .next s
  | some (q, x) =>
    match s.front.sqData.get [] q with
    | [] => .next s
    | y :: ys =>
      let w := sewBits x.sew
      let es := elemsOf w x.base (w / 8) x.bo x.vl
      if es.any (elemStalls s x.loc) then .next s
      else
        let F := s.front
        let s := s.setFront { F with
          sqAddr := F.sqAddr.set [] q (F.sqAddr.get [] q).tail, sqData := F.sqData.set [] q ys
          held := F.held.filter (fun h => x.time < h.1) }
        let r := storePair x.loc w s (es.zip (elems w y.bits x.vl))
        let s : State := r.1
        let s : State :=
          match r.2 with
          | some (c, va) =>
            if s.hart.live then s.setHart { s.hart with pend := s.hart.pend ++ [{ cause := c, val := BitVec.ofNat 64 va }] } else s
          | none => s
        .next (s.pairEnd f)

end Sys2Proof.Machine
end

