-- ==== Sys2Proof/Machine/Tile.lean ====
section
/-! DEFINITION. The tiles (10 R194-R209; 05 R96, R98; 18 R366; 19 R393, R396-R403): the cells and the MOPA step that the
matrix engine shares, and the tile instructions. -/

namespace Sys2Proof.Machine

/-! Exact arithmetic on decoded values (R96) -/

/-- A product, with NV where R84 raises it. -/
def Fp.times : Fp → Fp → Fp × Flags
  | .nan a, y => (.nan false, Fp.sig (.nan a) ||| y.sig)
  | x, .nan b => (.nan false, x.sig ||| Fp.sig (.nan b))
  | .inf n, .inf k => (.inf (n != k), 0)
  | .inf n, .fin k m _ => if m = 0 then (.nan false, nv) else (.inf (n != k), 0)
  | .fin n m _, .inf k => if m = 0 then (.nan false, nv) else (.inf (n != k), 0)
  | .fin n1 m1 e1, .fin n2 m2 e2 => (.fin (n1 != n2) (m1 * m2) (e1 + e2), 0)

/-- A sum. -/
def Fp.plus : Fp → Fp → Fp × Flags
  | .nan a, y => (.nan false, Fp.sig (.nan a) ||| y.sig)
  | x, .nan b => (.nan false, x.sig ||| Fp.sig (.nan b))
  | .inf n, .inf k => if n = k then (.inf n, 0) else (.nan false, nv)
  | .inf n, .fin .. => (.inf n, 0)
  | .fin .., .inf n => (.inf n, 0)
  | .fin n1 m1 e1, .fin n2 m2 e2 =>
    let r := exactAdd n1 m1 e1 n2 m2 e2 rne
    (.fin r.1 r.2.1 r.2.2, 0)

/-- The exact sum of products of pairs of values, over an accumulated sum. -/
def dotFrom : Fp × Flags → List (Fp × Fp) → Fp × Flags
  | r, [] => r
  | r, (x, y) :: l =>
    let p := x.times y
    let q := r.1.plus p.1
    dotFrom (q.1, r.2 ||| p.2 ||| q.2) l

/-- The exact sum of products of pairs. A sum of zeros alone starts from the first product, so that it is -0 where every product is
(DESIGN CHOICE: R96 does not state its sign; log entry 66). -/
def dot : List (Fp × Fp) → Fp × Flags
  | [] => (.fin false 0 0, 0)
  | (x, y) :: l => dotFrom (x.times y) l

/-- RNE_F32(t + s) for an F32 pattern (R96). -/
def accumulate (t : Nat) (s : Fp × Flags) : Nat × Flags :=
  let q := (f32.decode t).plus s.1
  let r := f32.ofFp rne q.1
  (r.1, s.2 ||| q.2 ||| r.2)

/-! Formats (R96, R198, R201) -/

/-- Depth of a step. -/
def tileDepth (fmt : Nat) : Nat := if fmt ≤ 1 then 1 else if fmt = 3 then 8 else 4

/-- Width of an operand element. -/
def tileWidth (fmt : Nat) : Nat := if fmt ≤ 1 then 16 else if fmt = 3 then 6 else 8

/-- Bits of an operand slice. -/
def sliceBits (fmt : Nat) : Nat := 128 * tileDepth fmt * tileWidth fmt

/-- The value of an operand element of a floating or tapered format. -/
def tileDecode (fmt p : Nat) : Fp :=
  if fmt = 0 then bf16.decode p else if fmt = 1 then f16.decode p else if fmt = 2 then taperDecode 8 p else taperDecode 6 p

/-! Cells (R194) -/

/-- The 16,384 cells in order. -/
def cellsOf (bits : BitVec 524288) : List Nat := (List.range 16384).map (fun n => (bits.extractLsb' (32 * n) 32).toNat)

/-- Cells from a list. -/
def ofCells (l : List Nat) : BitVec 524288 := BitVec.ofNat 524288 (packElems 32 l)

/-- Cell (i, j). -/
def cellAt (bits : BitVec 524288) (i j : Nat) : Nat := (bits.extractLsb' (32 * (128 * i + j)) 32).toNat

/-- Change the cells of rows below `rows` and columns below `cols`: the cells, and the flags by cell number. -/
def mapCells (rows cols : Nat) (f : Nat → Nat → Nat → Nat × Flags) (bits : BitVec 524288) : BitVec 524288 × List (Nat × Flags) :=
  let l := ((cellsOf bits).zipIdx).map (fun x =>
    if x.2 / 128 < rows ∧ x.2 % 128 < cols then f (x.2 / 128) (x.2 % 128) x.1 else (x.1, 0))
  (ofCells (l.map (fun x => x.1)), (l.zipIdx).map (fun x => (x.2, x.1.2)))

/-- Row `n` of the cells replaced. -/
def withRow (bits : BitVec 524288) (n : Nat) (vals : List Nat) : BitVec 524288 :=
  ofCells (((cellsOf bits).zipIdx).map (fun x => if x.2 / 128 = n then vals.getD (x.2 % 128) 0 else x.1))

/-- One step (R96, R202): `a` and `b` are the operand slices as bit strings. -/
def mopaStep (fmt rows cols a b : Nat) (bits : BitVec 524288) : BitVec 524288 × List (Nat × Flags) :=
  let d := tileDepth fmt
  let w := tileWidth fmt
  let el (x k : Nat) : Nat := x / 2 ^ (w * k) % 2 ^ w
  mapCells rows cols (fun i j t =>
    if fmt = 4 then
      let s := (List.range d).foldl (fun v q => v + intValue true 8 (el a (i * d + q)) * intValue true 8 (el b (j * d + q))) 0
      (((t : Int) + s) % 2 ^ 32 |>.toNat, 0)
    else
      accumulate t (dot ((List.range d).map (fun q => (tileDecode fmt (el a (i * d + q)), tileDecode fmt (el b (j * d + q)))))))
    bits

/-! Naming tiles (R194, R199, R206) -/

/-- Tile instructions are ILLEGAL in the access hart of a PAIR CR. -/
def tileHart (i : Instr) : M Unit := do
  let s ← look id
  illegalIf i s.isAccess

/-- The core's number of tile `k` of the CR, or ILLEGAL. -/
def tileNo (i : Instr) (k : Nat) : M Nat := do
  let s ← look id
  match s.run.tiles[k]? with
  | some c => pure c
  | none => illegal i

/-- A core's tile, once no matrix command holds it (R195). -/
def tileReady (c : Nat) : M Tile := do
  let s ← look id
  let t := s.core.tiles.get {} c
  waitIf (t.st == .busy || t.st == .draining) .resource
  pure t

/-- TILERET and TILEOFF of tiles in the order named (R199). -/
def tileUsable (k : Nat) (t : Tile) : M Unit := trapIf t.retired Cause.tileret k
def tileOn (k : Nat) (t : Tile) : M Unit := trapIf (t.st == .off) Cause.tileoff k

/-- Write a core's tile. -/
def putTile (c : Nat) (t : Tile) : M Unit :=
  update (fun s => s.setCore { s.core with tiles := s.core.tiles.set {} c t })

/-- Run a set-up instruction on tile `k`: `on` where it must not be OFF. -/
def tileOp (i : Instr) (k : Nat) (on : Bool) (f : Tile → Tile) : State → Host.Outcome State Fault Refusal :=
  plain i do
    tileHart i
    let c ← tileNo i k
    let t ← tileReady c
    tileUsable k t
    if on then tileOn k t
    putTile c (f t)

/-! Set-up (R200) -/

/-- A tile configured (R200, R393). -/
def Tile.configured (fmt : BitVec 3) (t : Tile) : Tile := { t with st := .idle, fmt := fmt, int := fmt == 4, cells := 0 }

/-- A tile turned off: its contents are lost (R398). -/
def Tile.turnedOff (t : Tile) : Tile := { t with st := .off, cells := 0 }

/-- R393. -/
def execTcfg (fmt ta : BitVec 3) (s : State) := tileOp (.tcfg fmt ta) ta.toNat false (Tile.configured fmt) s
/-- R398. -/
def execToff0 (s : State) := tileOp .toff0 0 false Tile.turnedOff s
/-- R398. -/
def execToff1 (s : State) := tileOp .toff1 1 false Tile.turnedOff s
/-- R398. -/
def execToff2 (s : State) := tileOp .toff2 2 false Tile.turnedOff s
/-- R398. -/
def execToff3 (s : State) := tileOp .toff3 3 false Tile.turnedOff s
/-- R398. -/
def execToff4 (s : State) := tileOp .toff4 4 false Tile.turnedOff s
/-- R398. -/
def execToff5 (s : State) := tileOp .toff5 5 false Tile.turnedOff s
/-- R398. -/
def execToff6 (s : State) := tileOp .toff6 6 false Tile.turnedOff s
/-- R398. -/
def execToff7 (s : State) := tileOp .toff7 7 false Tile.turnedOff s

/-- A tile with its cells zero (R403). -/
def Tile.zeroed (t : Tile) : Tile := { t with cells := 0 }

/-- R403. -/
def execTzero0 (s : State) := tileOp .tzero0 0 true Tile.zeroed s
/-- R403. -/
def execTzero1 (s : State) := tileOp .tzero1 1 true Tile.zeroed s
/-- R403. -/
def execTzero2 (s : State) := tileOp .tzero2 2 true Tile.zeroed s
/-- R403. -/
def execTzero3 (s : State) := tileOp .tzero3 3 true Tile.zeroed s
/-- R403. -/
def execTzero4 (s : State) := tileOp .tzero4 4 true Tile.zeroed s
/-- R403. -/
def execTzero5 (s : State) := tileOp .tzero5 5 true Tile.zeroed s
/-- R403. -/
def execTzero6 (s : State) := tileOp .tzero6 6 true Tile.zeroed s
/-- R403. -/
def execTzero7 (s : State) := tileOp .tzero7 7 true Tile.zeroed s

/-- A value that TPRED refuses (R200). -/
def badPredicate (v : Word) : Bool :=
  v.extractLsb' 16 48 != 0 || decide (128 < (v.extractLsb' 8 8).toNat) || decide (128 < (v.extractLsb' 0 8).toNat)

/-- TPRED from x register `a` (R399). -/
def predicate (i : Instr) (a : Reg) : State → Host.Outcome State Fault Refusal :=
  plain i do
    tileHart i
    sources [.x false a]
    let u ← getX a
    illegalIf i (badPredicate u)
    updateRegs (fun r => { r with tpred := u.extractLsb' 0 16 })

/-- R399. -/
def execTpred0 (s : State) := predicate .tpred0 0 s
/-- R399. -/
def execTpred1 (s : State) := predicate .tpred1 1 s
/-- R399. -/
def execTpred2 (s : State) := predicate .tpred2 2 s
/-- R399. -/
def execTpred3 (s : State) := predicate .tpred3 3 s
/-- R399. -/
def execTpred4 (s : State) := predicate .tpred4 4 s
/-- R399. -/
def execTpred5 (s : State) := predicate .tpred5 5 s
/-- R399. -/
def execTpred6 (s : State) := predicate .tpred6 6 s
/-- R399. -/
def execTpred7 (s : State) := predicate .tpred7 7 s
/-- R399. -/
def execTpred8 (s : State) := predicate .tpred8 8 s
/-- R399. -/
def execTpred9 (s : State) := predicate .tpred9 9 s
/-- R399. -/
def execTpred10 (s : State) := predicate .tpred10 10 s
/-- R399. -/
def execTpred11 (s : State) := predicate .tpred11 11 s
/-- R399. -/
def execTpred12 (s : State) := predicate .tpred12 12 s
/-- R399. -/
def execTpred13 (s : State) := predicate .tpred13 13 s
/-- R399. -/
def execTpred14 (s : State) := predicate .tpred14 14 s
/-- R399. -/
def execTpred15 (s : State) := predicate .tpred15 15 s
/-- R399. -/
def execTpred16 (s : State) := predicate .tpred16 16 s
/-- R399. -/
def execTpred17 (s : State) := predicate .tpred17 17 s
/-- R399. -/
def execTpred18 (s : State) := predicate .tpred18 18 s
/-- R399. -/
def execTpred19 (s : State) := predicate .tpred19 19 s
/-- R399. -/
def execTpred20 (s : State) := predicate .tpred20 20 s
/-- R399. -/
def execTpred21 (s : State) := predicate .tpred21 21 s
/-- R399. -/
def execTpred22 (s : State) := predicate .tpred22 22 s
/-- R399. -/
def execTpred23 (s : State) := predicate .tpred23 23 s
/-- R399. -/
def execTpred24 (s : State) := predicate .tpred24 24 s
/-- R399. -/
def execTpred25 (s : State) := predicate .tpred25 25 s
/-- R399. -/
def execTpred26 (s : State) := predicate .tpred26 26 s
/-- R399. -/
def execTpred27 (s : State) := predicate .tpred27 27 s
/-- R399. -/
def execTpred28 (s : State) := predicate .tpred28 28 s
/-- R399. -/
def execTpred29 (s : State) := predicate .tpred29 29 s
/-- R399. -/
def execTpred30 (s : State) := predicate .tpred30 30 s
/-- R399. -/
def execTpred31 (s : State) := predicate .tpred31 31 s

/-! Operand slices (R201, R206) -/

/-- Registers of a group that holds `nb` bits under the grant. -/
def State.slabs (s : State) (nb : Nat) : Nat := if nb ≤ s.cap then 1 else if nb ≤ 2 * s.cap then 2 else 4

/-- A group of a tile instruction that traps ILLEGAL: misaligned, past v31 or of another role, or a queue that one
register could not hold (R206). -/
def State.badSlab (s : State) (k nb : Nat) : Bool :=
  let n := s.slabs nb
  if s.isQueue k then decide (1 < n) else k % n != 0 || decide (32 < k + n) || !s.owns k n

/-- A slice operand of elements of `w` bits as a bit string. Tile sources always wait. -/
def readSlab (i : Instr) (k : Reg) (nb w : Nat) : M Nat := do
  let s ← look id
  let n := s.slabs nb
  if s.isQueue k.toNat then
    match s.front.lq.get [] (k.toNat - 28) with
    | [] => if s.hart.popsSpent (k.toNat - 28) then trap Cause.stripcap 0 else stop (.wait (.head (k.toNat - 28)))
    | e :: _ => do
      illegalIf i (e.stop || sewBits e.sew != w)
      pure (e.bits % 2 ^ (e.vl * w))
  else do
    waitIf ((List.range n).any (fun j => s.regs.emptyV (k.toNat + j))) .register
    pure (groupBits s.regs.v s.cap k.toNat n)

/-- Pop each queue that slice operands named, once. -/
def retireSlabs (ks : List Reg) : M Unit := do
  let s ← look id
  popQueues (((ks.filter (fun k => s.isQueue k.toNat)).map (fun k => k.toNat - 28)).eraseDups)

/-- Rows and columns of `tpred`. -/
def Regs.predRows (r : Regs) : Nat := (r.tpred.extractLsb' 8 8).toNat
def Regs.predCols (r : Regs) : Nat := (r.tpred.extractLsb' 0 8).toNat

/-! MOPA, TSACC (R202, R204) -/

/-- The operand format does not suit the accumulator of a tile that is not OFF (R202). -/
def Tile.unsuited (t : Tile) (fmt : Nat) : Bool := t.st != .off && (t.int != (fmt == 4))

/-- R366. -/
def execMopa (fmt ta : BitVec 3) (va vb : Reg) (s : State) :=
  plain (.mopa fmt ta va vb) (do
    let i : Instr := .mopa fmt ta va vb
    tileHart i
    let c ← tileNo i ta.toNat
    let nb := sliceBits fmt.toNat
    let w := tileWidth fmt.toNat
    let t ← look id
    illegalIf i (t.badSlab va.toNat nb || t.badSlab vb.toNat nb)
    let T ← tileReady c
    illegalIf i (T.unsuited fmt.toNat)
    let a ← readSlab i va nb w
    let b ← readSlab i vb nb w
    tileUsable ta.toNat T
    tileOn ta.toNat T
    let r := mopaStep fmt.toNat t.regs.predRows t.regs.predCols a b T.cells
    retireSlabs [va, vb]
    putTile c { T with cells := r.1 }
    updateRegs (fun g => g.raiseAll r.2)) s

/-- The value of a partial cell. -/
def Tile.value (t : Tile) (p : Nat) : Fp := if t.int then fpOfInt (intValue true 32 p) else f32.decode p

/-- A scale of TSACC. -/
def scaleValue (f : Bool) (p : Nat) : Fp := if f then f32.decode p else e8Value p

/-- TsaccOp (R204). -/
def scaleStep (f : Bool) (rows cols a b : Nat) (B : Tile) (bits : BitVec 524288) : BitVec 524288 × List (Nat × Flags) :=
  let el (x k : Nat) : Nat := x / 2 ^ (32 * k) % 2 ^ 32
  mapCells rows cols (fun i j t =>
    let p := (B.value (cellAt B.cells i j)).times (scaleValue f (el a i))
    let q := p.1.times (scaleValue f (el b j))
    accumulate t (q.1, p.2 ||| q.2)) bits

/-- R401. -/
def execTsacc (sf : Bool) (ta tb : BitVec 3) (vsa vsb : Reg) (s : State) :=
  plain (.tsacc sf ta tb vsa vsb) (do
    let i : Instr := .tsacc sf ta tb vsa vsb
    tileHart i
    let c ← tileNo i ta.toNat
    let d ← tileNo i tb.toNat
    let t ← look id
    illegalIf i (ta == tb || t.badSlab vsa.toNat 4096 || t.badSlab vsb.toNat 4096)
    let A ← tileReady c
    let B ← tileReady d
    illegalIf i (A.unsuited 0)
    let a ← readSlab i vsa 4096 32
    let b ← readSlab i vsb 4096 32
    tileUsable ta.toNat A
    tileUsable tb.toNat B
    tileOn ta.toNat A
    tileOn tb.toNat B
    let r := scaleStep sf t.regs.predRows t.regs.predCols a b B A.cells
    retireSlabs [vsa, vsb]
    putTile c { A with cells := r.1 }
    putTile d B.zeroed
    updateRegs (fun g => g.raiseAll r.2)) s

/-! Moving slices (R205) -/

/-- The current hart with a group of a tile instruction written whole: elements of 32 bits from 0 up, 0 beyond them. -/
def State.writeSlab (s : State) (d : Reg) (vals : List Nat) : State :=
  let tops : List (Nat × Nat) := (List.range (s.slabs 4096)).map (fun j => (j, s.cap))
  let h := storeGroup s.cap d.toNat (packElems 32 vals) tops s.hart
  s.setHart { h with regs :=
    { h.regs with stag := clearTags (tops.map (fun (t : Nat × Nat) => d.toNat + t.1)) h.regs.stag }.lastV d }

/-- Write the destination of a tile instruction, or push an entry into the queue that it names. -/
def putSlab (i : Instr) (d : Reg) (vals : List Nat) : M Unit := do
  let s ← look id
  if s.isQueue d.toNat then do
    pushEntry i (d.toNat - 28) { vl := vals.length, sew := 3, bits := packElems 32 vals }
    updateRegs (fun r => r.lastV d)
  else do
    waitIf ((List.range (s.slabs 4096)).any (fun j => s.regs.emptyV (d.toNat + j))) .register
    update (fun s => s.writeSlab d vals)

/-- TMOVR and TMOVC: one that pushes to a queue is irrevocable (R76). -/
def tileMove (i : Instr) (col : Bool) (vd : Reg) (ta : BitVec 3) (xa : Reg) (sl : BitVec 8) (s : State) :
    Host.Outcome State Fault Refusal :=
  let early : M Unit := do
    tileHart i
    let _ ← tileNo i ta.toNat
    let t ← look id
    illegalIf i (t.badSlab vd.toNat 4096)
  let body : M Unit := do
    let c ← tileNo i ta.toNat
    sources [.x false xa]
    let u ← getX xa
    let n := u.toNat + sl.toNat
    illegalIf i (decide (127 < n))
    let T ← tileReady c
    tileUsable ta.toNat T
    tileOn ta.toNat T
    putSlab i vd ((List.range 128).map (fun k => if col then cellAt T.cells k n else cellAt T.cells n k))
  vector i vd early body s

/-- R397. -/
def execTmovr (vd : Reg) (ta : BitVec 3) (xa : Reg) (sl : BitVec 8) (s : State) :=
  tileMove (.tmovr vd ta xa sl) false vd ta xa sl s
/-- R397. -/
def execTmovc (vd : Reg) (ta : BitVec 3) (xa : Reg) (sl : BitVec 8) (s : State) :=
  tileMove (.tmovc vd ta xa sl) true vd ta xa sl s

/-- What TLD and TST check: the core's number of the tile, the tile, and the local address. -/
def tileRow (i : Instr) (ta : BitVec 3) (xa : Reg) (sl : BitVec 8) : M (Nat × Tile × Nat) := do
  let s ← look id
  illegalIf i (s.pair || decide (127 < sl.toNat))
  let c ← tileNo i ta.toNat
  sources [.x false xa]
  let u ← getX xa
  let T ← tileReady c
  tileUsable ta.toNat T
  tileOn ta.toNat T
  trapIf (u.toNat % 64 != 0) Cause.misalign u.toNat
  checkLocal u.toNat 512
  pure (c, T, u.toNat)

/-- Words of 4 bytes. -/
def wordsOf : Nat → List Byte → List Nat
  | 0, _ => []
  | n + 1, bs => ofBytes (bs.take 4) :: wordsOf n (bs.drop 4)

/-- R396. -/
def execTld (ta : BitVec 3) (xa : Reg) (sl : BitVec 8) (s : State) :=
  plain (.tld ta xa sl) (do
    let (c, T, va) ← tileRow (.tld ta xa sl) ta xa sl
    let bs ← loadLocal va 512
    putTile c { T with cells := withRow T.cells sl.toNat (wordsOf 128 bs) }) s

/-- R402. -/
def execTst (ta : BitVec 3) (xa : Reg) (sl : BitVec 8) (s : State) :=
  plain (.tst ta xa sl) (do
    let (_, T, va) ← tileRow (.tst ta xa sl) ta xa sl
    storeLocal [(va, (List.range 128).flatMap (fun j => toBytes 4 (cellAt T.cells sl.toNat j)))]) s

end Sys2Proof.Machine
end

