-- ==== Sys2Proof/Machine/Record.lean ====
section
/-! DEFINITION. Engine records (09 R168-R177, R187; 10 R210, R211, R213, R214): the fields of copy, matrix and Rhizoid
records, when they are malformed, EISSUE's checks of one record, and its admission. -/

namespace Sys2Proof.Machine

/-- What makes a copy record malformed (R176). -/
def copyMalformed (r : BitVec 512) : Bool :=
  let ctl := dword r 0
  let op := copyOp r
  ctl / 2 ^ 35 != 0 || bitsOf ctl 30 2 != 0 || bitsOf ctl 13 3 != 0 || decide (3 < op) ||
  (1 ≤ copySegl r && copySegl r ≤ 5) || decide (26 < copySegl r) || decide (4 < copyRm r) ||
  (copyFF r && copySkip r) || (copySkip r && copyComp r == 0) || copyComp r % 16 != 0 ||
  (copyShd r && isLocal (copyDst r)) ||
  (copyFol r && (!(op == 0 || op == 2) || !isLocal (copyDst r))) ||
  decide (2 ^ 42 ≤ copyLen r) ||
  (decide (op ≤ 1) && (copySfmt r != 0 || copyDfmt r != 0 || copyRm r != 0)) ||
  (op == 1 && copySrc r != 0) ||
  (op == 0 && ((copyParam r != 0 && copySrc r != 0) || copyParam r % 8 != 0)) ||
  (op == 2 && (decide (12 < copySfmt r) || decide (12 < copyDfmt r) ||
    (copyLen r % 4 != 0 && (copySfmt r == 4 || copyDfmt r == 4)))) ||
  (op == 3 && (copySfmt r != copyDfmt r || decide (2 < copySfmt r) || copyLen r % 2 != 0 || rotPeriod r == 0 ||
    bitsOf (copyParam r) 42 6 != 0 || rotTable r % 8 != 0))

/-- The operands that may be local: address and bytes. -/
def copyOperands (r : BitVec 512) : List (Nat × Nat) :=
  (copyDst r, copyDstBytes r) :: if copyOp r = 1 ∨ copyListed r then [] else [(copySrc r, copySrcBytes r)]

/-- The operands that must be window addresses. -/
def copyWindows (r : BitVec 512) : List (Nat × Nat) :=
  (if copyComp r = 0 then [] else [(copyComp r, compBytes r)]) ++
  (if copyListed r then [(copyParam r, 8 * segCount r)] else []) ++
  (if copyOp r = 3 then [(rotTable r, 8 * rotPeriod r)] else [])

/-- A range runs out of the window. -/
def pastWindow (x : Nat × Nat) : Bool := decide (2 ^ 42 ≤ x.1) || decide (2 ^ 42 < x.1 + x.2)

/-- An operand lies outside its space (R176). -/
def pastSpace (x : Nat × Nat) : Bool :=
  if isLocal x.1 then bitsOf x.1 21 42 != 0 || decide (1572864 < localAddr x.1 + x.2) else pastWindow x

/-- The first operand of a copy record outside its space: as written (log entry 50). -/
def copyOut (r : BitVec 512) : Option Nat :=
  match (copyOperands r).find? pastSpace, (copyWindows r).find? pastWindow with
  | some x, _ => some x.1
  | none, some x => some x.1
  | none, none => none

/-- The core's number of the CR's swatch that holds a local range whole (R170). -/
def State.swatchFor (s : State) (a n : Nat) : Option Nat :=
  s.run.swatches.find? (fun k =>
    let w := s.core.swatches.get {} k
    w.len != 0 && w.base.toNat ≤ localAddr a && localAddr a + n ≤ w.base.toNat + w.len.toNat)

/-- The first local operand that no swatch of the CR holds. -/
def State.unswatched (s : State) (r : BitVec 512) : Option Nat :=
  ((copyOperands r).find? (fun x => isLocal x.1 && x.2 != 0 && (s.swatchFor x.1 x.2).isNone)).map (fun x => x.1)

/-! Matrix records (R210, R211) -/

def matOp (r : BitVec 512) : Nat := bitsOf (dword r 0) 0 8
def matFmt (r : BitVec 512) : Nat := bitsOf (dword r 0) 8 3
def matTile (r : BitVec 512) : Nat := bitsOf (dword r 0) 11 3
def matRows (r : BitVec 512) : Nat := bitsOf (dword r 0) 20 8
def matCols (r : BitVec 512) : Nat := bitsOf (dword r 0) 28 8
def matAsw (r : BitVec 512) : Nat := bitsOf (dword r 0) 36 6
def matBsw (r : BitVec 512) : Nat := bitsOf (dword r 0) 42 6
def matCount (r : BitVec 512) : Nat := bitsOf (dword r 0) 48 16
def matAoff (r : BitVec 512) : Nat := bitsOf (dword r 1) 0 21
def matBoff (r : BitVec 512) : Nat := bitsOf (dword r 1) 21 21

/-- Bytes that one step or row takes in a swatch. -/
def matUnit (r : BitVec 512) : Nat := if matOp r = 0 then sliceBits (matFmt r) / 8 else 512

/-- The follow-on of a copy record as a matrix record (R187). -/
def followOf (r : BitVec 512) : BitVec 512 := (r.extractLsb' 384 128).setWidth 512

/-- What makes a matrix record malformed (R211). -/
def State.matMalformed (s : State) (r : BitVec 512) : Bool :=
  bitsOf (dword r 0) 14 6 != 0 || decide (2 < matOp r) || decide (4 < matFmt r) || matCount r == 0 ||
  (matOp r != 0 && decide (128 < matCount r)) || decide (128 < matRows r) || decide (128 < matCols r) ||
  decide (s.run.swatches.length ≤ matAsw r) || decide (s.run.swatches.length ≤ matBsw r) ||
  bitsOf (dword r 1) 42 22 != 0 || matAoff r % 64 != 0 || matBoff r % 64 != 0 ||
  decide (s.run.tiles.length ≤ matTile r) ||
  (matOp r == 0 && ((s.run.tiles[matTile r]?).map (fun k => (s.core.tiles.get {} k).unsuited (matFmt r))).getD false) ||
  matComp r % 16 != 0 || (r.extractLsb' 192 320) != 0

/-- A swatch of the CR by its number. -/
def State.swatchAt (s : State) (k : Nat) : Swatch := s.core.swatches.get {} ((s.run.swatches[k]?).getD 64)

/-- The first extent that runs out of its swatch: its local address. -/
def State.matOverrun (s : State) (r : BitVec 512) : Option Nat :=
  let overrun (sw off : Nat) : Option Nat :=
    if (s.swatchAt sw).len.toNat < off + matCount r * matUnit r then some ((s.swatchAt sw).base.toNat + off) else none
  match overrun (matAsw r) (matAoff r) with
  | some a => some a
  | none => if matOp r = 0 then overrun (matBsw r) (matBoff r) else none

/-- TILERET, TILEOFF and SWATCH of a matrix record. -/
def checkMatrix (r : BitVec 512) : M Unit := do
  let s ← look id
  let T := s.core.tiles.get {} ((s.run.tiles[matTile r]?).getD 8)
  tileUsable (matTile r) T
  tileOn (matTile r) T
  match s.matOverrun r with
  | some a => trap Cause.swatch a
  | none => pure ()

/-! Rhizoid records (R213, R214) -/

/-- What makes a Rhizoid record malformed. -/
def rhizMalformed (r : BitVec 512) : Bool :=
  let ctl := dword r 0
  ctl / 2 ^ 16 != 0 || bitsOf ctl 11 2 != 0 || bitsOf ctl 0 8 != 0 ||
  !(rhizFmt r == 0 || rhizFmt r == 2 || rhizFmt r == 4) ||
  rhizM r == 0 || rhizK r == 0 || rhizK r % 32 != 0 ||
  rhizW r % rhizSize r != 0 || rhizX r % rhizSize r != 0 || rhizY r % 4 != 0 || rhizComp r % 16 != 0 ||
  dword r 6 != 0 || dword r 7 != 0

/-- The extents of a Rhizoid record. -/
def rhizExtents (r : BitVec 512) : List (Nat × Nat) :=
  [(rhizW r, rhizM r * rhizK r * rhizSize r), (rhizX r, rhizK r * rhizSize r), (rhizY r, rhizM r * rhizBlocks r * 4)] ++
  (if rhizComp r = 0 then [] else [(rhizComp r, 16)])

/-- What is wrong with a granule that holds W, if anything: its cause. -/
def State.stackCause (s : State) (ctx stack g : Nat) : Option Nat :=
  let e := s.dev.vpm.get 0 g
  if e.getLsbD 23 = false ∨ e.getLsbD (48 + ctx) = false then some Cause.pageabs
  else if e.getLsbD 21 = false then some Cause.pageperm
  else if e.getLsbD 22 ∨ (e.extractLsb' 14 3).toNat ≠ stack then some Cause.engine
  else none

/-- The first granule of [a, a + n) that W may not lie in: its cause and the lowest address. -/
def State.stackFault (s : State) (ctx stack a n : Nat) : Option (Nat × Nat) :=
  (List.range ((a + n - 1) / 2 ^ 26 - a / 2 ^ 26 + 1)).findSome? (fun j =>
    (s.stackCause ctx stack (a / 2 ^ 26 + j)).map (fun c => (c, max a ((a / 2 ^ 26 + j) * 2 ^ 26))))

/-! EISSUE's checks of a record (R170) -/

/-- Probe a completion record. -/
def probeComp (sel : Nat) (r : BitVec 512) : M Unit := do
  let s ← look id
  if compAddr sel r = 0 then pure ()
  else
    let _ ← orTrapAt (windowPieces s s.ctx .write (compAddr sel r) (if sel = 0 then compBytes r else 16))

/-- Trap where an address is reported. -/
def trapAtSome (c : Nat) (a : Option Nat) : M Unit :=
  match a with
  | some a => trap c a
  | none => pure ()

/-- A copy record. -/
def checkCopy (i : Nat) (r : BitVec 512) : M Unit := do
  let s ← look id
  trapIf (copyMalformed r || (copyFol r && s.matMalformed (followOf r))) Cause.engine i
  trapAtSome Cause.outwin (copyOut r)
  trapAtSome Cause.swatch (s.unswatched r)
  if copyFol r then checkMatrix (followOf r) else pure ()
  probeComp 0 r

/-- A Rhizoid record. -/
def checkRhizoid (i : Nat) (r : BitVec 512) : M Unit := do
  let s ← look id
  trapIf (rhizMalformed r) Cause.engine i
  trapAtSome Cause.outwin (((rhizExtents r).find? pastWindow).map (fun x => x.1))
  match s.stackFault s.ctx (rhizStack r) (rhizW r) (rhizM r * rhizK r * rhizSize r) with
  | some (c, a) => trap c (if c = Cause.engine then i else a)
  | none => pure ()
  probeComp 2 r

/-- Record `i` of a batch. -/
def checkRecord (sel i : Nat) (r : BitVec 512) : M Unit := do
  if sel = 0 then checkCopy i r
  else if sel = 1 then
    let s ← look id
    trapIf (s.matMalformed r) Cause.engine i
    checkMatrix r
    probeComp 1 r
  else checkRhizoid i r

/-! Admission (R171, R138, R195) -/

/-- The core's numbers of the swatches that a record reads and writes. -/
def State.copySwatches (s : State) (r : BitVec 512) : List Nat × List Nat :=
  let sw (a n : Nat) : List Nat := if isLocal a ∧ n ≠ 0 then (s.swatchFor a n).toList else []
  (if copyOp r = 1 ∨ copyListed r then [] else sw (copySrc r) (copySrcBytes r), sw (copyDst r) (copyDstBytes r))

def State.matSwatches (s : State) (r : BitVec 512) : List Nat × List Nat :=
  let sw (k : Nat) : List Nat := (s.run.swatches[k]?).toList
  if matOp r = 0 then (sw (matAsw r) ++ sw (matBsw r), [])
  else if matOp r = 1 then (sw (matAsw r), []) else ([], sw (matAsw r))

/-- Swatches that may be taken: sources READY, destinations not in use. -/
def State.swatchesFree (s : State) (x : List Nat × List Nat) : Bool :=
  x.1.all (fun k => (s.core.swatches.get {} k).st == .ready) &&
  x.2.all (fun k => (s.core.swatches.get {} k).st == .empty || (s.core.swatches.get {} k).st == .ready)

/-- Put swatches of a core into a state. -/
def setSwatches (C : Core) (st : SwSt) (ks : List Nat) : Core :=
  ks.foldl (fun C k => { C with swatches := C.swatches.set {} k { C.swatches.get {} k with st := st, engine := 0 } }) C

/-- Sources drain and destinations fill. -/
def takeSwatches (C : Core) (x : List Nat × List Nat) : Core := setSwatches (setSwatches C .draining x.1) .filling x.2

/-- A tile is taken by a matrix command. -/
def takeTile (C : Core) (k : Nat) (op : Nat) : Core :=
  let t := C.tiles.get {} k
  { C with tiles := C.tiles.set {} k { t with st := if op = 2 then .draining else .busy, uses := t.uses + 1 } }

/-- A region's queue has no room for a command of an engine. -/
def Region.queueFull (R : Region) (q : Nat) : Bool := decide (R.reserve.get 0 q ≤ R.charged.get 0 q)

/-- Charge a queue of the current region. -/
def State.charge (s : State) (q : Nat) : State :=
  let R := s.regionNow
  s.putRegion s.regionKeyNow { R with charged := R.charged.set 0 q (R.charged.get 0 q + 1) }

/-- The sequence number of a front on an engine, as harts of a context see it: the front's, but in a context that RESTORE has
rebuilt (14 R273; log entry 71). -/
def Front.seqFor (F : Front) (ctx sel : Nat) : Word := (F.own.get none (3 * ctx + sel)).getD (F.seq.get 0 sel)

/-- The number that a context's next command on an engine is to bring, as its harts see it. -/
def Front.nextLabel (F : Front) (ctx sel n : Nat) : Nat :=
  match F.own.get none (3 * ctx + sel) with
  | none => n
  | some v => ((F.chain.get [] sel).foldl (fun m c => if c.ctx = ctx then c.label else m) v.toNat) + 1

/-- Append a command to a chain of a front; it knows the sequence number that it will bring. -/
def State.append (s : State) (f sel : Nat) (c : Cmd) : State :=
  let F := s.frontAt f
  let ch := F.chain.get [] sel
  let n := (F.seq.get 0 sel).toNat + ch.length + 1
  s.setFrontAt f { F with chain := F.chain.set [] sel (ch ++ [{ c with seq := n, label := F.nextLabel c.ctx sel n }]) }

/-- A command of the current hart. -/
def State.newCmd (s : State) (r : BitVec 512) (x : List Nat × List Nat) : Cmd :=
  { raw := r, serial := s.run.serial, region := s.run.cr.region, launch := s.regionNow.order, ticket := s.ticket, ticketGen := (s.ticketAt s.ticket).gen,
    ctx := s.ctx, slot := s.slot, srcs := x.1, dsts := x.2 }

/-- The tile of a matrix record is IDLE. -/
def State.tileIdle (s : State) (r : BitVec 512) : Bool :=
  ((s.run.tiles[matTile r]?).map (fun k => (s.core.tiles.get {} k).st == .idle)).getD false

/-- The core's number of a matrix record's tile. -/
def State.tileOf (s : State) (r : BitVec 512) : Nat := (s.run.tiles[matTile r]?).getD 8

/-- Without the numbers of another list. -/
def exceptOf (l m : List Nat) : List Nat := l.filter (fun k => !m.contains k)

/-- Admit a copy record: none where it is refused. -/
def State.acceptCopy (s : State) (r : BitVec 512) : Option State :=
  let x := s.copySwatches r
  let g := followOf r
  let y := s.matSwatches g
  let y' := (exceptOf y.1 x.2, exceptOf y.2 x.2)
  if s.regionNow.queueFull 1 || (copyFol r && s.regionNow.queueFull 2) || !s.swatchesFree x ||
      (copyFol r && (!s.tileIdle g || !s.swatchesFree y')) then none
  else
    let seq := (s.front.seq.get 0 0).toNat + (s.front.chain.get [] 0).length + 1
    let t := ((s.charge 1).setCore (takeSwatches s.core x)).append s.fid 0 (s.newCmd r x)
    if copyFol r then
      let c := { s.newCmd g y with follow := true, copySeq := seq, started := false, tile := some (s.tileOf g) }
      some (((t.charge 2).setCore (takeTile (takeSwatches t.core y') (s.tileOf g) (matOp g))).append s.fid 1 c)
    else some t

/-- Admit a matrix record. -/
def State.acceptMatrix (s : State) (r : BitVec 512) : Option State :=
  let x := s.matSwatches r
  if s.regionNow.queueFull 2 || !s.swatchesFree x || !s.tileIdle r then none
  else
    let c := { s.newCmd r x with tile := some (s.tileOf r) }
    some (((s.charge 2).setCore (takeTile (takeSwatches s.core x) (s.tileOf r) (matOp r))).append s.fid 1 c)

/-- Admit a record (R171). -/
def State.accept (s : State) (sel : Nat) (r : BitVec 512) : Option State :=
  if sel = 0 then s.acceptCopy r
  else if sel = 1 then s.acceptMatrix r
  else if s.regionNow.queueFull 3 then none
  else some ((s.charge 3).append s.fid 2 (s.newCmd r ([], [])))

end Sys2Proof.Machine
end

