-- ==== Sys2Proof/Machine/Host.lean ====
section
/-! DEFINITION. The host's side (14 R263-R270): reads and writes of the HDM range, the control registers, the mailbox and its
requests but CHECKPOINT, RESTORE and those of the firmware, and PEERCOPY on both devices. The mailbox steps perform the request
at the head of the doorbells, and do nothing where it is another. -/

namespace Sys2Proof.Machine

/-! CXL.mem (R263, R264; 08 R150) -/

/-- The size of the event that holds a byte of a host access: the access is its own event where it is 1, 2, 4 or 8 aligned
bytes, and otherwise is cut into aligned words. -/
def hostSize (off n : Nat) : Nat := if (n = 1 ∨ n = 2 ∨ n = 4 ∨ n = 8) ∧ off % n = 0 then n else 8

/-- One byte of a host read: none where it does not translate or is uncorrectable. A mixed-size race that a slice detects (08 R154) does
not stop a host access (DESIGN CHOICE: log entry 84). -/
def State.hostByte (s : State) (size va : Nat) : Option Byte :=
  match vectorByte s s.dev.hctx.toNat .read va with
  | .error _ => none
  | .ok key => if s.poisoned key 1 then none else some (s.readByte hostAgent size key)

/-- The bytes of a host read; poison where one byte fails. -/
def allBytes : List (Option Byte) → Option (List Byte)
  | [] => some []
  | b :: bs =>
    match b, allBytes bs with
    | some b, some l => some (b :: l)
    | _, _ => none

/-- A control register as it is read at a BAR0 offset of 8 bytes (R267): write-only and reserved bits, and offsets that are not
listed, read 0. -/
def State.bar0Word (s : State) (off : Nat) : Word :=
  if off < 0x400 then (s.dev.mailbox.get 0 (off / 64)).extractLsb' (8 * (off % 64)) 64
  else if off = 0x408 then s.dev.hctx.setWidth 64
  else if 0x500 ≤ off ∧ off < 0x580 then
    if off % 16 = 0 then s.dev.hwbase.get 0 ((off - 0x500) / 16) else s.dev.hwlim.get 0 ((off - 0x500) / 16)
  else if 0x600 ≤ off ∧ off < 0x700 then
    let C := s.ctxAt ((off - 0x600) / 16)
    if off % 16 = 0 then C.scratch ++ C.qentries else C.tiles.setWidth 64
  else 0

/-- A byte of BAR0 as the host reads it: from 0x800 up R267 is silent, and it is free (log entry 72). -/
def State.bar0Byte (s : State) (off : Nat) : Byte :=
  if 0x800 ≤ off then Config.freeByte s.cycle off else (s.bar0Word (off / 8 * 8)).extractLsb' (8 * (off % 8)) 8

/-- R263: `arg.size` bytes at HDM offset `arg.off`; R267: where `arg.flag`, at BAR0 offset `arg.off`. -/
def execHostRead (s : State) : Host.Outcome State Fault Refusal :=
  if s.arg.flag then
    .next { s with dev := { s.dev with answer := some ((List.range s.arg.size).map (fun i => s.bar0Byte (s.arg.off + i))) } }
  else
  let size := hostSize s.arg.off s.arg.size
  let bs := (List.range s.arg.size).map (fun i => s.hostByte size (s.arg.off + i))
  .next { s with dev := { s.dev with answer := allBytes bs } }

/-- Write one byte as the host: the byte lands, or is undefined where the write races. -/
def State.hostPut (s : State) (ctx size key : Nat) (b : Byte) : State :=
  { s with
    mem := s.mem.setBytes key (s.landed hostAgent size key [b])
    order := (s.order.tick hostAgent).wrote s.cycle ctx hostAgent size key 1
    dev := { s.dev with poison := s.dev.poison.filter (fun p => p != key) } }

/-- Write the bytes that translate, from `va` up; the lowest that does not is reported. -/
def State.hostStore (s : State) (ctx size va : Nat) (first : Option Nat) : List Byte → State × Option Nat
  | [] => (s, first)
  | b :: bs =>
    match vectorByte s ctx .write va with
    | .ok key => State.hostStore (s.hostPut ctx size key b) ctx size (va + 1) first bs
    | .error _ => State.hostStore s ctx size (va + 1) (match first with | some a => some a | none => some va) bs

/-- R263: the bytes `arg.data` at HDM offset `arg.off`; a dropped byte is reported. -/
def execHostWrite (s : State) : Host.Outcome State Fault Refusal :=
  let ctx := s.dev.hctx.toNat
  match s.hostStore ctx (hostSize s.arg.off s.arg.data.length) s.arg.off none s.arg.data with
  | (s', none) => .next s'
  | (s', some va) => .next (s'.post 0x83 ctx 0 (BitVec.ofNat 64 va) (BitVec.ofNat 64 s.arg.data.length))

/-! The control registers (R267) -/

/-- What the ACTIVE root regions of a context take of its budget (03 R26). -/
def State.rootCarved (s : State) (ctx : Nat) (f : Region → Nat) : Nat := carved f (s.childrenOf (regionKey ctx 0))

/-- A write of RBQ. -/
def State.writeRbq (s : State) (ctx : Nat) (v : Word) : State :=
  let q := v.extractLsb' 0 32
  let m := v.extractLsb' 32 32
  if q.toNat < s.rootCarved ctx Region.qentries ∨ m.toNat < s.rootCarved ctx Region.scratch then s
  else s.setCtxAt ctx { s.ctxAt ctx with qentries := q, scratch := m }

/-- A write of RBT. -/
def State.writeRbt (s : State) (ctx : Nat) (v : Word) : State :=
  let t := min (v.extractLsb' 0 4).toNat 8
  if t < s.rootCarved ctx Region.tiles then s else s.setCtxAt ctx { s.ctxAt ctx with tiles := BitVec.ofNat 4 t }

/-- R267: RBQ of context `arg.k`. -/
def execRbqWrite (s : State) : Host.Outcome State Fault Refusal := .next (s.writeRbq (s.arg.k % 16) s.arg.val)

/-- R267: RBT of context `arg.k`. -/
def execRbtWrite (s : State) : Host.Outcome State Fault Refusal := .next (s.writeRbt (s.arg.k % 16) s.arg.val)

/-- Report events that wait, while a slot is free (R269). -/
def State.flushEvents (s : State) : Nat → State
  | 0 => s
  | n + 1 =>
    match s.dev.events, s.eventRoom with
    | (op, ctx, region, a0, a1) :: es, some k =>
      State.flushEvents { s with dev := { s.dev with
        events := es, mailbox := s.dev.mailbox.set 0 k (eventSlot op ctx region a0 a1), msix := s.dev.msix + 1 } } n
    | _, _ => s

/-- Eight bytes of a mailbox slot replaced: bytes `off` to `off` + 7 of it. -/
def withDword (v : BitVec 512) (off : Nat) (w : Word) : BitVec 512 :=
  (v &&& ~~~((BitVec.ofNat 512 (2 ^ 64 - 1)) <<< (8 * off))) ||| (w.setWidth 512 <<< (8 * off))

/-- Write eight bytes of the mailbox. -/
def State.writeMailbox (s : State) (off : Nat) (w : Word) : State :=
  let k := off / 64
  { s with dev := { s.dev with mailbox := s.dev.mailbox.set 0 k (withDword (s.dev.mailbox.get 0 k) (off % 64) w) } }

/-- Ring the doorbell (R266): slots 12-15 are ignored. -/
def State.ring (s : State) (k : Nat) : State :=
  if k < 12 then { s with dev := { s.dev with doorbells := s.dev.doorbells ++ [k] } } else s

/-- Write a control register at a BAR0 offset; unlisted offsets ignore it. -/
def State.writeBar0 (s : State) (off : Nat) (v : Word) : State :=
  if off % 8 ≠ 0 then s
  else if off < 0x400 then (s.writeMailbox off v).flushEvents 4
  else if off = 0x400 then s.ring (v.extractLsb' 0 4).toNat
  else if off = 0x408 then { s with dev := { s.dev with hctx := v.extractLsb' 0 4 } }
  else if 0x500 ≤ off ∧ off < 0x580 then
    let w := (off - 0x500) / 16
    if off % 16 = 0 then { s with dev := { s.dev with hwbase := s.dev.hwbase.set 0 w (v &&& 0xFFFFFFFFFFFFF001#64) } }
    else { s with dev := { s.dev with hwlim := s.dev.hwlim.set 0 w (v &&& 0xFFFFFFFFFFFFF000#64) } }
  else if 0x600 ≤ off ∧ off < 0x700 then
    if off % 16 = 0 then s.writeRbq ((off - 0x600) / 16) v else s.writeRbt ((off - 0x600) / 16) v
  else s

/-- R267: `arg.val` at BAR0 offset `arg.off`. -/
def execHostRegisterWrite (s : State) : Host.Outcome State Fault Refusal := .next (s.writeBar0 s.arg.off s.arg.val)

/-- R269: the host writes STATUS 0 to event slot `arg.mslot`, and events that wait are reported. -/
def execEventSlotFree (s : State) : Host.Outcome State Fault Refusal :=
  let k := 12 + s.arg.mslot % 4
  let v := s.dev.mailbox.get 0 k &&& ~~~(0xFF00#512)
  .next ({ s with dev := { s.dev with mailbox := s.dev.mailbox.set 0 k v } }.flushEvents 4)

/-- A host address lies in a window that is in force (R265, R267). -/
def State.hostWindow (s : State) (a : Nat) : Bool :=
  (List.range 8).any (fun w =>
    let b := s.dev.hwbase.get 0 w
    let l := (s.dev.hwlim.get 0 w).extractLsb' 12 52
    let base := b.extractLsb' 12 52
    b.getLsbD 0 && base.ule l && base.toNat * 4096 ≤ a && a < (l.toNat + 1) * 4096)

/-! Requests (R266, R268) -/

/-- The fields of a slot. -/
def slotOp (v : BitVec 512) : Nat := (v.extractLsb' 0 8).toNat
def slotCtx (v : BitVec 512) : Nat := (v.extractLsb' 16 8).toNat
def slotRegion (v : BitVec 512) : Nat := (v.extractLsb' 32 16).toNat
def slotA0 (v : BitVec 512) : Word := v.extractLsb' 64 64
def slotA1 (v : BitVec 512) : Word := v.extractLsb' 128 64

/-- A slot whose reserved bytes or context give BADOP. -/
def slotBad (v : BitVec 512) : Bool :=
  v.extractLsb' 24 8 != 0 || v.extractLsb' 48 16 != 0 || v.extractLsb' 256 256 != 0 || 15 < slotCtx v

/-- The request that a slot makes, by OP; 0 for BADOP. In recovery RECOVER alone is accepted (R275). -/
def State.requestOf (s : State) (v : BitVec 512) : Nat :=
  let op := slotOp v
  if slotBad v then 0
  else if s.dev.recovery then (if op = 0x09 then op else 0)
  else if 1 ≤ op ∧ op ≤ 8 ∨ op = 0x0A then op else 0

/-- The slot whose request is to be performed: the head of the doorbells, while no checkpoint streams (R266, R271). -/
def State.nextRequest (s : State) : Option (Nat × BitVec 512) :=
  if s.dev.streaming.isSome then none
  else
    match s.dev.doorbells with
    | [] => none
    | k :: _ => some (k, s.dev.mailbox.get 0 k)

/-- STATUS and RESULT of a slot. -/
def answered (v : BitVec 512) (status result : Nat) : BitVec 512 :=
  (withDword v 24 (BitVec.ofNat 64 result) &&& ~~~(0xFF00#512)) ||| BitVec.ofNat 512 (status % 256 * 256)

/-- Answer the request of slot `k`: RESULT, then STATUS. -/
def State.reply (s : State) (k status result : Nat) : State :=
  { s with dev := { s.dev with mailbox := s.dev.mailbox.set 0 k (answered (s.dev.mailbox.get 0 k) status result) } }

/-- The request at the head of the doorbells has been taken. -/
def State.taken (s : State) : State := { s with dev := { s.dev with doorbells := s.dev.doorbells.tail } }

/-- Perform the request at the head of the doorbells where its OP is `op`: `f` gives STATUS, RESULT and the state, from the
slot's words. -/
def request (op : Nat) (f : State → BitVec 512 → Nat × Nat × State) (s : State) : Host.Outcome State Fault Refusal :=
  match s.nextRequest with
  | none => .next s
  | some (k, v) =>
    if s.requestOf v = op then
      let r := f s.taken v
      .next (r.2.2.reply k r.1 r.2.1)
    else .next s

/-- R268: STATUS 3. -/
def execBadop (s : State) := request 0 (fun s _ => (3, 0, s)) s

/-! Addresses that a request names -/

/-- The bytes of [va, va + n) as a request reads them, in events of 8 bytes (R150), or the cause. -/
def State.requestRead (s : State) (ctx va n align : Nat) : Except Nat (List Byte) :=
  if va % align ≠ 0 then .error Cause.misalign
  else
    match windowPieces s ctx .read va n with
    | .error x => .error x.1
    | .ok ps =>
      if ps.any (fun p => s.poisoned p.key p.len) then .error Cause.ecc
      else .ok (ps.flatMap (fun p => (List.range p.len).map (fun i => s.readByte hostAgent 8 (p.key + i))))

/-- Two reads, one after the other. -/
def State.requestReads (s : State) (ctx va n va' n' : Nat) : Except Nat (List Byte × List Byte) :=
  match s.requestRead ctx va n n, s.requestRead ctx va' n' n' with
  | .error c, _ => .error c
  | _, .error c => .error c
  | .ok x, .ok y => .ok (x, y)

/-- The cause with which LAUNCH's write of the RCB image fails, where it would write it (R268, R39). -/
def State.rcbFailure (s : State) (ctx va : Nat) : Option Nat :=
  match windowPieces s ctx .write va 256, scalarRange s 256 ctx .write true va 256 with
  | .error x, _ => some x.1
  | _, .error x => some x.1
  | .ok _, .ok _ => none

/-- R268, R39: a root region under the context's root budget. -/
def execHostLaunch (s : State) :=
  request 1 (fun s v =>
    let a1 := (slotA1 v).toNat
    match s.requestReads (slotCtx v) (slotA0 v).toNat 128 a1 256 with
    | .error c => (4, c, s)
    | .ok (hdr, img) =>
      let r := s.launch (regionKey (slotCtx v) 0) ⟨hdr, img, a1⟩
      if r.1 % 256 ≠ 0 then (2, r.1, s)
      else
        match s.rcbFailure (slotCtx v) a1 with
        | some c => (4, c, s)
        | none => (1, r.1, r.2)) s

/-- PUSH once its reads are made (03 R34): `count` is the join counter. -/
def State.hostPush (s : State) (k : Nat) (c : CR) (img : List Byte) (count : Nat) : Nat × Nat × State :=
  let R := s.regionAt k
  if R.failing = true ∨ R.reserve.get 0 0 < R.charged.get 0 0 + 2 then (2, Cause.queue, s)
  else if 2 ^ 63 < R.drawn.toNat + 2 ^ 32 then (2, Cause.weight, s)
  else
    let s := s.putRegion k { R with
      drawn := R.drawn + BitVec.ofNat 64 (2 ^ 32), charged := R.charged.set 0 0 (R.charged.get 0 0 + 1) }
    let c := { c with weight := BitVec.ofNat 64 (2 ^ 32), region := k % 65536 }
    (1, 0, if count = 0 then s.pushReady k c img else s.park k c img)

/-- R268. -/
def execPush (s : State) :=
  request 2 (fun s v =>
    let k := regionKey (slotCtx v) (slotRegion v)
    let R := s.regionAt k
    if slotRegion v = 0 ∨ R.status ≠ 1 then (2, 0, s)
    else
      match s.requestRead (slotCtx v) (slotA0 v).toNat 64 8 with
      | .error c => (4, c, s)
      | .ok img =>
        if imageIllegal R img then (2, Cause.illegal, s)
        else
          let c := resolveCr R (CR.ofBytes img)
          if c.joinaddr = 0 then s.hostPush k c img 0
          else
            match s.requestRead (slotCtx v) c.joinaddr.toNat 8 8 with
            | .error e => (4, e, s)
            | .ok bs => s.hostPush k c img (ofBytes bs)) s

/-- Withdraw from regions one after the other: the sum of the counts. -/
def State.withdrawEach (s : State) (tag mask : BitVec 32) : List Nat → Nat × State
  | [] => (0, s)
  | k :: ks =>
    let r := s.withdraw k tag mask
    let t := r.2.settled
    let q := State.withdrawEach t tag mask ks
    (r.1 + q.1, q.2)

/-- The ACTIVE regions of a context. -/
def State.activeOf (s : State) (ctx : Nat) : List Nat :=
  (s.regions.filter (fun e => e.2.status == 1 && e.1 / 65536 == ctx)).map (fun e => e.1)

/-- R268, R48, R49. -/
def execHostWithdraw (s : State) :=
  request 3 (fun s v =>
    let ks := if slotRegion v = 0 then s.activeOf (slotCtx v) else [regionKey (slotCtx v) (slotRegion v)]
    let r := s.withdrawEach ((slotA0 v).extractLsb' 0 32) ((slotA0 v).extractLsb' 32 32) ks
    (1, r.1, r.2)) s

/-- R268, 13 R259. -/
def execHostFreeze (s : State) :=
  request 4 (fun s v => (1, 0, s.freezeJob (regionKey (slotCtx v) (slotRegion v)))) s

/-- R268, 13 R261. -/
def execHostThaw (s : State) :=
  request 5 (fun s v => (1, 0, s.thawJob (regionKey (slotCtx v) (slotRegion v)))) s

/-! PEERCOPY (R270) -/

/-- The bytes of several ranges. -/
def State.requestEach (s : State) (ctx n : Nat) : List Nat → Except Nat (List Byte)
  | [] => .ok []
  | a :: as =>
    match s.requestRead ctx a n 1, State.requestEach s ctx n as with
    | .error c, _ => .error c
    | _, .error c => .error c
    | .ok x, .ok y => .ok (x ++ y)

/-- The source bytes of a record, as the sending device reads them. -/
def State.peerSource (s : State) (ctx : Nat) (r : BitVec 512) : Except Nat (List Byte) :=
  if copyOp r = 1 then .ok []
  else if copyListed r then
    match s.requestRead ctx (copyParam r) (8 * segCount r) 8 with
    | .error c => .error c
    | .ok l =>
      match s.requestEach ctx (segBytes r) ((List.range (segCount r - 1)).map (fun j => fieldAt l (8 * j) 8)),
          s.requestRead ctx (fieldAt l (8 * (segCount r - 1)) 8) (copyDstBytes r - (segCount r - 1) * segBytes r) 1 with
      | .error c, _ => .error c
      | _, .error c => .error c
      | .ok x, .ok y => .ok (x ++ y)
  else s.requestRead ctx (copySrc r) (copySrcBytes r) 1

/-- R270, R268: a record that is malformed, names no port, or that the other device refuses, gives STATUS 2. -/
def execPeercopy (s : State) :=
  request 7 (fun s v =>
    let ctx := slotCtx v
    match s.requestRead ctx (slotA0 v).toNat 64 8 with
    | .error c => (4, c, s)
    | .ok bs =>
      let r := BitVec.ofNat 512 (ofBytes bs)
      let port := ((slotA1 v).extractLsb' 0 4).toNat
      if copyMalformed r = true ∨ 12 ≤ port then (2, 0, s)
      else
        match s.peerSource ctx r with
        | .error c => (4, c, s)
        | .ok data =>
          if Config.peerAccepts s.cycle port then
            (1, 0, { s with dev := { s.dev with
              sent := s.dev.sent ++ [⟨port, ((slotA1 v).extractLsb' 4 8).toNat, ctx, r, data⟩] } })
          else (2, 0, s)) s

/-- A received record is refused: malformed, out of its space, in a space of a CR (there is none), or with a completion
record that does not translate (R176, R170). -/
def State.peerRefused (s : State) (ctx : Nat) (r : BitVec 512) : Bool :=
  copyMalformed r || (copyOut r).isSome || isLocal (copyDst r) || copyFol r ||
  (copyComp r != 0 && (match windowPieces s ctx .write (copyComp r) (compBytes r) with | .ok _ => false | .error _ => true))

/-- R270: the record `arg.record` with its source bytes `arg.data` arrives for front `arg.front`, in context `arg.sel`. -/
def execPeercopyReceive (s : State) : Host.Outcome State Fault Refusal :=
  let ctx := s.arg.sel % 16
  let r := s.arg.record
  if s.peerRefused ctx r then .next s
  else
    .next (s.append (s.arg.front % 256) 0 { raw := r, ctx := ctx, owned := false, payload := some s.arg.data })

end Sys2Proof.Machine
end

