-- ==== Sys2Proof/Machine/Sha.lean ====
section
/-! DEFINITION. SHA-256 (FIPS 180-4), by which the boot ROM measures an image (14 R274) and a checkpoint image carries its digest
(14 R272). -/

namespace Sys2Proof.Machine

/-- A word of SHA-256. -/
abbrev ShaWord := BitVec 32

/-- The largest `r` below `base + 2 ^ n` with `r ^ k ≤ x`, settled bit by bit. -/
def rootBits (k x : Nat) : Nat → Nat → Nat
  | 0, base => base
  | n + 1, base => rootBits k x n (if (base + 2 ^ n) ^ k ≤ x then base + 2 ^ n else base)

/-- The first 32 bits of the fractional part of the `k`-th root of `p`, a number below 512. -/
def rootFraction (k p : Nat) : ShaWord := BitVec.ofNat 32 (rootBits k (p * 2 ^ (32 * k)) 37 0)

/-- The first 64 primes: the numbers from 2 to 311 that no number from 2 to 17 divides but themselves. -/
def shaPrimes : List Nat :=
  ((List.range 310).map (· + 2)).filter fun p => (List.range 16).all fun d => p == d + 2 || p % (d + 2) != 0

/-- The constants of the rounds: cube roots of the first 64 primes. -/
def shaConstants : List ShaWord := shaPrimes.map (rootFraction 3)

/-- The eight working words. -/
structure ShaState where
  a : ShaWord
  b : ShaWord
  c : ShaWord
  d : ShaWord
  e : ShaWord
  f : ShaWord
  g : ShaWord
  h : ShaWord
  deriving DecidableEq, Repr

/-- The working words before the first block: square roots of the first eight primes. -/
def ShaState.start : ShaState :=
  let v i := rootFraction 2 (shaPrimes.getD i 0)
  ⟨v 0, v 1, v 2, v 3, v 4, v 5, v 6, v 7⟩

/-- One round, with its constant and schedule word. -/
def ShaState.round (s : ShaState) (k w : ShaWord) : ShaState :=
  let s1 := s.e.rotateRight 6 ^^^ s.e.rotateRight 11 ^^^ s.e.rotateRight 25
  let ch := (s.e &&& s.f) ^^^ (~~~s.e &&& s.g)
  let t1 := s.h + s1 + ch + k + w
  let s0 := s.a.rotateRight 2 ^^^ s.a.rotateRight 13 ^^^ s.a.rotateRight 22
  let maj := (s.a &&& s.b) ^^^ (s.a &&& s.c) ^^^ (s.b &&& s.c)
  ⟨t1 + (s0 + maj), s.a, s.b, s.c, s.d + t1, s.e, s.f, s.g⟩

/-- The schedule word that follows 16 words, the oldest first. -/
def nextShaWord (w : List ShaWord) : ShaWord :=
  let x := w.getD 1 0
  let y := w.getD 14 0
  w.getD 0 0 + (x.rotateRight 7 ^^^ x.rotateRight 18 ^^^ (x >>> 3)) + w.getD 9 0 +
    (y.rotateRight 17 ^^^ y.rotateRight 19 ^^^ (y >>> 10))

/-- The rounds, over a window of 16 schedule words. -/
def shaRounds : List ShaWord → List ShaWord → ShaState → ShaState
  | [], _, s => s
  | k :: ks, w, s => shaRounds ks (w.tail ++ [nextShaWord w]) (s.round k (w.headD 0))

/-- Big-endian words of bytes. -/
def shaWords : Nat → List Byte → List ShaWord
  | 0, _ => []
  | n + 1, bs => (bs.take 4).foldl (fun v b => v * 256 + b.setWidth 32) 0 :: shaWords n (bs.drop 4)

/-- One block of 64 bytes. -/
def ShaState.block (s : ShaState) (bs : List Byte) : ShaState :=
  let t := shaRounds shaConstants (shaWords 16 bs) s
  ⟨s.a + t.a, s.b + t.b, s.c + t.c, s.d + t.d, s.e + t.e, s.f + t.f, s.g + t.g, s.h + t.h⟩

/-- `n` blocks. -/
def shaBlocks : Nat → List Byte → ShaState → ShaState
  | 0, _, s => s
  | n + 1, bs, s => shaBlocks n (bs.drop 64) (s.block (bs.take 64))

/-- The padding of a message: a 1 bit, zeros, and the length in bits as 8 big-endian bytes. -/
def shaPadding (n : Nat) : List Byte :=
  0x80 :: List.replicate ((119 - n % 64) % 64) 0 ++ (List.range 8).map (fun i => BitVec.ofNat 8 (8 * n / 2 ^ (8 * (7 - i))))

/-- SHA-256 as a number, its first byte the highest. -/
def sha256 (bs : List Byte) : BitVec 256 :=
  let m := bs ++ shaPadding bs.length
  let t := shaBlocks (m.length / 64) m .start
  t.a ++ t.b ++ t.c ++ t.d ++ t.e ++ t.f ++ t.g ++ t.h

end Sys2Proof.Machine
end

