-- ==== Sys2Proof/Machine/Spec.lean ====
section
/-! DEFINITION. Speculation (12 R225-R241; 19 R384-R386): SPECB, SPECQ, SPECX, and the steps of the Fiddlehead and the
Gauge: SPECQ_RETURN, GAUGE_CHECK, TICKET_COMMIT and SQUASH_REQUEUE. -/

namespace Sys2Proof.Machine

/-! Formats and predictions (R225, R227) -/

/-- The format of a version's elements. -/
def versionFmt (fmt : Nat) : Fmt := if fmt = 0 then f32 else if fmt = 1 then f16 else bf16

/-- v_n + alpha (v_n - v_(n-1)) for finite values, rounded once; `half` when alpha is one half. -/
def Fmt.extrapolate (f : Fmt) (half : Bool) (x y : Nat) : Nat :=
  match f.decode x, f.decode y with
  | .nan _, _ => f.canon
  | _, .nan _ => f.canon
  | .inf n, .inf k => if n = k then f.canon else f.infinity n
  | .inf n, .fin .. => f.infinity n
  | .fin .., .inf n => f.infinity (!n)
  | .fin n1 m1 e1, .fin n2 m2 e2 =>
    let (n, m, e) := exactAdd n1 m1 e1 (!n2) m2 e2 rne
    let (n', m', e') := exactAdd n1 m1 e1 n m (if half then e - 1 else e) rne
    (f.round rne n' m' e' false).1

/-- The elements of a version. -/
def versionElems (w : Nat) : Nat → List Byte → List Nat
  | 0, _ => []
  | n + 1, bs => ofBytes (bs.take w) :: versionElems w n (bs.drop w)

/-- The prediction of R227 from the newest version and the one before. -/
def predict (fmt have_ alpha : Nat) (vn vo : List Nat) : List Nat :=
  if have_ = 1 ∨ alpha = 0 then vn
  else (vn.zip vo).map (fun x => (versionFmt fmt).extrapolate (alpha == 1) x.1 x.2)

/-! The Gauge's test (R235) -/

/-- Not below: a finite non-negative bound against a distance. -/
def withinTol (ta tr : Fp) (n1 : Bool) (m1 : Nat) (e1 : Int) (n2 : Bool) (m2 : Nat) (e2 : Int) : Bool :=
  match ta, tr with
  | .fin _ ma ea, .fin _ mr er =>
    let d := exactAdd n1 m1 e1 (!n2) m2 e2 rne
    let r := exactAdd false ma ea false (mr * m1) (er + e1) rne
    !finLt false r.2.1 r.2.2 false d.2.1 d.2.2
  | _, _ => false

/-- Whether an element of the real version passes against its prediction. -/
def gaugePasses (fmt : Nat) (tauAbs tauRel : BitVec 32) (real pred : Nat) : Bool :=
  if real = pred then true
  else
    match (versionFmt fmt).decode real, (versionFmt fmt).decode pred with
    | .fin n1 m1 e1, .fin n2 m2 e2 => withinTol (f32.decode tauAbs.toNat) (f32.decode tauRel.toNat) n1 m1 e1 n2 m2 e2
    | _, _ => false

/-- The lowest failing index, counted from `i`. -/
def firstMiss (fmt : Nat) (ta tr : BitVec 32) : Nat → List (Nat × Nat) → Option Nat
  | _, [] => none
  | i, (r, p) :: l => if gaugePasses fmt ta tr r p then firstMiss fmt ta tr (i + 1) l else some i

/-! Requests (R225, R230, R231) -/

/-- A version descriptor as read. -/
structure VersionDesc where
  buf : Nat := 0
  dctl : Nat := 0
  hist : Nat := 0
  wm : Nat := 0
  spare : Nat := 0
  deriving DecidableEq, Repr

def VersionDesc.ofBytes (bs : List Byte) : VersionDesc :=
  ⟨fieldAt bs 0 8, fieldAt bs 8 8, fieldAt bs 16 8, fieldAt bs 24 8, fieldAt bs 32 32⟩

/-- Elements, format, newest slot and versions held. -/
def VersionDesc.count (d : VersionDesc) : Nat := d.dctl % 65536 + 1
def VersionDesc.fmt (d : VersionDesc) : Nat := d.dctl / 2 ^ 16 % 4
def VersionDesc.newest (d : VersionDesc) : Nat := d.dctl / 2 ^ 18 % 2
def VersionDesc.versions (d : VersionDesc) : Nat := d.dctl / 2 ^ 19 % 4
/-- Bytes of a version. -/
def VersionDesc.bytes (d : VersionDesc) : Nat := d.count * fmtBytes d.fmt

/-- A field of a descriptor is malformed (R225, R231). -/
def VersionDesc.malformed (d : VersionDesc) : Bool :=
  d.dctl / 2 ^ 21 != 0 || d.versions == 3 || d.fmt == 3 || d.spare != 0 || d.buf % fmtBytes d.fmt != 0 || d.wm % 8 != 0

/-- A descriptor is malformed or exceeds the limits of R225. -/
def VersionDesc.bad (d : VersionDesc) : Bool := d.malformed || decide (65536 < d.bytes)

/-- A request block as read. -/
structure Request where
  rctl : Nat
  first : Nat
  second : Nat
  third : Nat
  rejoin : Nat
  out0 : Nat
  out1 : Nat
  spare : Nat
  deriving DecidableEq, Repr

def Request.ofBytes (bs : List Byte) : Request :=
  ⟨fieldAt bs 0 8, fieldAt bs 8 8, fieldAt bs 16 8, fieldAt bs 24 8, fieldAt bs 32 8, fieldAt bs 40 8, fieldAt bs 48 8,
    fieldAt bs 56 8⟩

def Request.mode (r : Request) : Nat := r.rctl % 4
def Request.alpha (r : Request) : Nat := r.rctl / 4 % 4

/-- Base and length of an output range's word. -/
def outRange (w : Nat) : Nat × Nat := (w % 2 ^ 42, w / 2 ^ 42 % 2 ^ 17)

/-- The output ranges that are used. -/
def Request.outs (r : Request) : List (Nat × Nat) := [outRange r.out0, outRange r.out1].filter (fun x => x.2 != 0)

/-- The range that the ticket's CR reads in another's stead: prediction or input. -/
def Request.input (r : Request) (d : VersionDesc) : Nat × Nat := if r.mode = 0 then (d.buf, d.bytes) else (r.second, r.third)

/-- Two ranges overlap. -/
def rangesMeet (a b : Nat × Nat) : Bool := a.1 < b.1 + b.2 && b.1 < a.1 + a.2

/-- Some two ranges of a list overlap. -/
def anyMeet : List (Nat × Nat) → Bool
  | [] => false
  | a :: l => l.any (rangesMeet a) || anyMeet l

/-- What a request block itself breaks (MALFORMED of R231). -/
def Request.bad (r : Request) (d : VersionDesc) : Bool :=
  r.rctl / 16 != 0 || decide (1 < r.mode) || r.alpha == 3 || (r.mode == 1 && r.alpha != 0) || r.spare != 0 ||
  r.out0 / 2 ^ 59 != 0 || r.out1 / 2 ^ 59 != 0 ||
  r.outs.any (fun o => decide (65536 < o.2) || o.1 % 4 != 0 || o.2 % 4 != 0) ||
  (r.mode == 0 && d.bad) ||
  (r.mode == 1 && (r.third == 0 || decide (65536 < r.third) || r.second % 4 != 0 || r.third % 4 != 0))

/-- A tolerance that R231 refuses: below zero, infinite or a NaN. -/
def badTolerance (t : Nat) : Bool :=
  match f32.decode t with
  | .fin n m _ => n && m != 0
  | _ => true

/-! Handles (R231, R239) -/

/-- The number in a handle. -/
def handleTicket (h : Word) : Nat := (h.extractLsb' 0 8).toNat

/-- The ticket at a number is that of a handle of the running context. -/
def State.ticketIs (s : State) (h : Word) (n : Nat) : Bool :=
  let T := s.ticketAt n
  T.st != .free && T.gen == (h.extractLsb' 8 56).toNat && T.ctx == s.ctx

/-- The ticket that a handle of the running context names, live or not: the number under which it stands, the handle's own or, where
RESTORE has found that taken by another context's live ticket, one of the model's own (14 R273; log entry 71). -/
def State.namedTicket (s : State) (h : Word) : Option Nat :=
  let n := handleTicket h
  if n < 1 ∨ 64 < n then none
  else if s.ticketIs h n then some n
  else (s.dev.tickets.map (fun e => e.1)).find? (fun m => 64 < m && m % 256 == n && s.ticketIs h m && (s.ticketAt m).live)

/-- The live ticket that a handle names. -/
def State.liveTicket (s : State) (h : Word) : Option Nat := (s.namedTicket h).filter (fun n => (s.ticketAt n).live)

/-- Live tickets of the device. -/
def State.liveTickets (s : State) : List (Nat × Ticket) := s.ticketList.filter (fun e => e.2.live)

/-- The lowest number whose ticket is not live; 0 for none (log entry 13). -/
def State.freeTicket (s : State) : Nat := ((List.range 64).find? (fun k => !(s.ticketAt (k + 1)).live)).elim 0 (· + 1)

/-- A CR of ticket `n` moves to ticket `m`. -/
def CR.renumber (n m : Nat) (c : CR) : CR := if c.ticket = n then { c with ticket := m } else c

/-- So do those that a front runs, and those that a region holds. -/
def Run.renumber (n m : Nat) (r : Run) : Run := { r with cr := CR.renumber n m r.cr }
def Front.renumber (F : Front) (n m : Nat) : Front :=
  { F with run := F.run.map (Run.renumber n m), drain := F.drain.map (fun x => { x with run := Run.renumber n m x.run }) }
def Region.renumber (R : Region) (n m : Nat) : Region :=
  { R with ready := R.ready.map (CR.renumber n m), parked := R.parked.map (CR.renumber n m), held := R.held.map (CR.renumber n m) }

/-- The lowest number from `k` up, in steps of `by_`, that a table does not use; `n` tried. -/
def spareKey {α : Type} (t : Table α) (by_ : Nat) : Nat → Nat → Nat
  | 0, k => k
  | n + 1, k => if t.any (fun e => e.1 == k) then spareKey t by_ n (k + by_) else k

/-- Number `n` is given out again (R232) while the weight of its dead ticket is still to be gathered: what is left of that ticket,
and its CRs, stand under a number of the model's own until then. -/
def State.vacateNumber (s : State) (n : Nat) : State :=
  let T := s.ticketAt n
  if T.owing then
    let m := spareKey s.dev.tickets 256 (s.dev.tickets.length + 1) (n + 256)
    let fronts := s.fronts.map (fun e => (e.1, e.2.renumber n m))
    let regions := s.regions.map (fun e => (e.1, e.2.renumber n m))
    { s with fronts := fronts, regions := regions }.setTicketAt m T
  else s

/-! Steps of SPECB (R231, R384) -/

/-- Probe a window range as R133 states. -/
def probeRange (acc : Acc) (r : Nat × Nat) : M Unit := do
  let s ← look id
  let _ ← orTrapAt (windowPieces s s.ctx acc r.1 r.2)

/-- Probe ranges one after the other. -/
def probeRanges (acc : Acc) : List (Nat × Nat) → M Unit
  | [] => pure ()
  | r :: rs => do
    probeRange acc r
    probeRanges acc rs

/-- The ranges that step 3 probes as loads: none of a descriptor with a malformed field, and none that is too long. -/
def Request.loads (r : Request) (d : VersionDesc) : List (Nat × Nat) :=
  if r.mode = 0 then
    (if d.malformed then []
      else (if d.bytes ≤ 65536 then [(d.buf, d.bytes), (d.hist, 2 * d.bytes)] else []) ++ [(d.wm, 8)])
  else if r.mode = 1 ∧ 1 ≤ r.third ∧ r.third ≤ 65536 then [(r.second, r.third)] else []

/-- The parent of a CHAIN request that R231 accepts. -/
def State.chainParent (s : State) (r : Request) : Option Nat :=
  (s.liveTicket (BitVec.ofNat 64 r.first)).filter (fun n =>
    !(s.ticketAt n).chain && (s.ticketAt n).outs.any (fun o => o.1 ≤ r.second && r.second + r.third ≤ o.1 + o.2))

/-- The status of a request, 0 where it is accepted: the refusals in the order of R231. -/
def State.specStatus (s : State) (r : Request) (d : VersionDesc) : Nat :=
  if 64 ≤ s.liveTickets.length then 1
  else if r.bad d then 2
  else if r.mode = 0 ∧ d.versions = 0 then 3
  else if r.mode = 0 ∧ (badTolerance (r.third % 2 ^ 32) ∨ badTolerance (r.third / 2 ^ 32)) then 4
  else if r.mode = 1 ∧ (s.chainParent r).isNone then 5
  else if anyMeet (r.input d :: r.outs) ∨
      s.liveTickets.any (fun e => e.2.ctx == s.ctx && e.2.outs.any (fun o => r.outs.any (rangesMeet o))) then 6
  else 0

/-- The prediction's elements as SPECB's event finds the history. -/
def State.prediction (s : State) (r : Request) (d : VersionDesc) : List Nat :=
  let slot (k : Nat) : List Nat :=
    match s.peekWindow s.ctx (d.hist + k * d.bytes) d.bytes with
    | .ok bs => versionElems (fmtBytes d.fmt) d.count bs
    | .error _ => []
  predict d.fmt d.versions r.alpha (slot d.newest) (slot (1 - d.newest))

/-- The ticket that SPECB opens (R231). -/
def State.newTicket (s : State) (n : Nat) (r : Request) (d : VersionDesc) (desc : Nat) (c : CR) (img : List Byte) : Ticket :=
  let T : Ticket := {
    st := .opened, gen := (s.ticketAt n).gen + 1, ctx := s.ctx, region := c.region, die := s.fid / 128,
    rejoin := BitVec.ofNat 64 r.rejoin, outs := r.outs, total := c.weight, image := c,
    bytes := img }
  if r.mode = 0 then
    let w := fmtBytes d.fmt
    { T with
      desc := desc, buf := d.buf, count := d.count, fmt := d.fmt, wm := d.wm, target := BitVec.ofNat 64 r.second
      tauAbs := BitVec.ofNat 32 r.third, tauRel := BitVec.ofNat 32 (r.third / 2 ^ 32)
      pred := Table.setBytes [] d.buf ((s.prediction r d).flatMap (toBytes w)) }
  else { T with chain := true, parent := (s.chainParent r).getD 0, inBase := r.second, inLen := r.third }

/-- The CR of an accepted request enters its region: ready, or held until the parent is DONE. -/
def State.placeSpec (s : State) (n : Nat) (T : Ticket) (img : List Byte) : State :=
  let c := { T.image with ticket := n }
  let k := regionKey T.ctx T.region
  let s := (s.vacateNumber n).setTicketAt n { T with image := c }
  let g := ticketKey n
  let s := { s with order := { s.order with seen := s.order.seen.set [] g (Table.set 0 [] g (s.order.time.get 0 g)) } }
  if T.chain ∧ (s.ticketAt T.parent).st ≠ .done then
    let R := s.regionAt k
    s.setRegionAt k { R with held := R.held ++ [c] }
  else s.pushReady k c img

/-- Undo the charge and the split of a refused request (R231, step 5): a draw stands. -/
def State.uncharge (s : State) (give : Word) : State :=
  let R := s.regionNow
  let s := s.putRegion s.regionKeyNow { R with charged := R.charged.set 0 0 (R.charged.get 0 0 - 1) }
  s.setRun { s.run with cweight := s.run.cweight + give }

/-- R384. -/
def execSpecb (p q : Bool) (b a d : Reg) (s : State) :=
  irrevocable (.specb p q b a d) (notExec (.specb p q b a d))
    (do
      sources [.x p a, .x q b]
      noTicket 0
      afterQueues
      let u ← getX a
      let v ← getX b
      let blk ← loadBlock u.toNat 64 64
      let r := Request.ofBytes blk
      let desc ← if r.mode = 0 then loadBlock r.first 64 64 else pure []
      let D := VersionDesc.ofBytes desc
      let img ← loadBlock v.toNat 64 8
      let t ← look id
      illegalIf (.specb p q b a d) (imageIllegal t.regionNow img)
      let c := resolveCr t.regionNow (CR.ofBytes img)
      illegalIf (.specb p q b a d) (c.joinaddr != 0)
      probeRanges .read (r.loads D)
      if r.rejoin ≠ 0 then
        let _ ← scalarPieces .read r.rejoin 8
      probeRanges .write (r.outs.filter (fun o => decide (o.2 ≤ 65536)))
      let give ← chargeAndSplit 0
      let t ← look id
      let st := t.specStatus r D
      let n := t.freeTicket
      if st ≠ 0 then
        update (fun t => t.uncharge give)
        fillX d (BitVec.ofNat 64 st)
      else do
        let T := t.newTicket n r D r.first { c with weight := give, region := t.run.cr.region } img
        update (fun t => t.placeSpec n T img)
        fillX d (BitVec.ofNat 64 (T.gen * 256 + n))) s

/-! SPECQ (R239, R385) -/

/-- OUTCOME of a state. -/
def outcomeCode : TicketSt → Nat
  | .free => 255
  | .opened => 0
  | .done => 1
  | .committed => 2
  | .squashed => 3
  | .abandoned => 4

/-- The word that SPECQ writes of a ticket. -/
def Ticket.word (T : Ticket) : Word := 0#16 ++ T.first ++ T.cause ++ BitVec.ofNat 8 (outcomeCode T.st)

/-- SPECQ as executed and as its wait ends. -/
def askTicket (i : Instr) (p q : Bool) (b a d : Reg) (s : State) : Host.Outcome State Fault Refusal :=
  plain i (do
    notExec i
    sources [.x p a, .x q b]
    noTicket 0
    let u ← getX a
    let v ← getX b
    illegalIf i (decide (1 < v.toNat))
    let t ← look id
    match t.namedTicket u with
    | none => fillX d 0xFF
    | some n => do
      let T := t.ticketAt n
      waitIf (T.live && v == 0) .specq
      if !T.live then update (fun t => { t with order := t.order.observe t.agent (ticketKey n) })
      fillX d T.word) s

/-- R385. -/
def execSpecq (p q : Bool) (b a d : Reg) (s : State) := askTicket (.specq p q b a d) p q b a d s

/-- R239: the ticket that the current hart's SPECQ waits for has left OPEN and DONE. -/
def execSpecqReturn (s : State) : Host.Outcome State Fault Refusal :=
  match s.hart.wait, s.hart.waitInstr with
  | .specq, some (.specq p q b a d) => askTicket (.specq p q b a d) p q b a d s
  | _, _ => .next s

/-! The weight of dead tickets (R237, R240, R51) -/

/-- Stop what can now be stopped of a dead ticket: CRs that left privileged mode or that such a CR spawned. -/
def State.sweepTicket (s : State) (n : Nat) : State :=
  let s := s.dropQueued n
  s.stopRuns n (s.stoppables n)

/-- Ticket `n` is over; what stood under a number of the model's own is gone. -/
def State.settleTicket (s : State) (n : Nat) (T : Ticket) : State := s.setTicketAt n (if 64 < n then {} else T)

/-- Return to its region the pool of a ticket that pushes no CR. -/
def State.returnPool (s : State) (n : Nat) : State :=
  let T := s.ticketAt n
  let k := regionKey T.ctx T.region
  ((s.settleTicket n { T with owing := false, pool := 0 }).giveWeight k T.pool).checkComplete k

/-- A dead ticket whose pool holds the weight of all its CRs. -/
def Ticket.gathered (T : Ticket) : Bool := T.owing && !T.live && T.pool == T.total

/-- A dead ticket's CR is not pushed again: it was abandoned, or its region is failing (R51). -/
def State.noRequeue (s : State) (T : Ticket) : Bool :=
  T.st == .abandoned || (s.regionAt (regionKey T.ctx T.region)).failing

/-- Return the pools of abandoned tickets that are gathered. -/
def State.returnPools (s : State) : List (Nat × Ticket) → State
  | [] => s
  | (n, T) :: l => State.returnPools (if T.gathered ∧ s.noRequeue T = true then s.returnPool n else s) l

/-- R386. -/
def execSpecx (p : Bool) (a : Reg) (s : State) :=
  irrevocable (.specx p a) (notExec (.specx p a))
    (do
      sources [.x p a]
      noTicket 0
      afterQueues
      let u ← getX a
      let t ← look id
      match t.liveTicket u with
      | none => pure ()
      | some n => update (fun t =>
          let t := { t with order := t.order.handOver t.agent (ticketKey n) }.abandon n 0xFD
          (t.returnPools t.ticketList).settled)) s

/-! GAUGE_CHECK (R235, R226) -/

/-- A ticket's check is due. -/
def State.checkDue (s : State) (T : Ticket) : Bool := s.published T || (T.watched && !s.frozenTicket T && T.real.isSome)

/-- Write the real version into the history (R226); what is not writable stays. -/
def State.putHistory (s : State) (T : Ticket) (real : List Byte) : State :=
  match s.peekWindow T.ctx T.desc 64 with
  | .error _ => s
  | .ok bs =>
    let d := VersionDesc.ofBytes bs
    let s := s.deviceWrite T.ctx (d.hist + (1 - d.newest) * real.length) real
    let ctl := d.dctl / 2 ^ 21 * 2 ^ 21 + min (d.versions + 1) 2 * 2 ^ 19 + (1 - d.newest) * 2 ^ 18 + d.dctl % 2 ^ 18
    s.deviceWrite T.ctx (T.desc + 8) (toBytes 8 ctl)

/-- The verdict on one ticket. -/
def State.judge (s : State) (n : Nat) (real : List Nat) : State :=
  let T := s.ticketAt n
  let w := fmtBytes T.fmt
  let pred := versionElems w T.count (T.pred.bytes T.buf (T.count * w))
  match firstMiss T.fmt T.tauAbs T.tauRel 0 (real.zip pred) with
  | none => s.setTicketAt n { T with verdict := some true }
  | some i => s.squash n 0 (BitVec.ofNat 32 i)

/-- The tickets that are checked with one: due at the same event, on its descriptor, of its context. -/
def State.checkedWith (s : State) (T : Ticket) : List Nat :=
  (s.ticketList.filter (fun e => e.2.ctx == T.ctx && e.2.desc == T.desc && e.2.event == T.event && s.checkDue e.2)).map (fun e => e.1)

/-- What ticket `n`'s check has read. -/
def State.realOf (s : State) (n : Nat) : Nat × List Byte := (s.ticketAt n).real.getD (s.realNow (s.ticketAt n))

/-- The verdict on one ticket, by what its check has read; one that is over already has none. -/
def State.verdictOn (s : State) (n : Nat) (real : Nat × List Byte) : State :=
  let T := s.ticketAt n
  if T.watched = false then s
  else if real.1 = 0 then s.judge n (versionElems (fmtBytes T.fmt) T.count real.2)
  else s.squash n (BitVec.ofNat 8 real.1) 0xFFFFFFFF#32

/-- The Gauge's event follows the event that publishes, and with it what that follows (R235). -/
def State.gaugeObserves (s : State) (n : Nat) : State :=
  match windowPieces s (s.ticketAt n).ctx .read (s.ticketAt n).wm 8 with
  | .ok (p :: _) => { s with order := s.order.acquire (ticketKey n) p.key }
  | _ => s

/-- R235: ticket `arg.ticket`, once its watermark has reached its target, with every ticket on its descriptor that is due
at the same event. -/
def execGaugeCheck (s : State) : Host.Outcome State Fault Refusal :=
  let T := s.ticketAt s.arg.ticket
  if s.checkDue T then
    let ns := s.checkedWith T
    let u := ns.foldl State.gaugeObserves s
    let t := ns.foldl (fun t n => t.verdictOn n (u.realOf n)) u
    .next (match ns.find? (fun n => (u.realOf n).1 == 0) with
      | some n => t.putHistory T (u.realOf n).2
      | none => t).settled
  else .next s

/-- The tickets whose watermark word their context can no longer read are squashed (R235). -/
def State.squashUnreadable (s : State) : List (Nat × Ticket) → State
  | [] => s
  | (n, T) :: l =>
    let s :=
      match s.watermark T with
      | .ok _ => s
      | .error c => if T.watched ∧ T.real = none then s.squash n (BitVec.ofNat 8 c) 0xFFFFFFFF#32 else s
    State.squashUnreadable s l

/-! TICKET_COMMIT (R236, R328, R339) -/

/-- A synchronising read-modify-write of the device, as agent `g`, in a context. -/
def State.deviceModify (s : State) (ctx g : Nat) (priv : Bool) (va n : Nat) (f : Nat → Option Nat) : Except Nat State :=
  if va % n ≠ 0 then .error Cause.misalign
  else
    match scalarByte s 256 ctx .both priv va with
    | .error c => .error c
    | .ok key =>
      match s.modifyWord ctx g n key true f with
      | .ok (_, s') => .ok s'
      | .error c => .error c

/-- One logged effect as performed at the commit, by agent `g`; its failure otherwise. -/
def State.perform (s : State) (ctx g : Nat) : Effect → Except Nat State
  | .join va priv =>
    match s.joinAt 256 ctx g priv va with
    | .ok (_, s') => .ok s'
    | .error c => .error c
  | .wmpub va v priv => s.deviceModify ctx g priv va 8 (fun old => if old < v.toNat then some v.toNat else none)
  | .amo f va n v priv => s.deviceModify ctx g priv va n (fun old => some (amoWord f n old v.toNat))
  | .epub _ _ _ => .ok { s with order := s.order.publish ctx g }

/-- The logged effects in order: the cause of the first that is skipped. They follow the commit, as its own agent's (R236). -/
def State.performLog (s : State) (ctx g : Nat) : List Effect → State × Option Nat
  | [] => (s, none)
  | e :: es =>
    match s.perform ctx g e with
    | .ok s' => State.performLog s'.gaugeReads ctx g es
    | .error c => ((State.performLog s ctx g es).1, some c)

/-- The CHAIN tickets of a parent that has committed pass (R232). -/
def State.passChildren (s : State) (parent : Nat) : State :=
  { s with dev := { s.dev with
    tickets := s.dev.tickets.map (fun e =>
      if e.2.live ∧ e.2.chain = true ∧ e.2.parent = parent then (e.1, { e.2 with verdict := some true, parent := 0 }) else e) } }

/-- A ticket whose commit is due (R232): DONE, and passed; a CHAIN ticket passes when its parent commits. -/
def State.commitDue (s : State) (T : Ticket) : Bool := T.st == .done && T.verdict == some true && !s.frozenTicket T

/-- R236, of ticket `arg.ticket`. -/
def execTicketCommit (s : State) : Host.Outcome State Fault Refusal :=
  let n := s.arg.ticket
  let T := s.ticketAt n
  if s.commitDue T then
    let bytes := (T.written.map (fun va => (va, T.shadow.get 0 va)))
    let s := s.publishBytes T.ctx (ticketKey n) bytes.length bytes
    let s := s.setTicketAt n { T with st := .committed, shadow := [], written := [], pred := [], log := [], pool := 0 }
    let s := { s with order := s.order.tick (ticketKey n) }.gaugeReads
    let s := s.passChildren n
    let r := s.performLog T.ctx (ticketKey n) T.log
    let s := r.1.setTicketAt n { r.1.ticketAt n with cause := BitVec.ofNat 8 (r.2.getD 0) }
    let k := regionKey T.ctx T.region
    .next ((s.giveWeight k T.pool).checkComplete k).settled
  else .next s

/-! SQUASH_REQUEUE (R237) -/

/-- The counter of a rejoin address as the device reads it; where the read fails the CR parks all the same. -/
def State.rejoinCount (s : State) (ctx va : Nat) : Nat :=
  match scalarByte s 256 ctx .read false va with
  | .ok key => if va % 8 = 0 ∧ s.poisoned key 8 = false then ofBytes (s.mem.bytes key 8) else 1
  | .error _ => 1

/-- The SPECB CR of a squashed ticket enters its region again, without ticket and with the whole pool. -/
def State.requeue (s : State) (n : Nat) : State :=
  let T := s.ticketAt n
  let k := regionKey T.ctx T.region
  let c := { T.image with ticket := 0, weight := T.pool, joinaddr := T.rejoin }
  let img := T.bytes
  let s := s.settleTicket n { T with owing := false, pool := 0, shadow := [], written := [], log := [] }
  if T.rejoin = 0 then s.pushReady k c img
  else if s.rejoinCount T.ctx T.rejoin.toNat = 0 then s.pushReady k c img else s.park k c img

/-- R237: what is left of dead ticket `arg.ticket` is stopped, and once its pool holds all the weight it is delivered: its
CR is pushed again, or, where none is, the weight returns to the region. -/
def execSquashRequeue (s : State) : Host.Outcome State Fault Refusal :=
  let n := s.arg.ticket
  let T := s.ticketAt n
  if T.owing ∧ T.live = false ∧ s.frozenTicket T = false then
    let s := s.sweepTicket n
    let T := s.ticketAt n
    if T.gathered then .next (if s.noRequeue T then (s.returnPool n).settled else (s.requeue n).settled) else .next s
  else .next s

/-- What every step brings about of itself: what the Gauges read after it (R235), watermark words that have become unreadable (R235) and the pools of abandoned
tickets (R240). -/
def afterStep (s : State) : State :=
  if s.dev.tickets.isEmpty then s
  else
    let s := s.gaugeReads
    let s := s.squashUnreadable s.ticketList
    (s.returnPools s.ticketList).settled

end Sys2Proof.Machine
end

