-- ==== Sys2Proof/Machine/ViewFam.lean ====
section
/-! DEFINITION. The VIEW group (07 R142-R146; 18 R368; 20 R424-R427): the view table, the coverage counts, and the
allocation and release of patches. -/

namespace Sys2Proof.Machine

/-! The view table (R143) -/

/-- Generation and index of a handle. -/
def handleGen (h : Word) : Nat := (h.extractLsb' 24 40).toNat
def handleIndex (h : Word) : Nat := (h.extractLsb' 0 20).toNat

/-- The handle of an entry. -/
def handleOf (gen index : Nat) : Word := BitVec.ofNat 64 (gen * 2 ^ 24 + index)

/-- The view that an entry holds for a handle of the running context. -/
def State.viewIn (s : State) (h : Word) (k : Nat) : Option View :=
  let v := s.dev.views.get {} k
  if v.live ∧ v.ctx = s.ctx ∧ v.gen = handleGen h ∧ handleGen h ≠ 0 then some v else none

/-- Where the view of a handle of the running context stands: at its index, or, where RESTORE has found that entry taken by another
context, at an entry of the model's own (14 R273; log entry 71). -/
def State.viewKey (s : State) (h : Word) : Nat :=
  let k := handleIndex h
  if (s.viewIn h k).isSome then k
  else ((s.dev.views.map (fun e => e.1)).find? (fun j => j % 1048576 == k && (s.viewIn h j).isSome)).getD k

/-- The live view that a handle names in the running context. -/
def State.liveView (s : State) (h : Word) : Option View := s.viewIn h (s.viewKey h)

/-- The lowest entry from `k` up that holds no view, `n` tried. -/
def freeView (t : Table View) : Nat → Nat → Option Nat
  | 0, _ => none
  | n + 1, k => if (t.get {} k).live then freeView t n (k + 1) else some k

/-- The entry that the next view takes, of 1,048,576 (log entry 12). -/
def State.nextView (s : State) : Option Nat :=
  match freeView s.dev.views (s.dev.views.length + 1) 0 with
  | some k => if k < 1048576 then some k else none
  | none => none

/-- Write an entry of the view table. -/
def State.setView (s : State) (k : Nat) (v : View) : State := { s with dev := { s.dev with views := s.dev.views.set {} k v } }

/-- Put a view into an entry: its handle. -/
def State.putView (s : State) (k lo hi : Nat) : Word × State :=
  let v := s.dev.views.get {} k
  (handleOf v.gen k, s.setView k { v with live := true, lo := lo, hi := hi, ctx := s.ctx })

/-! Patches (R142, R146) -/

/-- The patches that [lo, hi) overlaps: the first, and how many. -/
def patchRange (lo hi : Nat) : Nat × Nat := if hi ≤ lo then (0, 0) else (lo / 65536, (hi - 1) / 65536 - lo / 65536 + 1)

/-- A patch is overlapped by [lo, hi). -/
def overlapped (lo hi p : Nat) : Bool := lo < hi && p * 65536 < hi && lo < (p + 1) * 65536

/-- Add one to the coverage count of `n` patches from `p` up. -/
def cover (t : Table Nat) (p : Nat) : Nat → Table Nat
  | 0 => t
  | n + 1 => cover (t.set 0 p (t.get 0 p + 1)) (p + 1) n

/-- Take one from the coverage counts of the patches of [lo, hi) that [keepLo, keepHi) does not overlap; one that falls to
0 is freed. -/
def uncover (lo hi keepLo keepHi : Nat) (t : Table Nat) : Table Nat :=
  (t.map (fun e =>
    if overlapped lo hi e.1 ∧ overlapped keepLo keepHi e.1 = false then (e.1, e.2 - 1) else e)).filter (fun e => e.2 != 0)

/-- Set the coverage counts. -/
def State.setPatches (s : State) (t : Table Nat) : State := { s with dev := { s.dev with patches := t } }

/-- The stack that supplies a patch's storage (R125). -/
def State.stackOf (s : State) (p : Nat) : Nat := ((s.dev.vpm.get 0 (p / 1024)).extractLsb' 14 3).toNat

/-- Patches of a stack that are allocated. -/
def State.stackUsed (s : State) (k : Nat) : Nat := (s.dev.patches.filter (fun e => s.stackOf e.1 == k)).length

/-- The overlapped patches whose count is 0. -/
def State.newPatches (s : State) (lo hi : Nat) : List Nat :=
  let r := patchRange lo hi
  ((List.range r.2).map (fun i => r.1 + i)).filter (fun p => s.dev.patches.get 0 p == 0)

/-- The pools of the stacks concerned hold fewer patches than are to be allocated. -/
def State.poolShort (s : State) (new : List Nat) : Bool :=
  (List.range 8).any (fun k =>
    let need := (new.filter (fun p => s.stackOf p == k)).length
    need != 0 && decide (1024 * s.dev.pool < s.stackUsed k + need))

/-- A patch's storage, zeroed (R142). -/
def State.zeroPatch (s : State) (p : Nat) : State :=
  let k := coveredKey (65536 * p)
  { s with
    mem := s.mem.clear k (k + 65536)
    order := { s.order with marks := s.order.marks.clear k (k + 65536), cycles := s.order.cycles.clear k (k + 65536) }
    dev := { s.dev with poison := s.dev.poison.filter (fun a => !(k ≤ a && a < k + 65536)) } }

/-- The first granule of [lo, hi) that no view may cover (R145). -/
def State.uncoverable (s : State) (lo hi : Nat) : Option Nat :=
  if hi ≤ lo then none
  else
    ((List.range ((hi - 1) / 2 ^ 26 - lo / 2 ^ 26 + 1)).map (fun i => lo / 2 ^ 26 + i)).find? (fun g =>
      let e := s.dev.vpm.get 0 g
      !e.getLsbD 23 || !e.getLsbD (48 + s.ctx) || !e.getLsbD 22)

/-! The instructions -/

/-- The view of a handle, or UNCOVERED. -/
def needView (h : Word) : M View := do
  let s ← look id
  match s.liveView h with
  | some v => pure v
  | none => trap Cause.uncovered h.toNat

/-- VIEWNEW's allocation (R425): the value for x[D]. -/
def State.newView (s : State) (lo hi : Nat) : Word × State :=
  match s.nextView with
  | none => (1, s)
  | some k =>
    let new := s.newPatches lo hi
    if s.poolShort new then (0, s)
    else
      let r := patchRange lo hi
      let s := new.foldl State.zeroPatch s
      (s.setPatches (cover s.dev.patches r.1 r.2)).putView k lo hi

/-- R425. -/
def execViewnew (p q : Bool) (b a d : Reg) (s : State) :=
  irrevocable (.viewnew p q b a d) (notExec (.viewnew p q b a d))
    (do
      sources [.x p a, .x q b]
      afterQueues
      let u ← getX a
      let v ← getX b
      noTicket u.toNat
      let lo := u.toNat
      let hi := u.toNat + v.toNat
      trapIf (2 ^ 42 < hi) Cause.outwin lo
      let t ← look id
      match t.uncoverable lo hi with
      | some g => trap Cause.pageabs (g * 2 ^ 26)
      | none => do
        let (h, t) := t.newView lo hi
        update (fun _ => t)
        fillX d h) s

/-- R427. -/
def execViewsplit (p q : Bool) (b a d : Reg) (s : State) :=
  irrevocable (.viewsplit p q b a d) (notExec (.viewsplit p q b a d))
    (do
      sources [.x p a, .x q b]
      afterQueues
      let u ← getX a
      let v ← getX b
      noTicket u.toNat
      let w ← needView u
      trapIf (v.toNat < w.lo || w.hi < v.toNat) Cause.widen u.toNat
      let t ← look id
      match t.nextView with
      | none => putX d 1
      | some k => do
        let pt := v.toNat / 65536
        let both := overlapped w.lo v.toNat pt && overlapped v.toNat w.hi pt
        let t := if both then t.setPatches (cover t.dev.patches pt 1) else t
        let t := t.setView (t.viewKey u) { w with hi := v.toNat }
        let (h, t) := t.putView k v.toNat w.hi
        update (fun _ => t)
        putX d h) s

/-- R368. -/
def execNarrow (p q : Bool) (b a d : Reg) (s : State) :=
  irrevocable (.narrow p q b a d) (notExec (.narrow p q b a d))
    (do
      sources [.x p a, .x q b, .x false d]
      afterQueues
      let u ← getX a
      let v ← getX b
      let h ← getX d
      noTicket h.toNat
      let w ← needView h
      trapIf (u.toNat < w.lo || v.toNat < u.toNat || w.hi < v.toNat) Cause.widen h.toNat
      update (fun t =>
        (t.setPatches (uncover w.lo w.hi u.toNat v.toNat t.dev.patches)).setView (t.viewKey h)
          { w with lo := u.toNat, hi := v.toNat })) s

/-- R424. -/
def execViewdrop (p : Bool) (a : Reg) (s : State) :=
  irrevocable (.viewdrop p a) (notExec (.viewdrop p a))
    (do
      sources [.x p a]
      afterQueues
      let u ← getX a
      noTicket u.toNat
      let w ← needView u
      update (fun t =>
        (t.setPatches (uncover w.lo w.hi 0 0 t.dev.patches)).setView (t.viewKey u)
          { live := false, gen := if w.gen = 2 ^ 40 - 1 then 1 else w.gen + 1 })) s

/-- R426. -/
def execViewq (p q : Bool) (b a d : Reg) (s : State) :=
  irrevocable (.viewq p q b a d) (notExec (.viewq p q b a d))
    (do
      sources [.x p a, .x q b]
      afterQueues
      let u ← getX a
      let v ← getX b
      noTicket u.toNat
      illegalIf (.viewq p q b a d) (3 < v.toNat)
      let t ← look id
      let live := t.liveView u
      fillX d (match v.toNat with
        | 0 => live.elim (BitVec.allOnes 64) (fun w => BitVec.ofNat 64 w.lo)
        | 1 => live.elim (BitVec.allOnes 64) (fun w => BitVec.ofNat 64 w.hi)
        | 2 => if live.isSome then 1 else 0
        | _ => BitVec.ofNat 64 t.poolFree)) s

end Sys2Proof.Machine
end

