-- ==== Sys2Proof/Machine/Checkpoint.lean ====
section
/-! DEFINITION. CHECKPOINT and RESTORE (14 R271-R273): the image of a job, the bytes that are streamed, and the rebuilding of
the jobs of an image. -/

namespace Sys2Proof.Config

/-- The layout in which the save engine writes a CR's state (14 R272), which only RESTORE reads. -/
opaque crLayout : Machine.Save → List Byte

/-- The device-state record's layout (14 R272), which is the device's own. -/
opaque deviceLayout : Machine.Image → List Byte

end Sys2Proof.Config

namespace Sys2Proof.Machine

/-! Jobs -/

/-- Four ports of each die (R271, 02 R20). -/
def goodPorts (mask : Word) : Bool :=
  mask.toNat < 4096 && laneCount (mask &&& 0x3F#64) == 4 && laneCount (mask &&& 0xFC0#64) == 4

/-- The regions of REGION's job, or of every job of the device. -/
def State.jobKeys (s : State) (ctx region : Nat) : List Nat :=
  if region = 0 then (s.regions.filter (fun e => e.2.status == 1)).map (fun e => e.1)
  else if (s.regionAt (regionKey ctx region)).status = 1 then s.job (regionKey ctx region)
  else []

/-- Freeze every region of a list. -/
def State.freezeKeys (s : State) (ks : List Nat) : State := (s.undrainAll (s.drainsIn ks)).gate ks true

/-! The image (R272) -/

/-- A hart's registers leave its handler: the checkpoint copy is unprivileged. -/
def Hart.unprivileged (h : Hart) : Hart := if h.priv then { h with priv := false, kvblk := h.kvSaved } else h

/-- A CR's swatches in an image: bytes that a command is filling or draining are in no save area (13 R254), and come back
undefined. -/
def State.imageSwatches (s : State) (f : Nat) : List (Swatch × List Byte) :=
  (s.swatchesHeld f).map (fun w =>
    if w.1.st = .filling ∨ w.1.st = .draining then
      (w.1, (List.range w.1.len.toNat).map (fun i => Config.freeByte s.cycle (w.1.base.toNat + i)))
    else w)

/-- The Sorus commands of a CR's swatches, by its own numbers. -/
def State.imageSorus (s : State) (f : Nat) : List (Nat × Sorus) :=
  (s.frontAt f).theRun.swatches.zipIdx.filterMap (fun w => ((s.coreAt (f / 2)).sorus.get none w.1).map (fun c => (w.2, c)))

/-- A front record: what an abort pre-emption of front `f` would save (13 R253, R254). -/
def State.frontRecord (s : State) (f : Nat) : Save :=
  let t := s.abortHarts f
  let F := t.frontAt f
  let r := F.theRun
  let A := t.dev.saves.get {} r.cr.save
  let lens := saveLens F.e 1 (saveLens F.a 0 A.lens 32) 32
  let tiles := t.tilesHeld f
  let sw := t.imageSwatches f
  let need := max (unitsFor F lens tiles sw) 1
  { units0 := if f < 128 then need else 0, units1 := if f < 128 then 0 else need
    run := { r with cr := { r.cr with weight := r.cweight, save := 0 } }, grant := F.grant
    a := (F.a.landAll.saved A.a).unprivileged, e := (F.e.landAll.saved A.e).unprivileged, lq := F.lq
    sqData := F.sqData, sqAddr := F.sqAddr, held := F.held, lens := lens, tiles := tiles, swatches := sw, sorus := t.imageSorus f, sameGrant := false
    needs := t.needsOf f, cause := Cause.preempt, front := f }

/-- A command of the job. -/
def Cmd.ofJob (ks : List Nat) (c : Cmd) : Bool := c.owned && ks.contains (regionKey c.ctx c.region)

/-- The job's commands on front `f`, with the tiles and descriptors of those whose CR the front does not run, and the sequence numbers
as context `ctx` sees them. -/
def State.chainsOf (s : State) (ctx : Nat) (ks : List Nat) (f : Nat) : Chains :=
  let F := s.frontAt f
  let C := s.coreAt (f / 2)
  let chain := F.chain.map (fun e => (e.1, e.2.filter (Cmd.ofJob ks)))
  let rest := (chain.flatMap (fun e => e.2)).filter (fun c => !F.run.any (fun r => r.serial == c.serial))
  { seq := [0, 1, 2].foldl (fun t k => t.set 0 k (F.seqFor ctx k)) [], chain := chain
    shadows := F.shadows.map (fun e => (e.1, e.2.filter (Cmd.ofJob ks)))
    tiles := rest.flatMap (fun c => c.tile.toList.map (fun k => (k, C.tiles.get {} k)))
    swatches := rest.flatMap (fun c => (c.srcs ++ c.dsts).map (fun k => (k, C.swatches.get {} k))) }

/-- The memory key of a granule's first byte. -/
def granuleKey (g : Nat) (e : Word) : Nat :=
  if e.getLsbD 22 then coveredKey (g * 2 ^ 26) else (e.extractLsb' 14 3).toNat * 2 ^ 37 + (e.extractLsb' 0 11).toNat * 2 ^ 26

/-- The listed bytes of [lo, hi), by offset. -/
def cutOut (m : Memory) (lo hi : Nat) : Memory := (m.filter (fun e => lo ≤ e.1 && e.1 < hi)).map (fun e => (e.1 - lo, e.2))

/-- A granule record. -/
def State.granuleRecord (s : State) (g : Nat) (e : Word) : Granule :=
  let k := granuleKey g e
  { index := g, entry := e, data := cutOut s.mem k (k + 2 ^ 26)
    patches := if e.getLsbD 22 then ((s.dev.patches.filter (fun p => p.1 / 1024 == g)).map (fun p => p.1 % 1024)) else [] }

/-- A CR of the job is bound to a front (09 R174), or runs on it. -/
def State.boundTo (s : State) (ks : List Nat) (f : Nat) : Bool :=
  s.running.any (fun r => r.1 == f && ks.contains (regionKey r.2.ctx r.2.cr.region)) ||
  s.dev.saves.any (fun e => e.2.front == f && e.2.run.bound && ks.contains (regionKey e.2.run.ctx e.2.run.cr.region))

/-- The image of a job as it stands. -/
def State.imageOf (s : State) (ctx region : Nat) : Image :=
  let ks := s.jobKeys ctx region
  let granules := (s.dev.vpm.filter (fun e => e.2.getLsbD (48 + ctx))).map (fun e => s.granuleRecord e.1 e.2)
  { ctx := ctx, region := region
    fronts := (s.running.filter (fun r => ks.contains (regionKey r.2.ctx r.2.cr.region))).map (fun r => (r.1, s.frontRecord r.1))
    saves := s.dev.saves.filter (fun e =>
      ks.contains (regionKey e.2.run.ctx e.2.run.cr.region) &&
      (s.regionAt (regionKey e.2.run.ctx e.2.run.cr.region)).ready.any (fun c => c.save == e.1))
    regions := s.regions.filter (fun e => ks.contains e.1)
    deficits := s.dev.deficits.map (fun d => (d.1, d.2.filter (fun e => ks.contains e.1)))
    chains := (s.fronts.map (fun e => (e.1, s.chainsOf ctx ks e.1))).filter (fun e =>
      e.2.chain.any (fun c => !c.2.isEmpty) || e.2.shadows.any (fun c => !c.2.isEmpty) || s.boundTo ks e.1)
    tickets := s.dev.tickets.filter (fun t => ks.contains (regionKey t.2.ctx t.2.region))
    views := s.dev.views.filter (fun v => v.2.live && v.2.ctx == ctx)
    patches := s.dev.patches.filter (fun p => granules.any (fun g => g.index == p.1 / 1024))
    regs := s.ctxAt ctx
    granules := granules }

/-! The bytes of an image -/

/-- Zeros up to a multiple of 4,096 bytes. -/
def padded (bs : List Byte) : List Byte := bs ++ List.replicate ((4096 - bs.length % 4096) % 4096) 0

/-- A front or save-area record: its length, the CR, its state. -/
def Save.record (A : Save) : List Byte :=
  let body := A.run.cr.bytes ++ Config.crLayout A
  padded (toBytes 8 (8 + body.length) ++ body)

/-- A granule record. -/
def Granule.record (g : Granule) : List Byte :=
  let data :=
    if g.entry.getLsbD 22 then
      toBytes 128 ((g.patches.map (fun p => 2 ^ p)).foldl (· + ·) 0) ++
      g.patches.flatMap (fun p => g.data.bytes (65536 * p) 65536)
    else g.data.bytes 0 (2 ^ 26)
  padded (toBytes 8 g.index ++ toBytes 8 g.entry.toNat ++ data)

/-- The front records, the save-area records, the granule records. -/
def Image.frontPart (i : Image) : List Byte := i.fronts.flatMap (fun f => f.2.record)
def Image.savePart (i : Image) : List Byte := i.saves.flatMap (fun f => f.2.record)
def Image.granulePart (i : Image) : List Byte := i.granules.flatMap Granule.record

/-- Every byte of an image after its header. -/
def Image.body (i : Image) : List Byte := i.frontPart ++ i.savePart ++ padded (Config.deviceLayout i) ++ i.granulePart

/-- The header of 4,096 bytes. -/
def Image.header (i : Image) : List Byte :=
  let save := 4096 + i.frontPart.length
  let dev := save + i.savePart.length
  padded (toBytes 4 1 ++ toBytes 2 i.ctx ++ toBytes 2 i.region ++ toBytes 8 i.fronts.length ++ toBytes 8 i.saves.length ++
    toBytes 8 i.granules.length ++ toBytes 8 4096 ++ toBytes 8 save ++ toBytes 8 dev ++
    toBytes 8 (Config.deviceLayout i).length ++ toBytes 8 (dev + (padded (Config.deviceLayout i)).length) ++
    (toBytes 32 (sha256 i.body).toNat).reverse)

/-- The bytes that a checkpoint streams. -/
def Image.bytes (i : Image) : List Byte := i.header ++ i.body

/-! CHECKPOINT (R271) -/

/-- R271, R268: a port mask other than four of each die gives STATUS 2. The job is frozen, and its image as of this step
streams until CHECKPOINT_ACKNOWLEDGED; STATUS stays pending. -/
def execCheckpoint (s : State) : Host.Outcome State Fault Refusal :=
  match s.nextRequest with
  | none => .next s
  | some (k, v) =>
    if s.requestOf v = 6 then
      if goodPorts (slotA0 v) then
        let s := s.taken
        let s := s.freezeKeys (s.jobKeys (slotCtx v) (slotRegion v))
        .next { s with dev := { s.dev with
          streaming := some ⟨k, (slotA1 v).toNat, s.imageOf (slotCtx v) (slotRegion v), s.cycle⟩ } }
      else .next (s.taken.reply k 2 0)
    else .next s

/-- Bytes of a granule that have been written since the stream began are undefined in the image. -/
def State.disturbed (s : State) (since : Nat) (g : Granule) : Granule :=
  let k := granuleKey g.index g.entry
  let late := s.order.cycles.filter (fun e => k ≤ e.1 && e.1 < k + 2 ^ 26 && !(s.order.marks.get [] e.1).isEmpty && since < e.2)
  { g with data := late.foldl (fun d e => Table.set 0 d (e.1 - k) (Config.freeByte s.cycle e.1)) g.data }

/-- R271: the safe tier holds the image, and STATUS 1 is written. -/
def execCheckpointAcknowledged (s : State) : Host.Outcome State Fault Refusal :=
  match s.dev.streaming with
  | none => .next s
  | some t =>
    let i := { t.image with granules := t.image.granules.map (s.disturbed t.since) }
    let images := (t.base, i) :: s.dev.images.filter (fun e => e.1 != t.base)
    .next ({ s with dev := { s.dev with streaming := none, images := images } }.reply t.slot 1 0)

/-! RESTORE (R273) -/

/-- The regions of an image that are rebuilt: in one context, under their ids. Of regions of several contexts that share an id, that
of the image's own context comes back, else that of the lowest (DESIGN CHOICE: R273 does not say; log entry 71). -/
def Image.kept (i : Image) : List (Nat × Region) :=
  (i.regions.filter (fun e => e.1 / 65536 == i.ctx) ++ i.regions.filter (fun e => e.1 / 65536 != i.ctx)).foldl
    (fun l e => if l.any (fun x => x.1 % 65536 == e.1 % 65536) then l else l ++ [e]) []

/-- A CR, command or ticket belongs to a region that is rebuilt. -/
def Image.keeps (i : Image) (ctx region : Nat) : Bool := i.kept.any (fun e => e.1 == regionKey ctx region)

/-- An ACTIVE region whose parent does not come back is a root region where it comes back (DESIGN CHOICE: R273 does not say; log entry
71). -/
def Image.topmost (i : Image) (e : Nat × Region) : Bool :=
  e.2.status == 1 && (e.2.parent == 0 || !i.kept.any (fun x => x.1 % 65536 == e.2.parent && x.2.status == 1))

/-- The root regions that an image restores. -/
def Image.roots (i : Image) : List (Nat × Region) := i.kept.filter i.topmost

/-- What an image's CRs ask of the save pool: units of each die, and areas. -/
def Image.areas (i : Image) : List Save := (i.fronts ++ i.saves).map (fun e => e.2)
def Image.units (i : Image) (die : Nat) : Nat :=
  (i.areas.map (fun A => if die = 0 then A.units0 else A.units1)).foldl (· + ·) 0

/-- A C = 0 granule's frame is taken, or a C = 1 granule's patches exceed what its stack has left beside those of the granules
before it. -/
def State.granuleTaken (s : State) (before : List Granule) (g : Granule) : Bool :=
  let stack := g.entry.extractLsb' 14 3
  if g.entry.getLsbD 22 then
    let same := before.filter (fun b => b.entry.getLsbD 22 && b.entry.extractLsb' 14 3 == stack)
    1024 * s.dev.pool < s.stackUsed stack.toNat + (same.flatMap (fun b => b.patches)).length + g.patches.length
  else
    1430 ≤ (g.entry.extractLsb' 0 11).toNat + s.dev.pool + s.dev.savePool ||
    s.dev.vpm.any (fun e => e.2.getLsbD 23 && !e.2.getLsbD 22 && e.2.extractLsb' 14 3 == stack &&
      e.2.extractLsb' 0 11 == g.entry.extractLsb' 0 11)

/-- The first granule that cannot be placed. -/
def State.firstTaken (s : State) (before : List Granule) : List Granule → Option Nat
  | [] => none
  | g :: gs => if s.granuleTaken before g then some g.index else State.firstTaken s (g :: before) gs

/-- Context `ctx` holds an ACTIVE region, a live view or a live ticket. -/
def State.occupied (s : State) (ctx : Nat) : Bool :=
  !(s.activeOf ctx).isEmpty || s.dev.views.any (fun v => v.2.live && v.2.ctx == ctx) ||
  s.dev.tickets.any (fun t => t.2.live && t.2.ctx == ctx)

/-- The budget that the restored root regions carve. -/
def State.budgetShort (s : State) (ctx : Nat) (i : Image) : Bool :=
  let C := s.ctxAt ctx
  C.qentries.toNat < carved Region.qentries i.roots || C.scratch.toNat < carved Region.scratch i.roots ||
  C.tiles.toNat < carved Region.tiles i.roots

/-- The first failure of R273's table, as RESULT; none where every check passes. -/
def State.restoreFailure (s : State) (ctx : Nat) (mask : Word) (i : Image) : Option Nat :=
  if s.occupied ctx then some 2
  else
    match s.firstTaken [] i.granules with
    | some g => some (3 + 65536 * g)
    | none =>
      if s.poolUnits < s.unitsUsed 0 + i.units 0 ∨ s.poolUnits < s.unitsUsed 1 + i.units 1 ∨
          4096 < s.dev.saves.length + i.areas.length then some 4
      else if s.budgetShort ctx i then some 5
      else if goodPorts mask = false then some 6
      else none

/-- Place a granule: its data, and its entry with CTX alone in CTXMASK. -/
def State.placeGranule (s : State) (ctx : Nat) (g : Granule) : State :=
  let k := granuleKey g.index g.entry
  let mem := g.data.foldl (fun m e => Table.set 0 m (k + e.1) e.2) (s.mem.clear k (k + 2 ^ 26))
  let entry := (1#16 <<< ctx) ++ g.entry.extractLsb' 0 48
  { s with
    mem := mem, order := { s.order with
      marks := s.order.marks.clear k (k + 2 ^ 26), cycles := s.order.cycles.clear k (k + 2 ^ 26) }
    dev := { s.dev with
      vpm := s.dev.vpm.set 0 g.index entry, poison := s.dev.poison.filter (fun p => !(k ≤ p && p < k + 2 ^ 26)) } }

/-- Numbers for the image's save areas: each keeps its own where that is free. -/
def assignAreas (t : Table Save) : List (Nat × Save) → List (Nat × Nat)
  | [] => []
  | (k, A) :: l =>
    let n := if k ≠ 0 ∧ t.any (fun e => e.1 == k) = false then k else freeArea t (t.length + 1) 1
    (k, n) :: assignAreas (Table.set {} t n A) l

/-- A number's new one. -/
def newNumber (m : List (Nat × Nat)) (k : Nat) : Nat := ((m.find? (fun e => e.1 == k)).map (fun e => e.2)).getD k

/-- What changes its number where an image comes back: its save areas, its tickets, its views. -/
structure Renames where
  areas : List (Nat × Nat)
  tickets : List (Nat × Nat)
  views : List (Nat × Nat)

/-- The numbers of an image's tickets or views: each keeps its own, but where another context's stands there (log entry 71). -/
def assignKeys {α : Type} [Inhabited α] [DecidableEq α] (taken : α → Bool) (by_ : Nat) (t : Table α) :
    List (Nat × α) → List (Nat × Nat)
  | [] => []
  | (k, x) :: l =>
    let n := if taken (t.get default k) then spareKey t by_ (t.length + 1) (k + by_) else k
    (k, n) :: assignKeys taken by_ (Table.set default t n x) l

/-- The numbers that the image's things get. -/
def State.renames (s : State) (i : Image) : Renames :=
  { areas := assignAreas s.dev.saves (i.saves.filter (fun e => i.keeps e.2.run.ctx e.2.run.cr.region))
    tickets := assignKeys (fun (T : Ticket) => T.live || T.owing) 256 s.dev.tickets (i.tickets.filter (fun t => i.keeps t.2.ctx t.2.region))
    views := assignKeys (fun (v : View) => v.live) 1048576 s.dev.views i.views }

/-- A CR in its new place. -/
def CR.moved (c : CR) (m : Renames) : CR :=
  { c with save := if c.save = 0 then 0 else newNumber m.areas c.save, ticket := newNumber m.tickets c.ticket }

/-- A save area in its new context: its CR resumes as after abort pre-emption (R253). -/
def Save.moved (A : Save) (ctx off id : Nat) (m : Renames) : Save :=
  let c := { A.run.cr with save := id, ticket := newNumber m.tickets A.run.cr.ticket }
  { A with
    run := { A.run with ctx := ctx, serial := A.run.serial + off, cr := c }, sameGrant := false, cause := Cause.preempt
    sorus := A.sorus.map (fun e => (e.1, { e.2 with ctx := ctx })) }

/-- A region in its new place: frozen, and, where it is `top`, a root region. -/
def Region.moved (R : Region) (launches : Nat) (top : Bool) (m : Renames) : Region :=
  { R with
    parent := if top then 0 else R.parent, frozen := true, order := R.order + launches, ready := R.ready.map (fun c => c.moved m)
    parked := R.parked.map (fun c => c.moved m), held := R.held.map (fun c => c.moved m) }

/-- A ticket in its new place. -/
def Ticket.moved (T : Ticket) (ctx : Nat) (m : Renames) : Ticket :=
  { T with ctx := ctx, parent := newNumber m.tickets T.parent, image := T.image.moved m }

/-- A command's region stands `launches` places further in the order of launches. -/
def Cmd.launched (c : Cmd) (launches : Nat) : Cmd := { c with launch := c.launch + launches }

/-- A command in its new context: a fault whose trap had been delivered is delivered again. Its swatches and tile are those of its
CR, which gets them as it comes back, and it waits for that; where the CR has ended, they are entries from `sw` and `ti` up. -/
def Cmd.moved (c : Cmd) (ctx off : Nat) (m : Renames) (owner : Option Run) (sw ti : Nat) : Cmd :=
  let c : Cmd := { c with
    ctx := ctx, serial := c.serial + off, ticket := newNumber m.tickets c.ticket
    phase := if c.phase = .delivered then .faulted else c.phase
    skipTrap := if c.skipTrap = .delivered then .faulted else c.skipTrap }
  match owner with
  | some r =>
    { c with
      away := !(c.srcs.isEmpty && c.dsts.isEmpty && c.tile.isNone), srcs := c.srcs.map (fun k => r.swatches.idxOf k)
      dsts := c.dsts.map (fun k => r.swatches.idxOf k), tile := c.tile.map (fun k => r.tiles.idxOf k) }
  | none => { c with srcs := c.srcs.map (sw + ·), dsts := c.dsts.map (sw + ·), tile := c.tile.map (ti + ·) }

/-- The number that the last command of a chain brings. -/
def Front.lastSeq (F : Front) (k : Nat) : Nat := (F.seq.get 0 k).toNat + (F.chain.get [] k).length

/-- Restored commands behind those of a chain, the last of which brings number `last`; a follow-on names its copy by that one's new
number, from `copies` up. -/
def renumbered (last copies : Nat) (old : List Cmd) (cs : List Cmd) : List Cmd :=
  cs.zipIdx.map (fun x => { x.1 with
    seq := last + 1 + x.2
    copySeq := if x.1.follow then ((old.findIdx? (fun o => o.seq == x.1.copySeq)).map (copies + 1 + ·)).getD 0 else 0 })

/-- The chains of a front behind those that it has: the context sees the numbers of its image, and the front's own go on. -/
def Front.takeChains (F : Front) (x : Chains) (ctx : Nat) (move : Cmd → Cmd) : Front :=
  let copies := F.lastSeq 0
  [0, 1, 2].foldl (fun F k =>
    { F with
      own := F.own.set none (3 * ctx + k) (some (x.seq.get 0 k))
      chain := F.chain.set [] k (F.chain.get [] k ++ renumbered (F.lastSeq k) copies (x.chain.get [] 0) ((x.chain.get [] k).map move))
      shadows := F.shadows.set [] k (F.shadows.get [] k ++ (x.shadows.get [] k).map move) }) F

/-- The first multiple of `unit` above every number of a table. -/
def pastKeys {α : Type} (t : Table α) (unit : Nat) : Nat := unit * (1 + (t.map (fun e => e.1)).foldl max 0 / unit)

/-- A core with the tiles and descriptors of commands whose CRs have ended, at entries that no CR sees. -/
def Core.withLoose (C : Core) (x : Chains) (sw ti : Nat) : Core :=
  { C with
    swatches := x.swatches.foldl (fun t e => Table.set {} t (sw + e.1) { e.2 with serial := 0 }) C.swatches
    tiles := x.tiles.foldl (fun t e => Table.set {} t (ti + e.1) { e.2 with front := 256 }) C.tiles }

/-- Restore the commands of a front. -/
def State.restoreChains (s : State) (i : Image) (ctx off launches : Nat) (m : Renames) (e : Nat × Chains) : State :=
  let C := s.coreAt (e.1 / 2)
  let sw := pastKeys C.swatches 64
  let ti := pastKeys C.tiles 8
  let mine := fun (l : List Cmd) => l.filter (fun c => i.keeps c.ctx c.region)
  let x := { e.2 with
    chain := e.2.chain.map (fun y => (y.1, mine y.2)), shadows := e.2.shadows.map (fun y => (y.1, mine y.2)) }
  let owner := fun (c : Cmd) => (i.fronts.find? (fun y => y.2.run.serial == c.serial)).map (fun y => y.2.run)
  (s.setCoreAt (e.1 / 2) (C.withLoose x sw ti)).setFrontAt e.1
    ((s.frontAt e.1).takeChains x ctx (fun c => (c.moved ctx off m (owner c) sw ti).launched launches))

/-- The serial numbers of an image's CRs. -/
def Image.lastSerial (i : Image) : Nat := (i.areas.map (fun A => A.run.serial)).foldl max 0

/-- Add an image's coverage counts. -/
def addPatches (t : Table Nat) : Table Nat → Table Nat
  | [] => t
  | (k, n) :: l => addPatches (t.set 0 k (t.get 0 k + n)) l

/-- Move an image's tables into the device's. -/
def Dev.restored (d : Dev) (i : Image) (ctx off : Nat) (m : Renames) : Dev :=
  let saves := i.saves.filter (fun e => i.keeps e.2.run.ctx e.2.run.cr.region)
  let tickets := i.tickets.filter (fun t => i.keeps t.2.ctx t.2.region)
  { d with
    saves := saves.foldl (fun t e => Table.set {} t (newNumber m.areas e.1) (e.2.moved ctx off (newNumber m.areas e.1) m)) d.saves
    tickets := tickets.foldl (fun t e => Table.set {} t (newNumber m.tickets e.1) (e.2.moved ctx m)) d.tickets
    views := i.views.foldl (fun t e => Table.set {} t (newNumber m.views e.1) { e.2 with ctx := ctx }) d.views
    patches := addPatches d.patches i.patches
    deficits := i.deficits.foldl (fun t x =>
      Table.set [] t x.1 (x.2.foldl (fun u e =>
        if i.kept.any (fun r => r.1 == e.1) then Table.set 0 u (regionKey ctx (e.1 % 65536)) e.2 else u) (Table.get [] t x.1))) d.deficits
    serials := off + i.lastSerial
    launches := d.launches + (i.kept.map (fun e => e.2.order + 1)).foldl max 0 }

/-- Put the CR of a front record back as one that is pre-empted. -/
def State.restoreFront (s : State) (ctx off : Nat) (m : Renames) (A : Save) : State :=
  let id := freeArea s.dev.saves (s.dev.saves.length + 1) 1
  let B := A.moved ctx off id m
  { s with dev := { s.dev with saves := s.dev.saves.set {} id B } }.pushHead (regionKey ctx B.run.cr.region) B.run.cr

/-- Rebuild an image's jobs in a context; all of them frozen. -/
def State.rebuild (s : State) (ctx : Nat) (i : Image) : State :=
  let off := s.dev.serials
  let launches := s.dev.launches
  let m := s.renames i
  let s := i.granules.foldl (fun s g => s.placeGranule ctx g) s
  let C := s.ctxAt ctx
  let s := s.setCtxAt ctx { i.regs with qentries := C.qentries, scratch := C.scratch, tiles := C.tiles }
  let s := i.kept.foldl (fun s e => s.setRegionAt (regionKey ctx (e.1 % 65536)) (e.2.moved launches (i.topmost e) m)) s
  let s := (i.roots.filter (fun e => e.2.parent != 0)).foldl (fun s e => s.writeFields ctx e.2.rcb [(0, 2, 0)]) s
  let s := { s with dev := s.dev.restored i ctx off m }
  let s := i.chains.foldl (fun s e => s.restoreChains i ctx off launches m e) s
  (i.fronts.filter (fun e => i.keeps e.2.run.ctx e.2.run.cr.region)).foldr (fun e s => s.restoreFront ctx off m e.2) s

/-- R273, R268. What stands at A1 is an image that a checkpoint streamed there whole, or nothing that its digest matches. -/
def execRestore (s : State) :=
  request 10 (fun s v =>
    match s.dev.images.find? (fun e => e.1 == (slotA1 v).toNat) with
    | none => (2, 1, s)
    | some (_, i) =>
      match s.restoreFailure (slotCtx v) (slotA0 v) i with
      | some r => (2, r, s)
      | none => (1, 0, s.rebuild (slotCtx v) i)) s

end Sys2Proof.Machine
end

