-- ==== Sys2Proof/Machine/StripFam.lean ====
section
/-! DEFINITION. The STRIP group, SETVT and WAITV with the steps that end their waits (04 R54-R57, R70-R79; 08 R162-R165;
11 R219; 18 R378, R379; 20 R432, R465). -/

namespace Sys2Proof.Machine

/-! The SETVL forms (R72, R378) -/

/-- Run an instruction that begins a strip and takes its checkpoint before it acts. -/
def beginning (i : Instr) (early body : M Unit) (s : State) : Host.Outcome State Fault Refusal :=
  match early s with
  | .error e => .next (halt i s e)
  | .ok (_, s) =>
    match commitStrip s with
    | .error e => .next (halt i s e)
    | .ok s1 => plain i body (checkpoint s1)

/-- Set vl. -/
def putVl (n : Nat) : M Unit := updateRegs (fun r => { r with vl := BitVec.ofNat 16 n })

/-- Set vl and X[d]. -/
def putLength (d : Reg) (n : Nat) : M Unit := do
  putX d (BitVec.ofNat 64 n)
  putVl n

/-- R378; with A = 0 the execute hart takes the vl of lq0's head (R66). -/
def execSetvl (p : Bool) (a d : Reg) (s : State) :=
  beginning (.setvl p a d) (pure ())
    (do
      let t ← look id
      if t.isExec ∧ a = 0 then
        match t.front.lq.get [] 0 with
        | [] => stop (.wait (.head 0))
        | e :: _ => putLength d (min e.vl t.vlmax)
      else do
        sources [.x p a]
        let u ← getX a
        putLength d (min u.toNat t.vlmax)) s

/-- SETVLW's wait (R163): one read of the watermark, an ordinary event under a ticket too (12 R234), synchronising where it
satisfies. -/
def awaitMark (va need : Nat) : M Unit := do
  let ps ← scalarPieces .read va 8
  match ps with
  | [] => pure ()
  | p :: _ => do
    update (fun s => { s with order := s.order.acquire s.agent p.key })
    let v ← readWord va p
    if need ≤ v then update (fun s => { s with order := s.order.release s.ctx s.agent p.key false }) else stop (.wait .setvlw)

/-- R378. -/
def execSetvlw (p q : Bool) (b a d : Reg) (s : State) :=
  beginning (.setvlw p q b a d) (notExec (.setvlw p q b a d))
    (do
      sources [.x p a, .x q b]
      let u ← getX a
      let v ← getX b
      let t ← look id
      let vl := min u.toNat t.vlmax
      if vl = 0 then pure () else awaitMark v.toNat (t.regs.wmbase.toNat + vl)
      putLength d vl
      updateRegs (fun r => { r with wmbase := r.wmbase + BitVec.ofNat 64 vl })) s

/-- R378, R219. -/
def execSetvlre (p q : Bool) (b a d : Reg) (s : State) :=
  beginning (.setvlre p q b a d) (pure ())
    (do
      sources [.x p a, .x q b]
      let u ← getX a
      let v ← getX b
      let t ← look id
      let vl := min u.toNat t.vlmax
      let k := t.hart.kvblk.toNat
      putLength d (if k = 0 then vl else min vl (k - v.toNat % k))) s

/-- R163: a read of the watermark satisfies the SETVLW that the current hart waits in. -/
def execSetvlwSatisfied (s : State) : Host.Outcome State Fault Refusal :=
  match s.hart.wait, s.hart.waitInstr with
  | .setvlw, some (.setvlw p q b a d) => execSetvlw p q b a d s
  | _, _ => .next s

/-- A wait of the current hart has lasted `stallmax` cycles (08 R164). -/
def State.stalled (s : State) : Bool :=
  let limit := (s.ctxAt s.ctx).stallmax.toNat
  limit != 0 && decide (limit ≤ s.cycle - s.hart.waitFrom)

/-- R163: the SETVLW that the current hart waits in traps WMSTALL. -/
def execWmstall (s : State) : Host.Outcome State Fault Refusal :=
  match s.hart.wait, s.hart.waitInstr with
  | .setvlw, some (.setvlw _ _ b _ _) =>
    if s.stalled then .next (takeTrap s Cause.wmstall (s.regs.getX b).toNat s.regs.pc false) else .next s
  | _, _ => .next s

/-! SETVT (R55, R379) -/

/-- The new vtype of SETVT is one that it traps on (R55). -/
def badVtype (v : BitVec 9) : Bool :=
  let sew := (v.extractLsb' 0 3).toNat
  let fmt := (v.extractLsb' 3 2).toNat
  decide (4 < sew) || (if sew = 1 ∨ sew = 2 then decide (1 < fmt) else fmt != 0)

/-- R379. -/
def execSetvt (v : BitVec 9) (s : State) :=
  plain (.setvt v) (do
    illegalIf (.setvt v) (badVtype v)
    updateRegs (fun r => { r with vtype := v })
    let t ← look id
    putVl (min t.regs.vl.toNat t.vlmax)) s

/-! VLOOP (R78, R79, R432) -/

/-- The base register of a vector memory instruction, and its stride register. -/
def memRegs : Instr → Option (Reg × Option Reg)
  | .vld _ _ _ _ _ _ a _ => some (a, none)
  | .vlds _ _ _ _ _ _ b a _ => some (a, some b)
  | .vst _ _ _ _ _ a _ => some (a, none)
  | .vsts _ _ _ _ _ b a _ => some (a, some b)
  | .vldq _ _ _ _ a _ => some (a, none)
  | .vstq _ _ _ _ a _ => some (a, none)
  | _ => none

/-- An instruction that VLOOP may capture: 32 bits, major opcode 0x20-0x2E, no x register written. -/
def capturable (i : Instr) : Bool :=
  match encodeFields i with
  | none => false
  | some F =>
    decide (0x20 ≤ F.op.toNat ∧ F.op.toNat ≤ 0x2E) &&
    (match i with | .vpopc .. => false | .vfirst .. => false | _ => true)

/-- The `n` instructions from `va` up as VLOOP captures them; a halfword that cannot be fetched traps at its instruction,
and what does not decode is `none`. -/
def State.captured (s : State) (va : Nat) : Nat → Except Stop (List (Option Instr))
  | 0 => .ok []
  | n + 1 =>
    match s.fetchHalves 2 va with
    | .error (c, at_) => .error (.trapAt c at_ (BitVec.ofNat 64 va))
    | .ok bs =>
      match State.captured s (va + 4) n with
      | .error e => .error e
      | .ok l =>
        let i := match decode bs with | .ok (i, _) => some i | .error _ => none
        .ok (i :: l)

/-- The captured memory instructions' registers. -/
def capturedMem (l : List (Option Instr)) : List (Reg × Option Reg) := l.filterMap (fun i => i.bind memRegs)

/-- A captured sequence that R78 forbids. -/
def badCapture (r : Regs) (a : Reg) (l : List (Option Instr)) : Bool :=
  let ms := capturedMem l
  !l.all (fun i => match i with | some i => capturable i | none => false) ||
  (r.sewCode == 0 && !ms.isEmpty) ||
  decide ((ms.map (fun m => m.1)).eraseDups.length < ms.length) ||
  ms.any (fun m => m.1 == a || m.2 == some a)

/-- `loopi` (R79). -/
def loopWord (act : Bool) (cnt vcap done : Nat) : Word :=
  BitVec.ofBool act ++ 0#10 ++ BitVec.ofNat 5 cnt ++ BitVec.ofNat 16 vcap ++ BitVec.ofNat 32 done

/-- Fields of `loopi`. -/
def Regs.loopAct (r : Regs) : Bool := r.loopi.getLsbD 63
def Regs.loopCap (r : Regs) : Nat := (r.loopi.extractLsb' 32 16).toNat
def Regs.loopDone (r : Regs) : Nat := (r.loopi.extractLsb' 0 32).toNat

/-- The base registers advance at the end of an iteration. -/
def advanceBases (r : Regs) : List (Reg × Option Reg) → Regs
  | [] => r
  | (b, st) :: ms =>
    let step : Word := match st with
      | none => BitVec.ofNat 64 (r.vl.toNat * (r.sew / 8))
      | some k => BitVec.ofNat 64 r.vl.toNat * r.getX k
    advanceBases (if b = 0 then r else { r with x := r.x.set 0 b.toNat (r.getX b + step) }) ms

/-- The end of an iteration: bases advance and DONE counts its elements. -/
def Regs.endIteration (r : Regs) (n : Nat) (ms : List (Reg × Option Reg)) : Regs :=
  let r' := advanceBases r ms
  { r' with loopi := loopWord true n r.loopCap (r.loopDone + r.vl.toNat), loop := none }

/-- The strip so far commits and the checkpoint is taken. -/
def freshStrip : M Unit := fun s =>
  match commitStrip s with
  | .ok s' => .ok ((), checkpoint s')
  | .error e => .error e

/-- R432: one visit of VLOOP. The captured instructions run at their own addresses, and after the last of them the hart
comes back to the VLOOP (log entry 30). -/
def execVloop (p : Bool) (a n : Reg) (s : State) :=
  jumping (.vloop p a n) (do
    let t ← look id
    let k := n.toNat
    illegalIf (.vloop p a n) (k = 0 || 16 < k)
    let l ← (match t.captured (t.regs.pc.toNat + 4) k with | .ok l => pure l | .error e => stop e)
    illegalIf (.vloop p a n) (badCapture t.regs a l)
    sources [.x p a]
    let u ← getX a
    illegalIf (.vloop p a n) (2 ^ 32 ≤ u.toNat || (!t.regs.loopAct && t.regs.vl == 0 && u != 0))
    updateRegs (fun r =>
      if r.loop = some r.pc then r.endIteration k (capturedMem l)
      else if r.loopAct then r
      else { r with loopi := loopWord true k r.vl.toNat 0 })
    let t ← look id
    if t.regs.loopDone < u.toNat then do
      freshStrip
      let t ← look id
      putVl (min t.regs.loopCap (min (u.toNat - t.regs.loopDone) t.vlmax))
      updateRegs (fun r => { r with loop := some r.pc })
      pure (t.regs.pc + 4)
    else do
      if u = 0 then putVl 0
      updateRegs (fun r => { r with loopi := loopWord false k r.loopCap r.loopDone })
      pure (t.regs.pc + 4 + BitVec.ofNat 64 (4 * k))) s

/-! WAITV (R165, R465) -/

/-- A flag word, as an ordinary event (12 R234). -/
def readFlag (va : Nat) : M Nat := do
  let s ← look id
  let ps ← orTrapAt (windowPieces s s.ctx .read va 8)
  match ps with
  | [] => pure 0
  | p :: _ => readWord va p

/-- The flag words at the active addresses, read together. -/
def readFlags : List (Option Elem) → M (List Nat)
  | [] => pure []
  | none :: es => do
    let vs ← readFlags es
    pure (0 :: vs)
  | some e :: es => do
    let v ← readFlag e.va
    let vs ← readFlags es
    pure (v :: vs)

/-- The memory keys of the active flags. -/
def flagKeys (s : State) (es : List (Option Elem)) : List Nat :=
  es.filterMap (fun e => match e with
    | some e => (match vectorByte s s.ctx .read e.va with | .ok k => some k | .error _ => none)
    | none => none)

/-- WAITV's check of its flags; `last` completes it with what is unmet. -/
def waitFlags (i : Instr) (last : Bool) (m g : Bool) (b a d : Reg) : M Unit := do
  let t ← look id
  let n := t.regs.grp
  let vl := t.regs.vl.toNat
  let as ← readV i a n 64 vl
  let bs ← readV i b n 64 vl
  let act := t.regs.active m
  let es := activeElems act (as.map (fun va => ({ va := va, n := 8 } : Elem)))
  match es.find? (fun e => match e with | some e => e.va % 8 != 0 | none => false) with
  | some (some e) => trap Cause.misalign e.va
  | _ => pure ()
  probe .read false es
  let keys := flagKeys t es
  let before := t.order
  update (fun s => { s with order := keys.foldl (fun o k => o.acquire s.agent k) s.order })
  let fs ← readFlags es
  let unmet := (fs.zip bs).map (fun x => if g then decide (x.1 < x.2) else x.1 != x.2)
  let bad := (act.zip unmet).any (fun x => x.1 && x.2)
  if bad && !last then stop (.wait .waitv)
  else
    update (fun s => { s with order := if bad then before else keys.foldl (fun o k => o.release s.ctx s.agent k false) s.order })
  putGroup i d n 64 (outsOf act (fun j => .put (if unmet.getD j false then 1 else 0))) true

/-- WAITV as executed, or as its time runs out. -/
def waitVector (last : Bool) (p q m g : Bool) (b a d : Reg) (s : State) : Host.Outcome State Fault Refusal :=
  vectorPlain (.waitv p q m g b a d)
    (do
      notExec (.waitv p q m g b a d)
      legal (.waitv p q m g b a d) (grps 1 [a, b, d]) (fun r => r.sewCode != 4))
    (do
      let t ← look id
      sources [.v p a t.regs.grp, .v q b t.regs.grp]
      waitFlags (.waitv p q m g b a d) last m g b a d) s

/-- R465. -/
def execWaitv (p q m g : Bool) (b a d : Reg) (s : State) := waitVector false p q m g b a d s

/-- R165: a line that holds an active flag has been written, and the WAITV that the current hart sleeps in checks again. -/
def execWaitvWake (s : State) : Host.Outcome State Fault Refusal :=
  match s.hart.wait, s.hart.waitInstr with
  | .waitv, some (.waitv p q m g b a d) => waitVector false p q m g b a d s
  | _, _ => .next s

/-- R165: the WAITV that the current hart sleeps in has lasted `stallmax` cycles. -/
def execWaitvTimeout (s : State) : Host.Outcome State Fault Refusal :=
  match s.hart.wait, s.hart.waitInstr with
  | .waitv, some (.waitv p q m g b a d) => if s.stalled then waitVector true p q m g b a d s else .next s
  | _, _ => .next s

end Sys2Proof.Machine
end

