-- ==== Sys2Proof/Machine/Engine.lean ====
section
/-! DEFINITION. The engines (09 R168-R187; 10 R212, R215; 08 R157-R160; 13 R248; 17 R338-R341): EISSUE, EWAIT, ESEQ and EPUB,
and the steps that run commands, complete them and deliver their faults. -/

namespace Sys2Proof.Machine

/-! EISSUE (R170, R338) -/

/-- A selector above 2 traps ILLEGAL (R169; 15 R282, step 4). -/
def selectorIllegal (i : Instr) (u : Word) : M Unit := illegalIf i (decide (2 < u.toNat))

/-- Records of 8 elements of 64 bits. -/
def recordsOf : Nat → List Nat → List (BitVec 512)
  | 0, _ => []
  | n + 1, l => BitVec.ofNat 512 (packElems 64 (l.take 8)) :: recordsOf n (l.drop 8)

/-- Active records, by index. -/
def activeRecords (r : Regs) (m : Bool) (l : List (BitVec 512)) : List (Nat × BitVec 512) :=
  ((l.zipIdx).filter (fun x => !m || r.mbit 0 x.2)).map (fun x => (x.2, x.1))

/-- R234: a completion record of selector 1 outside the ticket's output ranges. -/
def recordsInTicket : List (Nat × BitVec 512) → M Unit
  | [] => pure ()
  | (_, r) :: l => do
    if matComp r = 0 then pure () else checkTicketStoreAt (matComp r)
    recordsInTicket l
where
  /-- The 16 bytes of a completion record lie in one ticket's ranges. -/
  checkTicketStoreAt (va : Nat) : M Unit := do
    let s ← look id
    trapIf (!(List.range 16).all (fun k => (s.ticketAt s.ticket).outputs (va + k))) Cause.specst va

/-- Check records in ascending order. -/
def checkRecords (sel : Nat) : List (Nat × BitVec 512) → M Unit
  | [] => pure ()
  | (i, r) :: l => do
    checkRecord sel i r
    checkRecords sel l

/-- Admit records up to the first refusal: the indices accepted. -/
def acceptAll (s : State) (sel : Nat) : List (Nat × BitVec 512) → List Nat × State
  | [] => ([], s)
  | (i, r) :: l =>
    match s.accept sel r with
    | none => ([], s)
    | some s' => (i :: (acceptAll s' sel l).1, (acceptAll s' sel l).2)

/-- The engines' agents of the commands that a front has gained since `old` (R170: in the order of their numbers). -/
def newAgents (old new : Front) (f : Nat) : List Nat :=
  [0, 1, 2].flatMap (fun e =>
    ((new.chain.get [] e).drop (old.chain.get [] e).length).map (fun c => engineAgent f e c.seq))

/-- Admit records; what they read follows every earlier access of the hart (R157). -/
def State.issue (s : State) (sel : Nat) (l : List (Nat × BitVec 512)) : List Nat × State :=
  let r := acceptAll s sel l
  let o := (newAgents s.front r.2.front s.fid).foldl (fun o h => o.handOver s.agent h) s.order
  (r.1, { r.2 with order := o })

/-- R338. -/
def execEissue (p q m : Bool) (b a : Reg) (k : BitVec 3) (s : State) :=
  irrevocable (.eissue p q m b a k)
    (do
      notExec (.eissue p q m b a k)
      legal (.eissue p q m b a k) (fun r => [(b, r.grp)]) (fun r => r.sewCode != 4 || r.vl.toNat % 8 != 0))
    (do
      let t ← look id
      sources [.x p a, .v q b t.regs.grp]
      let u ← getX a
      selectorIllegal (.eissue p q m b a k) u
      afterQueues
      let sel := u.toNat
      let n := t.regs.vl.toNat / 8
      let els ← readV (.eissue p q m b a k) b t.regs.grp 64 (8 * n)
      let recs := activeRecords t.regs m (recordsOf n els)
      if t.ticket ≠ 0 then
        trapIf (sel != 1) Cause.specst 0
        recordsInTicket recs
      checkRecords sel recs
      let t ← look id
      let r := t.issue sel recs
      update (fun _ => r.2)
      if r.1 ≠ [] then updateRun (fun x => { x with bound := true })
      updateRegs (fun g => { g with m := g.m.set 0 k.toNat (BitVec.ofNat 32768 (applyWrites 1 0 (r.1.map (fun i => (i, 1))))) })) s

/-! ESEQ, EWAIT, EPUB (R172, R173, R339-R341) -/

/-- The sequence number of the current front on an engine. -/
def State.seqOf (s : State) (sel : Nat) : Word := s.front.seqFor s.ctx sel

/-- The current hart observes its front's sequence number. -/
def observeEngine (sel : Nat) : M Unit :=
  update (fun t => { t with order := t.order.observeAt t.ctx t.agent (seqKey t.fid sel) })

/-- R340. -/
def execEseq (p : Bool) (a d : Reg) (s : State) :=
  plain (.eseq p a d) (do
    notExec (.eseq p a d)
    sources [.x p a]
    let u ← getX a
    selectorIllegal (.eseq p a d) u
    let t ← look id
    observeEngine u.toNat
    fillX d (t.seqOf u.toNat)) s

/-- EWAIT as executed and as its wait ends (R341). -/
def awaitEngine (p q : Bool) (b a : Reg) : State → Host.Outcome State Fault Refusal :=
  plain (.ewait p q b a) do
    notExec (.ewait p q b a)
    sources [.x p a, .x q b]
    let u ← getX a
    selectorIllegal (.ewait p q b a) u
    let v ← getX b
    let t ← look id
    waitIf ((t.seqOf u.toNat).ult v) .ewait
    observeEngine u.toNat

/-- R341. -/
def execEwait (p q : Bool) (b a : Reg) (s : State) := awaitEngine p q b a s

/-- R172: the number that the current hart's EWAIT waits for is reached. -/
def execEwaitReached (s : State) : Host.Outcome State Fault Refusal :=
  match s.hart.wait, s.hart.waitInstr with
  | .ewait, some (.ewait p q b a) => awaitEngine p q b a s
  | _, _ => .next s

/-- The bytes of shadows by window address, in the order of their commands: each under its command's context. -/
def shadowBytes (cs : List Cmd) : List (Nat × Nat × Byte) :=
  cs.flatMap (fun c => if c.published then [] else c.shadow.map (fun e => (c.ctx, e)))

/-- Write shadowed bytes where they translate when they are published (07 R128; log entry 77), as parts of one write of `size` bytes
of agent `g`. -/
def State.writeShadows (s : State) (g size : Nat) : List (Nat × Nat × Byte) → State
  | [] => s
  | (ctx, e) :: l => State.writeShadows (s.publishBytes ctx g size [e]) g size l

/-- Publish the shadows of the current front on an engine up to a target (R160). -/
def State.publishShadows (s : State) (sel : Nat) (target : Word) : State :=
  let F := s.front
  let cs := F.shadows.get [] sel
  let due := cs.filter (fun c => decide (c.label ≤ target.toNat))
  let bytes := shadowBytes due
  let s := s.setFront { F with shadows := F.shadows.set [] sel (cs.filter (fun c => !decide (c.label ≤ target.toNat))) }
  let s := s.writeShadows s.agent bytes.length bytes
  { s with order := s.order.publish s.ctx s.agent }

/-- EPUB under a ticket: logged, as an irrevocable instruction (R173). -/
def logPublication (p q : Bool) (b a : Reg) : State → Host.Outcome State Fault Refusal :=
  irrevocable (.epub p q b a)
    (notExec (.epub p q b a))
    (do
      sources [.x p a, .x q b]
      let u ← getX a
      selectorIllegal (.epub p q b a) u
      afterQueues
      let v ← getX b
      let t ← look id
      logEffect (.epub t.fid u.toNat v))

/-- EPUB as executed and as its wait ends: outside a ticket it commits the strip so far and takes no checkpoint after
itself (R173, R339). -/
def publication (p q : Bool) (b a : Reg) (s : State) : Host.Outcome State Fault Refusal :=
  if s.ticket ≠ 0 then logPublication p q b a s
  else
    beginning (.epub p q b a)
      (notExec (.epub p q b a))
      (do
        sources [.x p a, .x q b]
        let u ← getX a
        selectorIllegal (.epub p q b a) u
        afterQueues
        let v ← getX b
        let t ← look id
        waitIf ((t.seqOf u.toNat).ult v) .epub
        update (fun t => t.publishShadows u.toNat v)) s

/-- R339. -/
def execEpub (p q : Bool) (b a : Reg) (s : State) := publication p q b a s

/-- R160: the number that the current hart's EPUB waits for is reached. -/
def execEpubPublish (s : State) : Host.Outcome State Fault Refusal :=
  match s.hart.wait, s.hart.waitInstr with
  | .epub, some (.epub p q b a) => publication p q b a s
  | _, _ => .next s

/-! Commands of a chain -/

/-- A command of a front. -/
def State.cmdAt (s : State) (f sel k : Nat) : Option Cmd := ((s.frontAt f).chain.get [] sel)[k]?

/-- Write it back. -/
def State.putCmd (s : State) (f sel k : Nat) (c : Cmd) : State :=
  let F := s.frontAt f
  s.setFrontAt f { F with chain := F.chain.set [] sel ((F.chain.get [] sel).set k c) }

/-- No hart takes its faults (R174). -/
def Cmd.gone (c : Cmd) : Bool := c.orphaned || !c.owned

/-- It has started and not ended. -/
def Cmd.running (c : Cmd) : Bool := c.phase != .waiting && c.phase != .finished && !c.complete && !c.away

/-- FREEZE stops a command of its job (13 R259). -/
def State.frozenCmd (s : State) (c : Cmd) : Bool := c.owned && (s.regionAt (regionKey c.ctx c.region)).frozen

/-- A command may work now: every earlier one has started (R182), its copy has come (R187), and FREEZE does not stop it. -/
def State.mayWork (s : State) (f sel k : Nat) (c : Cmd) : Bool :=
  (c.phase == .waiting || c.phase == .running) && c.started && !c.dropped && !c.away &&
  (((s.frontAt f).chain.get [] sel).take k).all (fun e => e.phase != .waiting) &&
  !s.frozenCmd c

/-! Accesses (R178) -/

/-- A range of an operand: local, base, bytes. -/
abbrev Range := Bool × Nat × Nat

/-- The range of an operand of a copy record. -/
def operandRange (a n : Nat) : Range := if isLocal a then (true, localAddr a, n) else (false, a, n)

/-- What a command reads: of a listed COPY each segment's bytes, and a ROT's table; its list and its completion record are no operands
(DESIGN CHOICE: R178 does not say; log entry 78). -/
def State.cmdReads (s : State) (f sel : Nat) (c : Cmd) : List Range :=
  let r := c.raw
  let sw (k off : Nat) : Range := (true, ((s.coreAt (f / 2)).swatches.get {} k).base.toNat + off, matCount r * matUnit r)
  if sel = 0 then
    (if c.payload.isSome then []
      else if copyListed r then c.sources.zipIdx.map (fun x => (false, x.1, min (segBytes r) (copyDstBytes r - x.2 * segBytes r)))
      else if copyOp r = 1 then [] else [operandRange (copySrc r) (copySrcBytes r)]) ++
    (if copyOp r = 3 then [(false, rotTable r, 8 * rotPeriod r)] else [])
  else if sel = 1 then (c.srcs.zipIdx).map (fun x => sw x.1 (if x.2 = 0 then matAoff r else matBoff r))
  else (rhizExtents r).take 2 |>.map (fun x => (false, x.1, x.2))

/-- What it writes. -/
def State.cmdWrites (s : State) (f sel : Nat) (c : Cmd) : List Range :=
  let r := c.raw
  if sel = 0 then [operandRange (copyDst r) (copyDstBytes r)]
  else if sel = 1 then
    c.dsts.map (fun k => (true, ((s.coreAt (f / 2)).swatches.get {} k).base.toNat + matAoff r, matCount r * 512))
  else [(false, rhizY r, rhizM r * rhizBlocks r * 4)]

/-- A byte lies in a range. -/
def inRange (loc : Bool) (a : Nat) (r : Range) : Bool := r.1 == loc && decide (r.2.1 ≤ a ∧ a < r.2.1 + r.2.2)

/-- The operands of the running commands of a front but one. -/
def State.othersOperands (s : State) (f sel k : Nat) : List Range :=
  [0, 1, 2].flatMap (fun e =>
    (((s.frontAt f).chain.get [] e).zipIdx).flatMap (fun x =>
      if (e = sel ∧ x.2 = k) ∨ x.1.running = false then [] else s.cmdReads f e x.1 ++ s.cmdWrites f e x.1))

/-- Where a command works: front, engine and place in the chain. -/
structure Site where
  f : Nat
  sel : Nat
  k : Nat
  /-- The sequence number that the command's completion makes the front's number. -/
  seq : Nat
  deriving DecidableEq, Repr

/-- The agent number of the engine in this command. -/
def Site.agent (e : Site) : Nat := engineAgent e.f e.sel e.seq

/-- The site of a command of a chain. -/
def Cmd.site (c : Cmd) (f sel k : Nat) : Site := ⟨f, sel, k, c.seq⟩

/-- Bytes of a copy's destination as they land: undefined where the destination overlaps the command's source or an
operand of another running command (R178). -/
def State.blurred (s : State) (e : Site) (c : Cmd) (a : Nat) (bs : List Byte) : List Byte :=
  let rs := s.cmdReads e.f e.sel c ++ s.othersOperands e.f e.sel e.k
  let loc := isLocal a
  let base := if loc then localAddr a else a
  (bs.zipIdx).map (fun x => if rs.any (inRange loc (base + x.2)) then Config.freeByte s.cycle (a + x.2) else x.1)

/-- Read the pieces of a window range. -/
def State.readPieces (s : State) (ctx g size : Nat) : List Piece → Except (Nat × Nat) (List Byte)
  | [] => .ok []
  | p :: ps =>
    match s.readMem ctx g size p.key p.len with
    | .error c => .error (c, p.va)
    | .ok bs =>
      match State.readPieces s ctx g size ps with
      | .error x => .error x
      | .ok l => .ok (bs ++ l)

/-- Write the pieces of a window range. -/
def State.writePieces (s : State) (ctx g size : Nat) : List Piece → List Byte → Except (Nat × Nat) State
  | [], _ => .ok s
  | p :: ps, bs =>
    match s.writeMem ctx g size p.key (bs.take p.len) with
    | .error c => .error (c, p.va)
    | .ok s' => State.writePieces s' ctx g size ps (bs.drop p.len)

/-- A command's read of `n` bytes by accesses of `size`: cause and address where it fails. `win`: a window address
whatever its bit 63. -/
def State.engineRead (s : State) (e : Site) (c : Cmd) (win : Bool) (a size n : Nat) : Except (Nat × Nat) (List Byte) :=
  if isLocal a && !win then .ok ((s.coreAt (e.f / 2)).scratch.bytes (localAddr a) n)
  else
    match windowPieces s c.ctx .read a n with
    | .error x => .error x
    | .ok ps => s.readPieces c.ctx e.agent size ps

/-- Put bytes into a command's shadow, from window address `a` up. -/
def shadowWith (sh : Memory) (a : Nat) (bs : List Byte) : Memory :=
  bs.zipIdx.foldl (fun t x => (Table.erase t (a + x.2)).insert (a + x.2) x.1) sh

/-- A command's write. -/
def State.engineWrite (s : State) (e : Site) (c : Cmd) (shd : Bool) (a size : Nat) (bs : List Byte) :
    Except (Nat × Nat) (State × Cmd) :=
  if isLocal a then .ok (s.setScratch (e.f / 2) (localAddr a) bs, c)
  else
    match windowPieces s c.ctx .write a bs.length with
    | .error x => .error x
    | .ok ps =>
      if shd then .ok (s, if c.published then c else { c with shadow := shadowWith c.shadow a bs })
      else
        match s.writePieces c.ctx e.agent size ps bs with
        | .error x => .error x
        | .ok s' => .ok (s', c)

/-! Units of a copy (R177-R180) -/

/-- How far work has come: the next position, and the failure that stopped it (cause and address). -/
structure Ran where
  s : State
  c : Cmd
  next : Nat
  fail : Option (Nat × Nat)

/-- Write destination bytes at position `p`. -/
def State.deliver (s : State) (e : Site) (c : Cmd) (p size : Nat) (bs : List Byte) : Ran :=
  let a := copyDst c.raw + p
  match s.engineWrite e c (copyShd c.raw) a size (s.blurred e c a bs) with
  | .ok (s', c') => ⟨s', c', p + bs.length, none⟩
  | .error x => ⟨s, c, p, some x⟩

/-- Write bytes of accesses of `size` one by one, up to the first that fails; `fail` is what stops the work after them. -/
def State.deliverBytes (s : State) (e : Site) (c : Cmd) (p size : Nat) (fail : Option (Nat × Nat)) : List Byte → Ran
  | [] => ⟨s, c, p, fail⟩
  | b :: bs =>
    match s.deliver e c p size [b] with
    | ⟨s', c', _, none⟩ => State.deliverBytes s' e c' (p + 1) size fail bs
    | x => x

/-- The source address of position `p`. -/
def Cmd.source (c : Cmd) (p : Nat) : Nat :=
  if copyListed c.raw then c.sources.getD (p / segBytes c.raw) 0 + p % segBytes c.raw else copySrc c.raw + p

/-- The positions whose source bytes form one range with `p`: a segment of a listed copy or of skip-and-return, else all
(R178). -/
def Cmd.sourceRange (c : Cmd) (p : Nat) : Nat × Nat :=
  let r := c.raw
  if copyListed r || copySkip r then
    (p / segBytes r * segBytes r, min ((p / segBytes r + 1) * segBytes r) (copyDstBytes r))
  else (0, copyDstBytes r)

/-- One source byte: the aligned word that holds it is read whole where the source range covers it, and kept. -/
def State.readSource (s : State) (e : Site) (c : Cmd) (p : Nat) : Except (Nat × Nat) (Byte × Cmd) :=
  let a := c.source p
  let (lo, hi) := c.sourceRange p
  let w := a / 8 * 8
  let (w, n) := if a - w ≤ p - lo ∧ w + 8 ≤ a + (hi - p) then (w, 8) else (a, 1)
  match c.kept with
  | some (w', bs) =>
    if w' = w ∧ bs.length = n then .ok (bs.getD (a - w) 0, c) else fresh a w n
  | none => fresh a w n
where
  /-- A read of the word. -/
  fresh (a w n : Nat) : Except (Nat × Nat) (Byte × Cmd) :=
    match s.engineRead e c (copyListed c.raw) w n n with
    | .error (x, _) => .error (x, a)
    | .ok bs => .ok (bs.getD (a - w) 0, { c with kept := some (w, bs) })

/-- One source byte, of the source or of what travelled (14 R270). -/
def State.sourceByte (s : State) (e : Site) (c : Cmd) (p : Nat) : Except (Nat × Nat) (Byte × Cmd) :=
  match c.payload with
  | some bs => .ok (bs.getD p 0, c)
  | none => s.readSource e c p

/-- Source bytes from position `p` up, to the first that fails. -/
def State.sourceBytes (s : State) (e : Site) (c : Cmd) (p : Nat) : Nat → List Byte × Cmd × Option (Nat × Nat)
  | 0 => ([], c, none)
  | n + 1 =>
    match s.sourceByte e c p with
    | .error x => ([], c, some x)
    | .ok (b, c') =>
      let (bs, c'', x) := State.sourceBytes s e c' (p + 1) n
      (b :: bs, c'', x)

/-- One destination access of a COPY from position `p`, before position `hi`. Where the source and the destination of a byte both fail,
the source's failure is reported (DESIGN CHOICE: R183 does not say; log entry 79). -/
def State.copyUnit (s : State) (e : Site) (c : Cmd) (p hi : Nat) : Ran :=
  let n := if (copyDst c.raw + p) % 8 = 0 ∧ p + 8 ≤ hi then 8 else 1
  match s.sourceBytes e c p n with
  | (bs, c', none) => s.deliver e c' p n bs
  | (bs, c', some x) => s.deliverBytes e c' p 1 (some x) bs

/-- One destination access of a FILL. -/
def State.fillUnit (s : State) (e : Site) (c : Cmd) (p hi : Nat) : Ran :=
  let n := if (copyDst c.raw + p) % 8 = 0 ∧ p + 8 ≤ hi then 8 else 1
  s.deliver e c p n ((List.range n).map (fun j => BitVec.ofNat 8 (copyParam c.raw / 2 ^ (8 * ((p + j) % 8)))))

/-- `n` elements from element `i` of the source of the unit that holds position `p`, to the first that fails. -/
def State.unitSource (s : State) (e : Site) (c : Cmd) (p : Nat) : Nat → Nat → List Nat × Option (Nat × Nat)
  | _, 0 => ([], none)
  | i, n + 1 =>
    let r := c.raw
    let w := codeWidth (copySfmt r)
    let lo := i * w / 8
    let len := ((i + 1) * w + 7) / 8 - lo
    let at_ := p / dstUnit r * srcUnit r + lo
    let got : Except (Nat × Nat) (List Byte) := match c.payload with
      | some bs => .ok ((bs.drop at_).take len)
      | none => s.engineRead e c false (copySrc r + at_) (accessBytes (copySfmt r)) len
    match got with
    | .error x => ([], some x)
    | .ok bs =>
      let (l, x) := State.unitSource s e c p (i + 1) n
      (ofBytes bs / 2 ^ (i * w - 8 * lo) % 2 ^ w :: l, x)

/-- Write the outputs of the unit that holds position `p`, from its element `i` up, to before its byte `m`: with FF or SKIP all or
nothing (R184, R185), else up to the first byte that fails (R183). `fail` is what stops the work at byte `m`. The flags are
those of the elements written. -/
def State.deliverOuts (s : State) (e : Site) (c : Cmd) (p i m : Nat) (fail : Option (Nat × Nat)) (outs : List (Nat × Flags)) : Ran :=
  let w := codeWidth (copyDfmt c.raw)
  let g := dstUnit c.raw
  let q := p % g
  let size := accessBytes (copyDfmt c.raw)
  let bs := ((toBytes g (packElems w (outs.map (fun o => o.1)) * 2 ^ (i * w))).take m).drop q
  let r : Ran :=
    if copyFF c.raw || copySkip c.raw then (if fail.isSome then ⟨s, c, p, fail⟩ else s.deliver e c p size bs)
    else s.deliverBytes e c p size fail bs
  let fl := (outs.zipIdx).foldl (fun f o => if p < r.next ∧ (i + o.2) * w < 8 * (q + (r.next - p)) then f ||| o.1.2 else f) r.c.flags
  { r with c := { r.c with flags := fl } }

/-- A conversion's destination by format code. -/
def codeDst (k : Nat) : CvtDst :=
  match cvtSrc k with
  | some (.float f) => .float f
  | some (.taper n) => .taper n
  | some (.int sg w) => .int sg w
  | none => .float f32

/-- One unit of a CVT (R179), or what is left of it. -/
def State.cvtUnit (s : State) (e : Site) (c : Cmd) (p : Nat) : Ran :=
  let r := c.raw
  let w := codeWidth (copyDfmt r)
  let i := 8 * (p % dstUnit r) / w
  let (vs, fail) := s.unitSource e c p i (unitElems r - i)
  let src := (cvtSrc (copySfmt r)).getD (.float f32)
  let outs := vs.map (fun v => src.convert (codeDst (copyDfmt r)) (copyRm r) v)
  s.deliverOuts e c p i (if fail.isSome then (i + vs.length) * w / 8 else dstUnit r) fail outs

/-- a·c ± b·s, both products exact, rounded to F32 and then to a format (R180). -/
def rotate (f : Fmt) (minus : Bool) (a c b d : Fp) : Nat × Flags :=
  let p := a.times c
  let q := b.times d
  let t := p.1.plus (if minus then q.1.opposite else q.1)
  let y := f32.ofFp rne t.1
  let z := f.ofFp rne (f32.decode y.1)
  (z.1, p.2 ||| q.2 ||| t.2 ||| y.2 ||| z.2)

/-- One pair of a ROT, or what is left of it. -/
def State.rotUnit (s : State) (e : Site) (c : Cmd) (p : Nat) : Ran :=
  let r := c.raw
  let t := p / dstUnit r % rotPeriod r
  match s.unitSource e c p 0 2, s.engineRead e c true (rotTable r + 8 * t) 4 8 with
  | (_, some x), _ => ⟨s, c, p, some x⟩
  | _, .error x => ⟨s, c, p, some x⟩
  | (vs, none), .ok tb =>
    let f := versionFmt (copySfmt r)
    let x := f.decode (vs.getD 0 0)
    let y := f.decode (vs.getD 1 0)
    let co := f32.decode (ofBytes (tb.take 4))
    let si := f32.decode (ofBytes (tb.drop 4))
    s.deliverOuts e c p 0 (dstUnit r) none [rotate f true x co y si, rotate f false x si y co]

/-- One unit of a copy command, by its operation. -/
def State.unit (s : State) (e : Site) (c : Cmd) (p hi : Nat) : Ran :=
  match copyOp c.raw with
  | 0 => s.copyUnit e c p hi
  | 1 => s.fillUnit e c p hi
  | 2 => s.cvtUnit e c p
  | _ => s.rotUnit e c p

/-- Units from position `p` to before `hi`, `n` at most. -/
def State.units (s : State) (e : Site) (c : Cmd) (p hi : Nat) : Nat → Ran
  | 0 => ⟨s, c, p, none⟩
  | n + 1 =>
    if hi ≤ p then ⟨s, c, p, none⟩
    else
      match s.unit e c p hi with
      | ⟨s', c', p', none⟩ => State.units s'.gaugeReads e c' p' hi n
      | x => x

/-! Faults (R183-R185, R174) -/

/-- A command that has failed at its position, with a cause at an address. -/
def Cmd.failed (c : Cmd) (sel cause addr : Nat) : Cmd :=
  let c := { c with kept := none }
  if sel = 2 ∧ cause = Cause.engine then { c with phase := .finished, status := 0x1B }
  else if sel = 0 ∧ copyFF c.raw ∧ 0 < c.pos then { c with phase := .finished, status := BitVec.ofNat 8 (0x80 + cause) }
  else if c.gone ∨ c.trapped.contains (addr / 2 ^ 26) then { c with phase := .finished, status := BitVec.ofNat 8 cause }
  else
    { c with phase := .faulted, trapped := addr / 2 ^ 26 :: c.trapped, failAddr := BitVec.ofNat 64 addr, failCause := cause }

/-! Starting (R177, R178) -/

/-- The part of a range that another overlaps. -/
def meetRange (a b : Range) : Option Range :=
  let lo := max a.2.1 b.2.1
  let hi := min (a.2.1 + a.2.2) (b.2.1 + b.2.2)
  if a.1 = b.1 ∧ lo < hi then some (a.1, lo, hi - lo) else none

/-- Undefined bytes into a part of a running copy's destination. -/
def State.blurRange (s : State) (e : Site) (c : Cmd) (r : Range) : State :=
  let bs := (List.range r.2.2).map (fun j => Config.freeByte s.cycle (r.2.1 + j))
  if r.1 then s.setScratch (e.f / 2) r.2.1 bs
  else
    match windowPieces s c.ctx .write r.2.1 r.2.2 with
    | .error _ => s
    | .ok ps =>
      if copyShd c.raw then s.putCmd e.f e.sel e.k { c with shadow := shadowWith c.shadow r.2.1 bs }
      else s.forcePieces c.ctx e.agent 1 ps bs

/-- The written bytes of running copies that a starting command's operands overlap become undefined (R178). -/
def State.blurOthers (s : State) (e : Site) (c : Cmd) : State :=
  let rs := s.cmdReads e.f e.sel c ++ s.cmdWrites e.f e.sel c
  (((s.frontAt e.f).chain.get [] 0).zipIdx).foldl (fun s x =>
    if x.1.running ∧ ¬ (e.sel = 0 ∧ x.2 = e.k) then
      let done := operandRange (copyDst x.1.raw) (if copySkip x.1.raw then copyDstBytes x.1.raw else x.1.pos)
      (rs.filterMap (meetRange done)).foldl (fun s r => s.blurRange (x.1.site e.f 0 x.2) ((s.cmdAt e.f 0 x.2).getD x.1) r) s
    else s) s

/-- Dwords of a list of bytes. -/
def dwordsOf : Nat → List Byte → List Nat
  | 0, _ => []
  | n + 1, bs => ofBytes (bs.take 8) :: dwordsOf n (bs.drop 8)

/-- A copy starts: a listed one reads its list, and its operands are then those that the list names. -/
def State.startCopy (s : State) (e : Site) (c : Cmd) : Ran :=
  let s := if c.phase = .waiting then s.blurOthers e c else s
  let c := { c with phase := .running }
  if copyListed c.raw ∧ c.loaded = false ∧ c.payload = none then
    match s.engineRead e c true (copyParam c.raw) 8 (8 * segCount c.raw) with
    | .error x => ⟨s, c, c.pos, some x⟩
    | .ok bs =>
      let c := { c with loaded := true, sources := dwordsOf (segCount c.raw) bs }
      ⟨s.blurOthers e c, c, c.pos, none⟩
  else ⟨s, { c with loaded := true }, c.pos, none⟩

/-! Plain copies -/

/-- Up to `n` units of a copy without SKIP. -/
def State.plainCopy (s : State) (e : Site) (c : Cmd) (n : Nat) : State :=
  let r := s.units e c c.pos (copyDstBytes c.raw) n
  let c := { r.c with pos := r.next, done := r.next }
  let c :=
    match r.fail with
    | some (x, a) => c.failed e.sel x a
    | none => if copyDstBytes c.raw ≤ c.pos then { c with phase := .finished, status := 0, kept := none } else c
  r.s.putCmd e.f e.sel e.k c

/-! Skip-and-return (R185, R186) -/

/-- A range of an operand translates for an access. -/
def State.translates (s : State) (c : Cmd) (acc : Acc) (win : Bool) (a n : Nat) : Except (Nat × Nat) Unit :=
  if isLocal a && !win then .ok ()
  else
    match windowPieces s c.ctx acc a n with
    | .ok _ => .ok ()
    | .error x => .error x

/-- Every source and destination byte of a segment translates. Where both fail, the destination's failure is reported (DESIGN CHOICE:
R185 does not say; log entry 79). -/
def State.segReady (s : State) (c : Cmd) (k : Nat) : Except (Nat × Nat) Unit :=
  let r := c.raw
  let (lo, hi) := segSpan r k
  match s.translates c .write false (copyDst r + lo) (hi - lo) with
  | .error x => .error x
  | .ok _ =>
    if c.payload.isSome then .ok ()
    else if copyOp r = 0 then s.translates c .read (copyListed r) (c.source lo) (hi - lo)
    else if copyOp r = 1 then .ok ()
    else s.translates c .read false (copySrc r + lo / dstUnit r * srcUnit r) ((hi - lo) / dstUnit r * srcUnit r)

/-- Deliver segment `k`: its bytes, then DEL, then NDEL; nothing where it fails. One whose DEL or NDEL cannot be written fails and is
skipped whole (DESIGN CHOICE: R186 does not say; log entry 79). -/
def State.segment (s : State) (e : Site) (c : Cmd) (k : Nat) : Except (Nat × Nat) (State × Cmd) :=
  match s.segReady c k with
  | .error x => .error x
  | .ok _ =>
    let (lo, hi) := segSpan c.raw k
    match s.units e { c with kept := none } lo hi (hi - lo + 1) with
    | ⟨_, _, _, some x⟩ => .error x
    | ⟨s1, c1, _, none⟩ =>
      let j := c.delivered
      match s1.engineWrite e c1 false (copyComp c.raw + 24 + 8 * j) 8 (toBytes 8 k) with
      | .error x => .error x
      | .ok (s2, c2) =>
        match s2.engineWrite e c2 false (copyComp c.raw + 16) 8 (toBytes 8 (j + 1)) with
        | .error x => .error x
        | .ok (s3, c3) => .ok (s3, { c3 with delivered := j + 1, done := c.done + (hi - lo), kept := none })

/-- All segments have been tried and none is left to retry. -/
def Cmd.skipOver (c : Cmd) : Cmd :=
  if segCount c.raw ≤ c.pos ∧ c.skipped = [] then { c with phase := .finished } else c

/-- The first pass over up to `n` segments. -/
def State.skipPass (s : State) (e : Site) (c : Cmd) : Nat → State × Cmd
  | 0 => (s, c)
  | n + 1 =>
    if segCount c.raw ≤ c.pos then (s, c)
    else
      match s.segment e c c.pos with
      | .ok (s', c') => State.skipPass s' e { c' with pos := c.pos + 1 } n
      | .error (x, a) =>
        let first := c.skipTrap == .waiting
        State.skipPass s e { c with
          pos := c.pos + 1, skipped := c.skipped ++ [c.pos]
          skipTrap := if first then (if c.gone then .retry else .faulted) else c.skipTrap
          failAddr := if first then BitVec.ofNat 64 a else c.failAddr
          failCause := if first then x else c.failCause } n

/-- The retries of up to `n` skipped segments. -/
def State.skipRetry (s : State) (e : Site) (c : Cmd) : Nat → State × Cmd
  | 0 => (s, c)
  | n + 1 =>
    match c.skipped with
    | [] => (s, c)
    | k :: ks =>
      match s.segment e c k with
      | .ok (s', c') => State.skipRetry s' e { c' with skipped := ks } n
      | .error (x, _) =>
        State.skipRetry s e { c with skipped := ks, status := if c.status = 0 then BitVec.ofNat 8 x else c.status } n

/-- Work of a copy command: up to `n` units, or segments. -/
def State.workCopy (s : State) (e : Site) (c : Cmd) (n : Nat) : State :=
  match s.startCopy e c with
  | ⟨s, c, _, some (x, a)⟩ => s.putCmd e.f e.sel e.k (c.failed e.sel x a)
  | ⟨s, c, _, none⟩ =>
    if copySkip c.raw then
      let (s, c) := s.skipPass e c n
      s.putCmd e.f e.sel e.k c.skipOver
    else s.plainCopy e c n

/-- The step of one operation of the copy engine: entry `arg.k` of front `arg.front`, `arg.n` units. -/
def copyStep (op : Nat) (s : State) : Host.Outcome State Fault Refusal :=
  let f := s.arg.front % 256
  match s.cmdAt f 0 s.arg.k with
  | none => .next s
  | some c =>
    if copyOp c.raw = op ∧ s.mayWork f 0 s.arg.k c = true then .next (s.workCopy (c.site f 0 s.arg.k) c s.arg.n)
    else .next s

/-- R178. -/
def execCopy (s : State) := copyStep 0 s
/-- R178. -/
def execFill (s : State) := copyStep 1 s
/-- R179. -/
def execCvt (s : State) := copyStep 2 s
/-- R180. -/
def execRot (s : State) := copyStep 3 s

/-! The matrix engine (R212) -/

/-- Local address of step or row `j` in a swatch. -/
def Core.swatchBase (C : Core) (k : Nat) : Nat := (C.swatches.get {} k).base.toNat

/-- The core's tile of a command. -/
def Core.tileFor (C : Core) (c : Cmd) : Tile := C.tiles.get {} (c.tile.getD 8)

/-- Write the cells of a command's tile. -/
def Core.setCells (C : Core) (c : Cmd) (x : BitVec 524288) : Core :=
  { C with tiles := C.tiles.set {} (c.tile.getD 8) { C.tileFor c with cells := x } }

/-- OR of flags. -/
def orFlags (l : List (Nat × Flags)) : Flags := l.foldl (fun f x => f ||| x.2) 0

/-- One K-step of a MACC. -/
def maccUnit (C : Core) (c : Cmd) : Core × Cmd :=
  let r := c.raw
  let n := matUnit r
  let a := ofBytes (C.scratch.bytes (C.swatchBase (c.srcs.getD 0 64) + matAoff r + c.pos * n) n)
  let b := ofBytes (C.scratch.bytes (C.swatchBase (c.srcs.getD 1 64) + matBoff r + c.pos * n) n)
  let x := mopaStep (matFmt r) (matRows r) (matCols r) a b (C.tileFor c).cells
  (C.setCells c x.1, { c with flags := c.flags ||| orFlags x.2 })

/-- One row of an MLOAD. -/
def mloadUnit (C : Core) (c : Cmd) : Core × Cmd :=
  let bs := C.scratch.bytes (C.swatchBase (c.srcs.getD 0 64) + matAoff c.raw + 512 * c.pos) 512
  (C.setCells c (withRow (C.tileFor c).cells c.pos (wordsOf 128 bs)), c)

/-- One row of an MSTORE. -/
def mstoreUnit (C : Core) (c : Cmd) : Core × Cmd :=
  let bs := (List.range 128).flatMap (fun j => toBytes 4 (cellAt (C.tileFor c).cells c.pos j))
  ({ C with scratch := C.scratch.setBytes (C.swatchBase (c.dsts.getD 0 64) + matAoff c.raw + 512 * c.pos) bs }, c)

/-- Up to `n` steps or rows; a tile retired meanwhile ends the command (R209). -/
def matWork (unit : Core → Cmd → Core × Cmd) (C : Core) (c : Cmd) : Nat → Core × Cmd
  | 0 => (C, c)
  | n + 1 =>
    if (C.tileFor c).retired then (C, { c with phase := .finished, status := 0x0F })
    else if matCount c.raw ≤ c.pos then (C, { c with phase := .finished, status := 0 })
    else
      let (C', c') := unit C c
      let c' := { c' with pos := c.pos + 1, done := c.pos + 1 }
      if matCount c.raw ≤ c.pos + 1 then (C', { c' with phase := .finished, status := 0 }) else matWork unit C' c' n

/-- The step of one operation of the matrix engine: the head of front `arg.front`'s chain, `arg.n` steps. -/
def matStep (op : Nat) (unit : Core → Cmd → Core × Cmd) (s : State) : Host.Outcome State Fault Refusal :=
  let f := s.arg.front % 256
  match s.cmdAt f 1 0 with
  | none => .next s
  | some c =>
    if matOp c.raw = op ∧ s.mayWork f 1 0 c = true then
      let s := if c.phase = .waiting then s.blurOthers (c.site f 1 0) c else s
      let (C, c) := matWork unit (s.coreAt (f / 2)) { c with phase := .running } s.arg.n
      .next ((s.setCoreAt (f / 2) C).putCmd f 1 0 c)
    else .next s

/-- R212. -/
def execMacc (s : State) := matStep 0 maccUnit s
/-- R212. -/
def execMload (s : State) := matStep 1 mloadUnit s
/-- R212. -/
def execMstore (s : State) := matStep 2 mstoreUnit s

/-- R187: the follow-on at the head of front `arg.front`'s matrix chain starts once its copy has completed whole, and is
dropped otherwise. -/
def execFollowOnStart (s : State) : Host.Outcome State Fault Refusal :=
  let f := s.arg.front % 256
  match s.cmdAt f 1 0 with
  | none => .next s
  | some c =>
    if c.follow ∧ c.phase = .waiting ∧ s.frozenCmd c = false ∧ c.away = false then
      if c.dropped then .next (s.putCmd f 1 0 { c with phase := .finished, status := 0x40 })
      else if c.started then .next ((s.blurOthers (c.site f 1 0) c).putCmd f 1 0 { c with phase := .running })
      else .next s
    else .next s

/-! Rhizoid (R215) -/

/-- Decode an element of W or x. -/
def rhizDecode (fmt p : Nat) : Fp := if fmt = 0 then bf16.decode p else taperDecode 8 p

/-- One block of a row: the partial sum as a 32-bit pattern. -/
def blockSum (fmt : Nat) (w x : List Nat) : Nat × Flags :=
  if fmt = 4 then
    let s := (w.zip x).foldl (fun v e => v + intValue true 8 e.1 * intValue true 8 e.2) 0
    ((s % 2 ^ 32).toNat, 0)
  else
    let d := dot ((w.zip x).map (fun e => (rhizDecode fmt e.1, rhizDecode fmt e.2)))
    let r := f32.ofFp rne d.1
    (r.1, d.2 ||| r.2)

/-- The elements of a block: 32 of `n` bytes. -/
def blockElems (n : Nat) (bs : List Byte) : List Nat := elems (8 * n) (ofBytes bs) 32

/-- The input's bytes of block `b`: as read before (R216), or read now. -/
def State.inputBlock (s : State) (e : Site) (c : Cmd) (b : Nat) : Except (Nat × Nat) (List Byte × Cmd) :=
  let n := 32 * rhizSize c.raw
  let a := rhizX c.raw + b * n
  let (w, bs) := c.kept.getD (a, [])
  if w ≤ a ∧ a + n ≤ w + bs.length then .ok ((bs.drop (a - w)).take n, c)
  else
    match s.engineRead e c true a (rhizSize c.raw) n with
    | .error x => .error x
    | .ok l => .ok (l, { c with kept := some (if w + bs.length = a then (w, bs ++ l) else (a, l)) })

/-- One block of a row (R215), the one at the command's position: `y[i*nb + b]`. W's rows follow each other, so W's block and the word
of y stand at that number of blocks. Where it fails, no word from it on is written (09 R183); a failure of x is reported before one
of W (log entry 79). -/
def State.matvecBlock (s : State) (e : Site) (c : Cmd) : Ran :=
  let r := c.raw
  let n := 32 * rhizSize r
  let base := rhizW r + c.pos * n
  match (s.stackFault c.ctx (rhizStack r) base n).filter (fun x => x.1 == Cause.engine) with
  | some x => ⟨s, c, c.pos, some x⟩
  | none =>
    match s.inputBlock e c (c.pos % rhizBlocks r), s.engineRead e c true base (rhizSize r) n with
    | .error x, _ => ⟨s, c, c.pos, some x⟩
    | .ok (_, c), .error x => ⟨s, c, c.pos, some x⟩
    | .ok (xb, c), .ok wb =>
      let v := blockSum (rhizFmt r) (blockElems (rhizSize r) wb) (blockElems (rhizSize r) xb)
      match s.engineWrite e c false (rhizY r + 4 * c.pos) 4 (toBytes 4 v.1) with
      | .error x => ⟨s, c, c.pos, some x⟩
      | .ok (s', c) => ⟨s'.gaugeReads, { c with flags := c.flags ||| v.2 }, c.pos + 1, none⟩

/-- Up to `n` blocks; DONE counts the bytes of y in whole rows (R214). -/
def State.matvecBlocks (s : State) (e : Site) (c : Cmd) : Nat → State
  | 0 => s.putCmd e.f e.sel e.k c
  | n + 1 =>
    match s.matvecBlock e c with
    | ⟨s', c', _, some (x, a)⟩ => s'.putCmd e.f e.sel e.k (c'.failed 2 x a)
    | ⟨s', c', p, none⟩ =>
      let c' := { c' with pos := p, done := p / rhizBlocks c.raw * rhizBlocks c.raw * 4 }
      if rhizM c.raw * rhizBlocks c.raw ≤ p then s'.putCmd e.f e.sel e.k { c' with phase := .finished, status := 0, kept := none }
      else State.matvecBlocks s' e c' n

/-- R215: entry `arg.k` of front `arg.front`'s Rhizoid chain, `arg.n` blocks. -/
def execMatvec (s : State) : Host.Outcome State Fault Refusal :=
  let f := s.arg.front % 256
  match s.cmdAt f 2 s.arg.k with
  | none => .next s
  | some c =>
    let e := c.site f 2 s.arg.k
    if s.mayWork f 2 e.k c then
      let s := if c.phase = .waiting then s.blurOthers e c else s
      .next (s.matvecBlocks e { c with phase := .running } s.arg.n)
    else .next s

/-! COMMAND_COMPLETE (R181, R138, R195, R187) -/

/-- `result` of a completion record. -/
def Cmd.result (c : Cmd) : Nat := c.flags.toNat * 2 ^ 56 + c.status.toNat * 2 ^ 48 + c.done % 2 ^ 48

/-- The words of its completion record: address and value, in the order written. -/
def Cmd.record (c : Cmd) (sel : Nat) : List (Nat × Nat) :=
  let a := c.compAt sel
  (if sel = 0 ∧ copySkip c.raw ∧ c.delivered = 0 then [(a + 16, 0)] else []) ++ [(a, c.result), (a + 8, c.label)]

/-- Write the words of a completion record. -/
def State.writeRecord (s : State) (e : Site) (c : Cmd) : List (Nat × Nat) → Option State
  | [] => some s
  | (a, v) :: l =>
    match s.engineWrite e c false a 8 (toBytes 8 v) with
    | .error _ => none
    | .ok (s', _) => State.writeRecord s'.gaugeReads e c l

/-- Write a completion record: to memory, or to the shadow of the ticket that it was issued under (12 R234); a ticket
that has been squashed or abandoned discards it. -/
def State.putRecord (s : State) (e : Site) (c : Cmd) : Option State :=
  let T := s.ticketAt c.ticket
  if c.compAt e.sel = 0 then some s
  else if c.ticket = 0 ∨ (T.gen = c.ticketGen ∧ T.st = .committed) then s.writeRecord e c (c.record e.sel)
  else if T.gen = c.ticketGen ∧ T.live = true then
    some (s.setTicketAt c.ticket ((c.record e.sel).foldl (fun T x => T.shadowed x.1 (toBytes 8 x.2)) T))
  else some s

/-- A swatch that a command leaves: READY, or free where its CR has gone (07 R139). -/
def Swatch.left (w : Swatch) : Swatch := if w.serial = 0 then {} else { w with st := .ready }

/-- A tile that a command leaves. -/
def Tile.left (t : Tile) : Tile :=
  if t.front = 256 then { retired := t.retired } else if t.retired then t else { t with st := .idle }

/-- The follow-on of a copy, as its copy completes. -/
def Cmd.followed (copy : Cmd) (c : Cmd) : Cmd :=
  if c.follow ∧ c.copySeq = copy.seq ∧ c.complete = false then
    if copy.status = 0 then { c with started := true }
    else { c with dropped := true, srcs := exceptOf c.srcs copy.dsts, dsts := exceptOf c.dsts copy.dsts }
  else c

/-- The swatches that a copy leaves: one that its follow-on takes passes on at once. -/
def leaveSwatches (C : Core) (follow : Option Cmd) : List Nat → Core
  | [] => C
  | k :: ks =>
    let w := C.swatches.get {} k
    let w' : Swatch :=
      match follow with
      | some g => if g.srcs.contains k then { w with st := .draining } else if g.dsts.contains k then { w with st := .filling } else w.left
      | none => w.left
    leaveSwatches { C with swatches := C.swatches.set {} k w' } follow ks

/-- The operands of a completing command. -/
def State.leave (s : State) (e : Site) (c : Cmd) : State :=
  let F := s.frontAt e.f
  let ms := F.chain.get [] 1
  let ms' := if e.sel = 0 then ms.map (Cmd.followed c) else ms
  let follow := if e.sel = 0 then ms'.find? (fun g => g.follow && g.copySeq == c.seq && !g.complete) else none
  let s := s.setFrontAt e.f { F with chain := F.chain.set [] 1 ms' }
  let C := leaveSwatches (s.coreAt (e.f / 2)) follow ((c.dsts ++ c.srcs).eraseDups)
  let C := match c.tile with
    | some k => { C with tiles := C.tiles.set {} k (C.tiles.get {} k).left }
    | none => C
  s.setCoreAt (e.f / 2) C

/-- The commands at the head of a chain that have completed. -/
def headDone : List Cmd → List Cmd
  | [] => []
  | c :: cs => if c.complete then c :: headDone cs else []

/-- A context that RESTORE has rebuilt sees its command's number (14 R273). -/
def labelSeen (sel : Nat) (own : Table (Option Word)) (c : Cmd) : Table (Option Word) :=
  if (own.get none (3 * c.ctx + sel)).isSome then own.set none (3 * c.ctx + sel) (some (BitVec.ofNat 64 c.label)) else own

/-- Raise the sequence number over the completed commands at the head of a chain; their shadows wait for an EPUB. -/
def State.riseSeq (s : State) (e : Site) : State :=
  let F := s.frontAt e.f
  let ch := F.chain.get [] e.sel
  let out := headDone ch
  let sh := out.filter (fun c => !c.published && !c.shadow.isEmpty)
  let s := s.setFrontAt e.f { F with
    chain := F.chain.set [] e.sel (ch.drop out.length)
    seq := F.seq.set 0 e.sel (F.seq.get 0 e.sel + BitVec.ofNat 64 out.length), own := out.foldl (labelSeen e.sel) F.own
    shadows := F.shadows.set [] e.sel (F.shadows.get [] e.sel ++ sh) }
  { s with order := out.foldl (fun o c => o.rise e.f e.sel c.seq) s.order }

/-- Complete a command whose record has been written or given up. -/
def State.completeCmd (s : State) (e : Site) (c : Cmd) : State :=
  let s := s.putCmd e.f e.sel e.k { c with complete := true }
  (s.leave e c).riseSeq e

/-- R181: entry `arg.k` of chain `arg.sel` of front `arg.front`, whose work is done. A record that cannot be written makes
the command deliver one ENGINE trap, unless it has before or no hart is there to take it. -/
def execCommandComplete (s : State) : Host.Outcome State Fault Refusal :=
  match s.cmdAt (s.arg.front % 256) (s.arg.sel % 3) s.arg.k with
  | none => .next s
  | some c =>
    let e := c.site (s.arg.front % 256) (s.arg.sel % 3) s.arg.k
    if c.phase = .finished ∧ c.complete = false ∧ s.frozenCmd c = false ∧ c.away = false then
      if c.recordFailed ∧ c.gone = true then .next (s.completeCmd e c)
      else
        match s.putRecord e c with
        | some s' => .next (s'.completeCmd e c)
        | none =>
          if c.recordFailed ∨ c.gone = true then .next (s.completeCmd e c)
          else
            .next (s.putCmd e.f e.sel e.k { c with
              recordFailed := true, phase := .faulted, failAddr := BitVec.ofNat 64 (c.compAt e.sel), failCause := Cause.engine })
    else .next s

/-! ENGINE_RETRY (R183, R185) -/

/-- R183, R185, R181: entry `arg.k` of chain `arg.sel`, whose handler has returned, goes on: it writes its record again,
retries from the failing position, or retries the segments that it skipped. -/
def execEngineRetry (s : State) : Host.Outcome State Fault Refusal :=
  match s.cmdAt (s.arg.front % 256) (s.arg.sel % 3) s.arg.k with
  | none => .next s
  | some c =>
    let e := c.site (s.arg.front % 256) (s.arg.sel % 3) s.arg.k
    if s.frozenCmd c || c.away then .next s
    else if c.phase = .retry then
      if c.recordFailed then .next (s.putCmd e.f e.sel e.k { c with phase := .finished })
      else if e.sel = 0 then .next (s.workCopy e { c with phase := .running } s.arg.n)
      else .next (s.matvecBlocks e { c with phase := .running } s.arg.n)
    else if e.sel = 0 ∧ c.phase = .running ∧ copySkip c.raw ∧ segCount c.raw ≤ c.pos ∧ c.skipTrap = .retry then
      let (s, c) := s.skipRetry e c s.arg.n
      .next (s.putCmd e.f e.sel e.k c.skipOver)
    else .next s

/-! ASYNC_TRAP_DELIVERY (R248, 04 R65) -/

/-- A command's ENGINE trap has been delivered and its handler has not returned. -/
def Cmd.inHandler (c : Cmd) : Bool := c.phase == .delivered || c.skipTrap == .delivered

/-- A command of the CR that front `f` runs waits to deliver a trap to a slot. -/
def Cmd.deliverable (serial : Nat) (sl : Slot) (c : Cmd) : Bool :=
  !c.gone && c.serial == serial && c.slot == sl && (c.phase == .faulted || c.skipTrap == .faulted)

/-- The next command whose ENGINE trap is to be delivered to a slot: its engine and place. One at a time for a front, in
chain order (R183). -/
def State.nextFault (s : State) (f : Nat) (sl : Slot) : Option (Nat × Nat) :=
  let F := s.frontAt f
  if [0, 1, 2].any (fun e => (F.chain.get [] e).any Cmd.inHandler) then none
  else
    [0, 1, 2].findSome? (fun e =>
      ((F.chain.get [] e).findIdx? (Cmd.deliverable F.theRun.serial sl)).map (fun k => (e, k)))

/-- The trap has been delivered. -/
def Cmd.delivers (c : Cmd) : Cmd :=
  if c.phase = .faulted then { c with phase := .delivered } else { c with skipTrap := .delivered }

/-- An asynchronous trap waits for the hart of front `f` at its next instruction boundary (13 R245); for one that runs ahead, until
the queue of the CR before it has drained (04 R81). -/
def State.asyncDue (s : State) (f : Nat) (sl : Slot) : Bool :=
  let F := s.frontAt f
  let h := F.hart sl
  F.run.isSome && F.drain.isNone && h.live && !h.priv && !h.regs.midLoop && !F.frozen && (!h.pend.isEmpty || (s.nextFault f sl).isSome)

/-- R248: the hart of front `arg.front` and slot `arg.slot` takes the asynchronous trap that waits for it: a failed store
of a store queue first, else an engine's. -/
def execAsyncTrapDelivery (s : State) : Host.Outcome State Fault Refusal :=
  let f := s.arg.front % 256
  let sl := s.arg.slot
  let s := { s with fid := f, slot := sl }
  if s.asyncDue f sl then
    match s.hart.pend with
    | p :: ps =>
      let s := s.setHart { s.hart with pend := ps }
      .next (takeTrap s p.cause p.val.toNat s.regs.pc true)
    | [] =>
      match s.nextFault f sl with
      | none => .next s
      | some (e, k) =>
        match s.cmdAt f e k with
        | none => .next s
        | some c =>
          let s := s.putCmd f e k c.delivers
          .next (takeTrapWith s Cause.engine c.failAddr.toNat s.regs.pc true (c.compAt e) c.label)
  else .next s

end Sys2Proof.Machine
end

