-- ==== Sys2Proof/Machine/Firmware.lean ====
section
/-! DEFINITION. The module (14 R274-R278): reset and the boot ROM, recovery, attestation, the thermal trip and the power cap,
and the errors that ECC corrects or does not. -/

namespace Sys2Proof.Machine

/-! Reset and recovery (R274, R275) -/

/-- An image that the boot ROM starts. -/
def accepted (image : List Byte) : Bool :=
  Config.imageVerifies image && Config.fusedMinimum.ule (Config.imageVersion image)

/-- Module reset: every state at its reset value but the flash, what lies outside the module (the safe tier's images, the
records sent), and the model's own agenda and counter; then the boot ROM verifies the image in flash and records its
measurement, or enters recovery. -/
def State.moduleReset (s : State) : State :=
  let image := s.dev.flash
  let dev : Dev := { flash := image, images := s.dev.images, sent := s.dev.sent, msix := s.dev.msix }
  let dev :=
    if accepted image then
      { dev with measurement := sha256 image, secVersion := Config.imageVersion image, recovery := false }
    else { dev with recovery := true }
  { State.reset with dev := dev, cycle := s.cycle, agenda := s.agenda }

/-- R274. -/
def execModuleReset (s : State) : Host.Outcome State Fault Refusal := .next s.moduleReset

/-- The image that RECOVER's host addresses hold: bytes [a, a + n) all lie in windows (R265). -/
def State.hostRange (s : State) (a n : Nat) : Bool := (List.range n).all (fun i => s.hostWindow (a + i))

/-- R275: in recovery, the image of A1 bytes at host address A0, which is `arg.data`. One that fails verification is
REFUSED. -/
def execRecover (s : State) : Host.Outcome State Fault Refusal :=
  match s.nextRequest with
  | none => .next s
  | some (k, v) =>
    if s.requestOf v = 9 then
      let image := s.arg.data.take (slotA1 v).toNat
      if s.hostRange (slotA0 v).toNat (slotA1 v).toNat = false then .next (s.taken.reply k 4 0)
      else if accepted image then .next { s with dev := { s.dev with flash := image } }.moduleReset
      else .next (s.taken.reply k 2 0)
    else .next s

/-! Attestation (R276) -/

/-- R276, R268: the report at A1, over the nonce at A0. -/
def execAttest (s : State) :=
  request 8 (fun s v =>
    let ctx := slotCtx v
    match s.requestRead ctx (slotA0 v).toNat 32 1 with
    | .error c => (4, c, s)
    | .ok nonce =>
      let bs := Config.attestReport s.dev.measurement s.dev.secVersion Config.fusedMinimum Config.serialNumber nonce
      match windowPieces s ctx .write (slotA1 v).toNat bs.length with
      | .error x => (4, x.1, s)
      | .ok _ => (1, 0, (s.hostStore ctx 8 (slotA1 v).toNat none bs).1)) s

/-! Limits (R277) -/

/-- R277: the sensor of die `arg.k` trips: the clocks stop until module reset. -/
def execThermalTrip (s : State) : Host.Outcome State Fault Refusal :=
  let s := s.post 0x86 0 0 (BitVec.ofNat 64 (s.arg.k % 2)) 0
  .next { s with dev := { s.dev with clockStopped := true } }

/-- R277: module power stands above the cap, or no longer does. -/
def execPowerCap (s : State) : Host.Outcome State Fault Refusal :=
  .next { s with dev := { s.dev with clockLowered := s.arg.flag } }

/-! Errors (R278; 04 R60; 10 R209) -/

/-- A slice's error is persistent: uncorrectable, or the second correction at a word within 2^30 cycles. -/
def Core.persistent (C : Core) (cycle slice word : Nat) (fatal : Bool) : Bool :=
  let last := C.lastError.get 0 (2 ^ 24 * slice + word)
  fatal || (last != 0 && cycle + 1 - last ≤ 2 ^ 30)

/-- Count a correction. -/
def Core.correct (C : Core) (cycle slice word : Nat) : Core :=
  { C with
    corrected := C.corrected.set 0 slice (C.corrected.get 0 slice + 1)
    lastError := C.lastError.set 0 (2 ^ 24 * slice + word) (cycle + 1) }

/-- Retire a lane: the bit of `lanemap`, and the event. -/
def State.retireLane (s : State) (core lane : Nat) : State :=
  let C := s.coreAt core
  if C.lanemap.getLsbD lane then s
  else
    (s.setCoreAt core { C with lanemap := C.lanemap ||| (1#64 <<< lane) }).post 0x84 0 0 (BitVec.ofNat 64 core)
      (BitVec.ofNat 64 lane)

/-- Retire a tile: its contents are lost, and the event. -/
def State.retireTile (s : State) (core tile : Nat) : State :=
  let C := s.coreAt core
  let t := C.tiles.get {} tile
  if t.retired then s
  else
    let t' : Tile := { retired := true, fmt := t.fmt, front := t.front, serial := t.serial, uses := t.uses }
    (s.setCoreAt core { C with tiles := C.tiles.set {} tile t' }).post 0x85 0 0 (BitVec.ofNat 64 core) (BitVec.ofNat 64 tile)

/-- R278: an error in `arg.unit`, uncorrectable where `arg.flag`. -/
def execSramError (s : State) : Host.Outcome State Fault Refusal :=
  match s.arg.unit with
  | .lane core lane word =>
    let core := core % 128
    let lane := lane % 64
    let C := s.coreAt core
    let t := if s.arg.flag then s else s.setCoreAt core (C.correct s.cycle lane (word % 2 ^ 24))
    .next (if C.persistent s.cycle lane (word % 2 ^ 24) s.arg.flag then t.retireLane core lane else t)
  | .tile core tile word =>
    let core := core % 128
    let tile := tile % 8
    let C := s.coreAt core
    let t := if s.arg.flag then s else s.setCoreAt core (C.correct s.cycle (64 + tile) (word % 2 ^ 24))
    .next (if C.persistent s.cycle (64 + tile) (word % 2 ^ 24) s.arg.flag then t.retireTile core tile else t)
  | .hbm addr =>
    if s.arg.flag then
      .next (if s.dev.poison.contains addr then s else { s with dev := { s.dev with poison := addr :: s.dev.poison } })
    else
      let row := Config.hbmRow addr
      .next { s with dev := { s.dev with corrected := s.dev.corrected.set 0 row (s.dev.corrected.get 0 row + 1) } }

end Sys2Proof.Machine
end

