-- ==== Sys2Proof/Machine/Run.lean ====
section
/-! DEFINITION. The RUN group (06 R105-R122; 20 R428, R434, R440, R446, R449, R456, R461, R462): sorted runs, their tags
and the seam. -/

namespace Sys2Proof.Machine

/-! Keys (R108) -/

/-- Direction, kind and width of keys. -/
structure KeyOrder where
  desc : Bool := false
  kt : Nat := 0
  kw : Nat := 32
  deriving DecidableEq, Repr

/-- The order map of a pattern. -/
def KeyOrder.ord (o : KeyOrder) (x : Nat) : Nat :=
  let top := 2 ^ (o.kw - 1)
  match o.kt with
  | 0 => if x < top then x + top else x - top
  | 1 => x
  | _ => if x < top then x + top else 2 ^ o.kw - 1 - x

/-- `x` comes earlier in the run's direction. -/
def KeyOrder.before (o : KeyOrder) (x y : Nat) : Bool :=
  if o.desc then decide (o.ord y < o.ord x) else decide (o.ord x < o.ord y)

/-- No element is Before its predecessor. -/
def KeyOrder.sorted (o : KeyOrder) : List Nat → Bool
  | x :: y :: l => !o.before y x && KeyOrder.sorted o (y :: l)
  | _ => true

/-- A key with its payload. -/
abbrev Keyed := Nat × Nat

/-- Put an element before the first that it does not follow: those of equal keys that follow it in index come after. -/
def KeyOrder.insert (o : KeyOrder) (x : Keyed) : List Keyed → List Keyed
  | [] => [x]
  | y :: l => if o.before y.1 x.1 then y :: KeyOrder.insert o x l else x :: y :: l

/-- A stable sort (R114). -/
def KeyOrder.sort (o : KeyOrder) : List Keyed → List Keyed
  | [] => []
  | x :: l => o.insert x (KeyOrder.sort o l)

/-- A stable merge: of equal keys, those of the first list first (R115). -/
def KeyOrder.merge (o : KeyOrder) : List Keyed → List Keyed → List Keyed
  | [], bs => bs
  | a :: as, bs =>
    bs.takeWhile (fun b => o.before b.1 a.1) ++ a :: KeyOrder.merge o as (bs.dropWhile (fun b => o.before b.1 a.1))

/-- SeamCounts (R116). -/
def KeyOrder.seam (o : KeyOrder) (a b : List Nat) : Nat × Nat :=
  match a.getLast?, b.getLast? with
  | none, _ => (0, b.length)
  | _, none => (a.length, 0)
  | some al, some bl =>
    let m := if o.before bl al then bl else al
    (a.countP (fun x => !o.before m x), if al = m then b.countP (fun x => o.before x m) else b.countP (fun x => !o.before m x))

/-- The first element of each set of equal keys (R118). -/
def firsts (seen : List Nat) : List Keyed → List Keyed
  | [] => []
  | x :: l => if seen.contains x.1 then firsts seen l else x :: firsts (x.1 :: seen) l

/-- The bucket of a key (R120). -/
def KeyOrder.bucket (o : KeyOrder) (splitters : List Nat) (x : Nat) : Nat := splitters.countP (fun s => !o.before x s)

/-- Elements in ascending bucket order, and within a bucket in index order: `n` buckets from `k` up. -/
def inBuckets (l : List (Nat × Keyed)) : Nat → Nat → List Keyed
  | 0, _ => []
  | n + 1, k => (l.filter (fun x => x.1 == k)).map (fun x => x.2) ++ inBuckets l n (k + 1)

/-! Tags (R105, R112) -/

/-- Code of a number of registers. -/
def regsCode (n : Nat) : Nat := if n = 1 then 0 else if n = 2 then 1 else if n = 4 then 2 else 3

/-- S and PAY of a tag, and the order of its keys. -/
def tagSorted (t : Word) : Bool := t.getLsbD 31
def tagPay (t : Word) : Bool := t.getLsbD 24
def tagOrder (t : Word) : KeyOrder := ⟨t.getLsbD 30, (t.extractLsb' 28 2).toNat, tagWidth t⟩

/-- The tag of a run. -/
def runTag (o : KeyOrder) (g : Nat) (pay : Bool) (keys : List Nat) : Word :=
  BitVec.ofNat 64 (2 ^ 31 + (if o.desc then 2 ^ 30 else 0) + o.kt % 4 * 2 ^ 28 + (widthCode o.kw - 1) * 2 ^ 26 +
    (if keys.eraseDups.length = keys.length then 2 ^ 25 else 0) + (if pay then 2 ^ 24 else 0) + regsCode g * 2 ^ 16 +
    keys.length % 65536)

/-- The tag that an operand names: none of a queue's (R111). -/
def State.tagOf (s : State) (k : Reg) : Word := if s.isQueue k.toNat then 0 else s.regs.stag.get 0 k.toNat

/-- Registers of a run operand. -/
def runSize (t : Word) : Nat := if tagSorted t then tagRegs t else 1

/-! The shape of the group (R111) -/

/-- An operand: a run, or elements at vl. -/
inductive RunSrc where
  | run (policy : Bool) (k : Reg)
  | data (policy : Bool) (k : Reg)
  deriving DecidableEq, Repr

def RunSrc.reg : RunSrc → Reg
  | .run _ k => k
  | .data _ k => k

def RunSrc.isRun : RunSrc → Bool
  | .run .. => true
  | .data .. => false

/-- Registers of an operand's group. -/
def RunSrc.size (s : State) : RunSrc → Nat
  | .run _ k => if s.isQueue k.toNat then 1 else runSize (s.tagOf k)
  | .data .. => s.regs.grp

/-- As a source. -/
def RunSrc.src (s : State) (x : RunSrc) : Src :=
  match x with
  | .run p k => .v p k (x.size s)
  | .data p k => .v p k s.regs.grp

/-- An operand's group is not one that its hart owns, or is misaligned. -/
def RunSrc.bad (s : State) (x : RunSrc) : Bool :=
  match x with
  | .run _ k => !s.isQueue k.toNat && (32 < k.toNat + x.size s || !s.owns k.toNat (x.size s))
  | .data _ k => s.badGroup k.toNat s.regs.grp

/-- The payload group of a key group is not one that the hart owns (R107, R111). -/
def State.badPayload (s : State) (k n : Nat) : Bool := decide (16 ≤ k) || decide (32 < k + 16 + n) || !s.owns (k + 16) n

/-- What R111 knows of an instruction: destination, registers of its group, operands, those with a payload to read, and
whether vd may be va. -/
structure RunArgs where
  i : Instr
  d : Reg
  srcs : List RunSrc
  /-- Operands whose payloads are read; MODE = 1 of an instruction that carries payloads. -/
  pays : List RunSrc
  pay : Bool
  /-- The destination group is 2 × GRP. -/
  double : Bool := false
  same : Bool := false
  /-- Operands that vd must not overlap: all, but for VRANK the run alone. -/
  apart : List RunSrc

/-- Registers of the destination group. -/
def RunArgs.group (x : RunArgs) (r : Regs) : Nat := if x.double then 2 * r.grp else r.grp

/-- Step 1 of R111: ILLEGAL. With MODE = 1 the key groups that carry a payload must lie below v16: the destination and the operands
whose payloads are read, not VINTER's run b, VPART's splitters or VRANK's groups (DESIGN CHOICE: R111 does not say; log entry 81). -/
def RunArgs.illegal (x : RunArgs) (s : State) : Bool :=
  let d := x.d.toNat
  let n := x.group s.regs
  s.regs.sewCode == 0 || (x.double && s.regs.grp == 8) || s.isQueue d || s.badGroup d n || x.srcs.any (RunSrc.bad s) ||
  (x.pay && (s.badPayload d n || x.pays.any (fun y => s.badPayload y.reg.toNat (y.size s))))

/-- Step 3: GROUPOVL. -/
def RunArgs.overlaps (x : RunArgs) (s : State) : Bool :=
  let n := x.group s.regs
  let dst := (x.d.toNat, n) :: if x.pay then [(x.d.toNat + 16, n)] else []
  let src := x.apart.map (fun y => (y.reg.toNat, y.size s)) ++ x.pays.map (fun y => (y.reg.toNat + 16, y.size s))
  let named := x.same && x.srcs.any (fun y => y.reg == x.d)
  !named && dst.any (fun g => src.any (fun h => s.overlap g.1 g.2 h.1 h.2))

/-- The run operands' tags. -/
def RunArgs.tags (x : RunArgs) (s : State) : List Word := (x.srcs.filter RunSrc.isRun).map (fun y => s.tagOf y.reg)

/-- Step 4: RUNREQ. -/
def RunArgs.untagged (x : RunArgs) (s : State) : Bool :=
  (x.tags s).any (fun t => !tagSorted t) || x.pays.any (fun y => y.isRun && !tagPay (s.tagOf y.reg))

/-- Step 5: RUNMIS. -/
def RunArgs.mismatched (x : RunArgs) (s : State) : Bool :=
  (x.tags s).any (fun t => tagWidth t != s.regs.sew || (x.tags s).any (fun u => tagOrder u != tagOrder t))

/-- The payload operands wait (R111). -/
def RunArgs.waits (x : RunArgs) (s : State) : List Src :=
  x.pays.map (fun y => .v false (y.reg + 16) (y.size s))

/-- The keys of an operand with the payloads to carry: a run's whole length, or vl elements. -/
def RunArgs.read (x : RunArgs) (y : RunSrc) : M (List Keyed) := do
  let s ← look id
  let w := s.regs.sew
  let n := if y.isRun then tagLen (s.tagOf y.reg) else s.regs.vl.toNat
  let ks ← readV x.i y.reg (y.size s) w n
  let ps := if x.pays.contains y then elems w (groupBits s.regs.v s.cap (y.reg.toNat + 16) (y.size s)) n else List.replicate n 0
  pure (ks.zip ps)

/-- Steps 1 to 5 of R111. -/
def RunArgs.check (x : RunArgs) : M Unit := do
  let s ← look id
  illegalIf x.i (x.illegal s)
  sources (x.srcs.map (RunSrc.src s) ++ x.waits s)
  trapIf (x.overlaps s) Cause.groupovl x.i.bits.toNat
  trapIf (x.untagged s) Cause.runreq x.i.bits.toNat
  trapIf (x.mismatched s) Cause.runmis x.i.bits.toNat

/-- Write a result's keys and payloads, the elements after them by the tail policy. -/
def RunArgs.write (x : RunArgs) (l : List Keyed) : M Unit := do
  let s ← look id
  let n := x.group s.regs
  let w := s.regs.sew
  if x.pay then putV x.i (x.d + 16) n w (l.map (fun e => .put e.2))
  putV x.i x.d n w (l.map (fun e => .put e.1))

/-- The result of an instruction: `f` takes the operands' elements. The ILLEGAL of a queue head of another SEW, or of an end entry (04
R64), comes as the operand is read, after RUNMIS and before RUNCAP (DESIGN CHOICE: R111 has no step for it; log entry 81). At vl = 0 the tail policy alone acts, on
elements 0 to VLMAX - 1 of keys and payloads (R77, R112), and a queue is popped all the same (R64). `seam`
is written where `f` gives counts; `order` is the result's, none where it is not tagged. -/
def RunArgs.run (x : RunArgs) (order : State → Option KeyOrder)
    (f : KeyOrder → List (List Keyed) → List Keyed × Option (Nat × Nat)) (key : State → KeyOrder) :
    State → Host.Outcome State Fault Refusal :=
  plain x.i do
    x.check
    let s ← look id
    if s.regs.vl = 0 then do
      let data := x.srcs.filter (fun y => !y.isRun)
      let _ ← data.mapM x.read
      retire (data.map RunSrc.reg)
      if x.pay then putV x.i (x.d + 16) s.regs.grp s.regs.sew []
      putV x.i x.d s.regs.grp s.regs.sew []
    else do
      let args ← x.srcs.mapM x.read
      let r := f (key s) args
      trapIf ((if x.double then 2 * s.vlmax else s.vlmax) < r.1.length) Cause.runcap x.i.bits.toNat
      retire ((x.srcs.filter (fun y => !y.isRun)).map RunSrc.reg)
      x.write r.1
      match r.2 with
      | some (ca, cb) => updateRegs (fun g => { g with seam := BitVec.ofNat 32 cb ++ BitVec.ofNat 32 ca })
      | none => pure ()
      match order s with
      | some o => updateRegs (fun g =>
          { g with stag := setTag g.stag x.d.toNat (x.group s.regs) (runTag o (x.group s.regs) x.pay (r.1.map (fun e => e.1))) })
      | none => pure ()

/-- The order of the first run operand. -/
def RunArgs.order (x : RunArgs) (s : State) : KeyOrder := tagOrder ((x.tags s).headD 0)

/-- The first and the second operand of a list. -/
def first2 (l : List (List Keyed)) : List Keyed × List Keyed := (l.getD 0 [], l.getD 1 [])

/-! Instructions -/

/-- Key kind F at SEW 8 traps ILLEGAL (R111). -/
def badKind (k : BitVec 2) (r : Regs) : Bool := k == 3 || (k == 2 && r.sewCode == 1)

/-- R456. -/
def execVsort (p g : Bool) (k : BitVec 2) (r : Bool) (a d : Reg) (s : State) :=
  let o := fun (s : State) => (⟨r, k.toNat, s.regs.sew⟩ : KeyOrder)
  let x : RunArgs := {
    i := .vsort p g k r a d, d := d, srcs := [.data p a], pays := if g then [.data p a] else [], pay := g, same := true,
    apart := [.data p a] }
  if badKind k s.regs then .next (halt x.i s (.trap Cause.illegal x.i.bits.toNat))
  else x.run (fun s => some (o s)) (fun q l => (q.sort (l.getD 0 []), none)) o s

/-- The two runs of VMERGE, VMERGEC and VINTER. -/
def twoRuns (i : Instr) (p q g double : Bool) (b a d : Reg) (pays : List RunSrc) : RunArgs :=
  { i := i, d := d, srcs := [.run p a, .run q b], pays := if g then pays else [], pay := g, double := double,
    apart := [.run p a, .run q b] }

/-- R434, R115. -/
def execVmerge (p q g : Bool) (b a d : Reg) (s : State) :=
  let x := twoRuns (.vmerge p q g b a d) p q g true b a d [.run p a, .run q b]
  x.run (fun s => some (x.order s)) (fun o l => (o.merge (first2 l).1 (first2 l).2, none)) x.order s

/-- R434, R116. -/
def execVmergec (p q g : Bool) (b a d : Reg) (s : State) :=
  let x := twoRuns (.vmergec p q g b a d) p q g true b a d [.run p a, .run q b]
  x.run (fun s => some (x.order s)) (fun o l =>
    let (as, bs) := first2 l
    let c := o.seam (as.map (fun e => e.1)) (bs.map (fun e => e.1))
    (o.merge (as.take c.1) (bs.take c.2), some c)) x.order s

/-- R428. -/
def execVinter (p q g : Bool) (b a d : Reg) (s : State) :=
  let x := twoRuns (.vinter p q g b a d) p q g false b a d [.run p a]
  x.run (fun s => some (x.order s)) (fun o l =>
    let (as, bs) := first2 l
    let keys := bs.map (fun e => e.1)
    let c := o.seam (as.map (fun e => e.1)) keys
    ((as.take c.1).filter (fun e => keys.contains e.1), some c)) x.order s

/-- R461. -/
def execVuniq (p g : Bool) (a d : Reg) (s : State) :=
  let x : RunArgs := {
    i := .vuniq p g a d, d := d, srcs := [.run p a], pays := if g then [.run p a] else [], pay := g, same := true,
    apart := [.run p a] }
  x.run (fun s => some (x.order s)) (fun _ l => (firsts [] (l.getD 0 []), none)) x.order s

/-- R440: the result is not tagged. -/
def execVpart (p q g : Bool) (b a d : Reg) (s : State) :=
  let x : RunArgs := {
    i := .vpart p q g b a d, d := d, srcs := [.data p a, .run q b], pays := if g then [.data p a] else [], pay := g,
    apart := [.data p a, .run q b] }
  x.run (fun _ => none) (fun o l =>
    let (xs, ss) := first2 l
    let keys := ss.map (fun e => e.1)
    (inBuckets (xs.map (fun e => (o.bucket keys e.1, e))) (keys.length + 1) 0, none)) x.order s

/-- R446: counts saturate at SEW; MODE 1 counts equal keys too. A form that writes no element leaves vd's tag (DESIGN CHOICE: R119 does
not say; log entry 82). -/
def execVrank (p q m g : Bool) (b a d : Reg) (s : State) :=
  let x : RunArgs := {
    i := .vrank p q m g b a d, d := d, srcs := [.run p a, .data q b], pays := [], pay := false, apart := [.run p a] }
  plain x.i (do
    x.check
    let t ← look id
    let n := t.regs.grp
    let w := t.regs.sew
    let bs ← readV x.i b n w t.regs.vl.toNat
    if t.regs.vl = 0 then do
      retire [b]
      putV x.i d n w []
    else do
      let ks ← x.read (.run p a)
      let o := x.order t
      let count := fun (y : Nat) => ks.countP (fun k => o.before k.1 y || (g && k.1 == y))
      let act := t.regs.active m
      retire [b]
      putV x.i d n w (outsOf act (fun j => .put (min (count (bs.getD j 0)) (2 ^ w - 1))))
      let sat := ((act.zip bs).any (fun y => y.1 && decide (2 ^ w - 1 < count y.2)))
      updateRegs (fun r => r.accrue (if sat then 4 else 0))) s

/-- R449, R121: the check form. It writes no element, and `lastd` stays. -/
def execVrun (g : Bool) (k : BitVec 2) (r : Bool) (d : Reg) (s : State) :=
  plain (.vrun g k r d) (do
    let t ← look id
    let n := t.regs.grp
    illegalIf (.vrun g k r d) (t.regs.sewCode == 0 || badKind k t.regs || t.isQueue d.toNat || t.badGroup d.toNat n ||
      (g && t.badPayload d.toNat n))
    sources [.v false d n]
    let keys := elems t.regs.sew (groupBits t.regs.v t.cap d.toNat n) t.regs.vl.toNat
    let o : KeyOrder := ⟨r, k.toNat, t.regs.sew⟩
    updateRegs (fun x => { x with
      stag := if o.sorted keys then setTag x.stag d.toNat n (runTag o n g keys)
        else x.stag.set 0 d.toNat (unsorted (x.stag.get 0 d.toNat)) })) s

/-- R449, R121: the read form. The head of a queue, which has no tag, is popped all the same (R64). -/
def execVrunLen (p : Bool) (a d : Reg) (s : State) :=
  plain (.vrunLen p a d) (do
    let t ← look id
    illegalIf (.vrunLen p a d) (t.regs.sewCode == 0 || (!t.isQueue a.toNat && !t.owns a.toNat 1))
    sources [.v p a 1]
    let _ ← readV (.vrunLen p a d) a 1 t.regs.sew 0
    retire [a]
    let g := t.tagOf a
    putX d (if tagSorted g then BitVec.ofNat 64 (tagLen g) else BitVec.allOnes 64)) s

/-- R462. -/
def execVunrun (d : Reg) (s : State) :=
  plain (.vunrun d) (do
    let t ← look id
    illegalIf (.vunrun d) (t.regs.sewCode == 0 || t.isQueue d.toNat || !t.owns d.toNat 1)
    updateRegs (fun r => { r with stag := r.stag.set 0 d.toNat (unsorted (r.stag.get 0 d.toNat)) })) s

end Sys2Proof.Machine
end

