-- ==== Sys2Proof/Machine/Sorus.lean ====
section
/-! DEFINITION. The Sorus engine (09 R188-R193; 19 R380, R388): SGATH and SSCAT, and the steps that complete them. -/

namespace Sys2Proof.Machine

/-! The descriptor X[d] (R189) -/

def sorusSw (v : Word) : Nat := (v.extractLsb' 0 6).toNat
def sorusEsz (v : Word) : Nat := (v.extractLsb' 6 3).toNat
def sorusFp (v : Word) : Bool := v.getLsbD 9
def sorusSigned (v : Word) : Bool := v.getLsbD 10

/-- Bytes of `n` elements of `e` bytes, rounded up to a multiple of 8: the offset FB of the fault bitmap. -/
def bitmapAt (n e : Nat) : Nat := (n * e + 7) / 8 * 8

/-- Bytes of the fault bitmap of `n` elements. -/
def bitmapLen (n : Nat) : Nat := 8 * ((n + 63) / 64)

/-- A descriptor that R190 makes ILLEGAL, for a CR of `n` swatches. -/
def badDescriptor (scatter add : Bool) (n : Nat) (v : Word) : Bool :=
  v.extractLsb' 11 53 != 0 ||
  (sorusFp v && !(scatter && add && sorusEsz v == 2)) ||
  (scatter && add && sorusEsz v != 2 && sorusEsz v != 3) ||
  n ≤ sorusSw v

/-- The swatch as a new command meets it traps SWATCH: busy for a gather, not READY for a scatter, or short. -/
def swatchBad (scatter : Bool) (w : Swatch) (need : Nat) : Bool :=
  (if scatter then w.st != .ready else w.st == .filling || w.st == .draining) || w.len.toNat < need

/-- Hand a captured command to the engine: the swatch `k` of the core changes state and the front's record names `sw`. -/
def State.giveSorus (s : State) (k sw : Nat) (c : Sorus) : State :=
  let w := s.core.swatches.get {} k
  let g := sorusAgent s.coreNo k s.cycle
  let c : Sorus := { c with agent := g }
  let w' : Swatch := { w with st := if c.scatter then .draining else .filling, engine := g }
  let s := s.setCore { s.core with
    swatches := s.core.swatches.set {} k w', sorus := s.core.sorus.set none k (some c) }
  let s := s.setRun { s.run with gather := 2 ^ 31 + sw }
  { s with order := s.order.handOver s.agent g }

/-- R380, R388: the checks of R190. An ILLEGAL of the descriptor's value comes after EMPTYSRC, as 15 R282 orders it (DEDUCED: R190 lists
the two the other way about; log entry 86). At vl = 0 there are no other checks. Then the capture of the operands. -/
def sorusIssue (i : Instr) (scatter add p q m : Bool) (b a d : Reg) (s : State) : Host.Outcome State Fault Refusal :=
  irrevocable i
    (do
      notExec i
      legal i (fun r => [(b, r.grp)]) (fun r => r.sewCode != 3))
    (do
      let t ← look id
      let n := t.regs.vl.toNat
      sources (if n = 0 then [.x false d] else [.x false d, .x p a, .v q b t.regs.grp])
      let v ← getX d
      let e := 2 ^ sorusEsz v
      illegalIf i (badDescriptor scatter add t.run.swatches.length v)
      if n = 0 then pure ()
      else do
        noTicket 0
        afterQueues
        let base ← getX a
        let k := t.run.swatches.getD (sorusSw v) 0
        let w := t.swatchSeen k
        trapIf (swatchBad scatter w (bitmapAt n e + bitmapLen n)) Cause.swatch w.base.toNat
        let idx ← readV i b t.regs.grp 32 n
        update (fun s => s.giveSorus k (sorusSw v)
          { scatter := scatter, add := add, fp := sorusFp v, signed := sorusSigned v, size := e, base := base, idx := idx,
            act := t.regs.active m, ctx := t.ctx, region := t.run.cr.region,
            front := t.fid })) s

/-- R380. -/
def execSgath (p q m : Bool) (b a d : Reg) (s : State) := sorusIssue (.sgath p q m b a d) false false p q m b a d s

/-- R388. -/
def execSscat (p q m g : Bool) (b a d : Reg) (s : State) := sorusIssue (.sscat p q m g b a d) true g p q m b a d s

/-! Elements (R190) -/

/-- What the engine's accesses need of a page. -/
def Sorus.acc (c : Sorus) : Acc := if c.scatter then (if c.add then .both else .write) else .read

/-- The pieces of an element that does not fault. A mixed-size race that the context traps on (08 R154) and an
uncorrectable read (14 R278) fault an element as a failed translation does (DEDUCED: the engine never traps; log entry 26). -/
def Sorus.piecesOf (c : Sorus) (s : State) (x : Nat) : Option (List Piece) :=
  let va := c.addr x
  if va % min c.size 8 ≠ 0 then none
  else
    match windowPieces s c.ctx c.acc va c.size with
    | .error _ => none
    | .ok ps =>
      if ps.any (fun p => s.mixed c.ctx c.agent c.size p.key p.len ||
          (c.acc != .write && s.poisoned p.key p.len)) then none
      else some ps

/-- Each element: its pieces where it is active and does not fault; `some none` is a fault, `none` is inactive. -/
def Sorus.elements (c : Sorus) (s : State) : List (Option (Option (List Piece))) :=
  (c.act.zip c.idx).map (fun x => if x.1 then some (c.piecesOf s x.2) else none)

/-- The bitmap: bit i is 1 exactly when element i faulted. -/
def faultBits : List (Option (Option (List Piece))) → Nat
  | [] => 0
  | some none :: l => 1 + 2 * faultBits l
  | _ :: l => 2 * faultBits l

/-- Write the bitmap at BASE + FB. -/
def State.putBitmap (s : State) (core base size : Nat) (es : List (Option (Option (List Piece)))) : State :=
  s.setScratch core (base + bitmapAt es.length size) (toBytes (bitmapLen es.length) (faultBits es))

/-- FREEZE stops a command of its job (13 R259). -/
def Sorus.frozen (c : Sorus) (s : State) : Bool := (s.regionAt (regionKey c.ctx c.region)).frozen

/-! SGATH_COMPLETE (R191) -/

/-- The bytes of an element as the gather reads it. -/
def Sorus.readPieces (c : Sorus) (s : State) : List Piece → List Byte
  | [] => []
  | p :: ps =>
    (List.range p.len).map (fun i => s.readByte c.agent c.size (p.key + i)) ++ Sorus.readPieces c s ps

/-- The bytes that a gather lands, element by element. -/
def Sorus.landing (c : Sorus) (s : State) : List (Option (Option (List Piece))) → List Byte
  | [] => []
  | some (some ps) :: l => c.readPieces s ps ++ Sorus.landing c s l
  | _ :: l => List.replicate c.size 0 ++ Sorus.landing c s l

/-- The descriptor that the command leaves in a state; its CR may have gone (07 R139). -/
def State.endSorus (s : State) (core k : Nat) (st : SwSt) : State :=
  let C := s.coreAt core
  let w := C.swatches.get {} k
  let w' : Swatch := if w.serial = 0 then {} else { w with st := st }
  s.setCoreAt core { C with swatches := C.swatches.set {} k w', sorus := C.sorus.set none k none }

/-- R191: the gather that fills swatch `arg.k` of core `arg.core`. -/
def execSgathComplete (s : State) : Host.Outcome State Fault Refusal :=
  let C := s.coreAt s.arg.core
  match C.sorus.get none s.arg.k with
  | none => .next s
  | some c =>
    if c.scatter = true ∨ c.frozen s = true then .next s
    else
      let base := (C.swatches.get {} s.arg.k).base.toNat
      let es := c.elements s
      let s' := (s.setScratch s.arg.core base (c.landing s es)).putBitmap s.arg.core base c.size es
      .next (s'.endSorus s.arg.core s.arg.k .ready)

/-! SSCAT_COMPLETE (R192) -/

/-- One more element of a scatter-add. -/
def Sorus.contribute (c : Sorus) (old v : Nat) : Nat :=
  if c.fp then (f32.add rne old v).1 else (old + v) % 2 ^ (8 * c.size)

/-- Add a contribution to the word of its pieces; the word is aligned and has one piece. -/
def Sorus.addOne (c : Sorus) (s : State) (ps : List Piece) (v : Nat) : State :=
  match ps with
  | [p] =>
    match s.modifyWord c.ctx c.agent c.size p.key false (fun old => some (c.contribute old v)) with
    | .ok (_, s') => s'
    | .error _ => s
  | _ => s

/-- The contributions in ascending order; `bs` are the swatch's bytes. -/
def Sorus.addAll (c : Sorus) (s : State) : List (Option (Option (List Piece))) → List Byte → State
  | [], _ => s
  | some (some ps) :: l, bs => Sorus.addAll c (c.addOne s ps (ofBytes (bs.take c.size))) l (bs.drop c.size)
  | _ :: l, bs => Sorus.addAll c s l (bs.drop c.size)

/-- The writes of a plain scatter: of each address the element of the highest index, by its pieces. -/
def Sorus.survivors (c : Sorus) : List (Option (Option (List Piece))) → List Byte → List (List Piece × List Byte)
  | [], _ => []
  | some (some ps) :: l, bs =>
    let rest := Sorus.survivors c l (bs.drop c.size)
    if rest.any (fun w => w.1.map (fun p => p.va) == ps.map (fun p => p.va)) then rest
    else (ps, bs.take c.size) :: rest
  | _ :: l, bs => Sorus.survivors c l (bs.drop c.size)

/-- Several of the unordered writes hold a byte: which one it keeps is a free value. -/
def contested (ws : List (List Piece × List Byte)) (key : Nat) : Bool :=
  1 < (ws.filter (fun w => w.1.any (fun p => decide (p.key ≤ key ∧ key < p.key + p.len)))).length

/-- Write one element piece by piece. -/
def Sorus.writePieces (c : Sorus) (ws : List (List Piece × List Byte)) (s : State) : List Piece → List Byte → State
  | [], _ => s
  | p :: ps, bs =>
    let data := (bs.take p.len).zipIdx.map (fun x =>
      if contested ws (p.key + x.2) then Config.freeByte s.cycle (p.key + x.2) else x.1)
    let s := match s.writeMem c.ctx c.agent c.size p.key data with
      | .ok s' => s'
      | .error _ => s
    Sorus.writePieces c ws s ps (bs.drop p.len)

/-- Perform a plain scatter. -/
def Sorus.writeAll (c : Sorus) (s : State) (ws : List (List Piece × List Byte)) : State :=
  ws.foldl (fun s w => c.writePieces ws s w.1 w.2) s

/-- R192: the scatter that drains swatch `arg.k` of core `arg.core`. -/
def execSscatComplete (s : State) : Host.Outcome State Fault Refusal :=
  let C := s.coreAt s.arg.core
  match C.sorus.get none s.arg.k with
  | none => .next s
  | some c =>
    if c.scatter = true ∧ c.frozen s = false then
      let base := (C.swatches.get {} s.arg.k).base.toNat
      let es := c.elements s
      let bs := C.scratch.bytes base (es.length * c.size)
      let s' := if c.add then c.addAll s es bs else c.writeAll s (c.survivors es bs)
      .next ((s'.putBitmap s.arg.core base c.size es).endSorus s.arg.core s.arg.k .empty)
    else .next s

end Sys2Proof.Machine
end

