-- ==== Sys2Proof/Machine/Dispatch.lean ====
section
/-! DEFINITION. One arm per instruction of the opcode table and per step of the device: a direct call of its meaning. -/

namespace Sys2Proof.Machine

/-- What an instruction does, performed by the current hart, and what a step of the device does. -/
def exec (i : Instr) (s : State) : Host.Outcome State Fault Refusal :=
  match i with
  | .add p q b a d => Sys2Proof.Machine.execAdd p q b a d s
  | .sub p q b a d => Sys2Proof.Machine.execSub p q b a d s
  | .and p q b a d => Sys2Proof.Machine.execAnd p q b a d s
  | .or p q b a d => Sys2Proof.Machine.execOr p q b a d s
  | .xor p q b a d => Sys2Proof.Machine.execXor p q b a d s
  | .shl p q b a d => Sys2Proof.Machine.execShl p q b a d s
  | .shr p q b a d => Sys2Proof.Machine.execShr p q b a d s
  | .sha p q b a d => Sys2Proof.Machine.execSha p q b a d s
  | .slt p q b a d => Sys2Proof.Machine.execSlt p q b a d s
  | .sltw p q b a d => Sys2Proof.Machine.execSltw p q b a d s
  | .min p q b a d => Sys2Proof.Machine.execMin p q b a d s
  | .max p q b a d => Sys2Proof.Machine.execMax p q b a d s
  | .minw p q b a d => Sys2Proof.Machine.execMinw p q b a d s
  | .maxw p q b a d => Sys2Proof.Machine.execMaxw p q b a d s
  | .scadd p q sz b a d => Sys2Proof.Machine.execScadd p q sz b a d s
  | .clz p a d => Sys2Proof.Machine.execClz p a d s
  | .ctz p a d => Sys2Proof.Machine.execCtz p a d s
  | .popc p a d => Sys2Proof.Machine.execPopc p a d s
  | .mul p q b a d => Sys2Proof.Machine.execMul p q b a d s
  | .mulh p q b a d => Sys2Proof.Machine.execMulh p q b a d s
  | .mulhw p q b a d => Sys2Proof.Machine.execMulhw p q b a d s
  | .div p q b a d => Sys2Proof.Machine.execDiv p q b a d s
  | .divw p q b a d => Sys2Proof.Machine.execDivw p q b a d s
  | .rem p q b a d => Sys2Proof.Machine.execRem p q b a d s
  | .remw p q b a d => Sys2Proof.Machine.execRemw p q b a d s
  | .addi imm a d => Sys2Proof.Machine.execAddi imm a d s
  | .andi imm a d => Sys2Proof.Machine.execAndi imm a d s
  | .ori imm a d => Sys2Proof.Machine.execOri imm a d s
  | .xori imm a d => Sys2Proof.Machine.execXori imm a d s
  | .shli sz a d => Sys2Proof.Machine.execShli sz a d s
  | .shri sz a d => Sys2Proof.Machine.execShri sz a d s
  | .shai sz a d => Sys2Proof.Machine.execShai sz a d s
  | .slti imm a d => Sys2Proof.Machine.execSlti imm a d s
  | .upi imm d => Sys2Proof.Machine.execUpi imm d s
  | .aupc imm d => Sys2Proof.Machine.execAupc imm d s
  | .ld imm e sz a d => Sys2Proof.Machine.execLd imm e sz a d s
  | .st imm e sz a d => Sys2Proof.Machine.execSt imm e sz a d s
  | .beq o b a => Sys2Proof.Machine.execBeq o b a s
  | .bne o b a => Sys2Proof.Machine.execBne o b a s
  | .blt o b a => Sys2Proof.Machine.execBlt o b a s
  | .bge o b a => Sys2Proof.Machine.execBge o b a s
  | .bltw o b a => Sys2Proof.Machine.execBltw o b a s
  | .bgew o b a => Sys2Proof.Machine.execBgew o b a s
  | .jal imm d => Sys2Proof.Machine.execJal imm d s
  | .jalr imm a d => Sys2Proof.Machine.execJalr imm a d s
  | .fadd p q sz b a d => Sys2Proof.Machine.execFadd p q sz b a d s
  | .fsub p q sz b a d => Sys2Proof.Machine.execFsub p q sz b a d s
  | .fmul p q sz b a d => Sys2Proof.Machine.execFmul p q sz b a d s
  | .fdiv p q sz b a d => Sys2Proof.Machine.execFdiv p q sz b a d s
  | .fsqrt p sz a d => Sys2Proof.Machine.execFsqrt p sz a d s
  | .fmin p q sz b a d => Sys2Proof.Machine.execFmin p q sz b a d s
  | .fmax p q sz b a d => Sys2Proof.Machine.execFmax p q sz b a d s
  | .fcmp p q sz b a c d => Sys2Proof.Machine.execFcmp p q sz b a c d s
  | .fcvt p sz b a d => Sys2Proof.Machine.execFcvt p sz b a d s
  | .fclass p sz a d => Sys2Proof.Machine.execFclass p sz a d s
  | .fma p q sz b a d => Sys2Proof.Machine.execFma p q sz b a d s
  | .amo p q sz f b a d => Sys2Proof.Machine.execAmo p q sz f b a d s
  | .cas p q sz b a d => Sys2Proof.Machine.execCas p q sz b a d s
  | .trap p a => Sys2Proof.Machine.execTrap p a s
  | .idle p q b a d => Sys2Proof.Machine.execIdle p q b a d s
  | .freeze p a => Sys2Proof.Machine.execFreeze p a s
  | .thaw p a => Sys2Proof.Machine.execThaw p a s
  | .scanrd p q b a d => Sys2Proof.Machine.execScanrd p q b a d s
  | .tlbinv p q b a => Sys2Proof.Machine.execTlbinv p q b a s
  | .vpmset p q b a => Sys2Proof.Machine.execVpmset p q b a s
  | .vpminv p q b a => Sys2Proof.Machine.execVpminv p q b a s
  | .srd n d => Sys2Proof.Machine.execSrd n d s
  | .swr n a d => Sys2Proof.Machine.execSwr n a d s
  | .sset n a d => Sys2Proof.Machine.execSset n a d s
  | .sclr n a d => Sys2Proof.Machine.execSclr n a d s
  | .spawn p q b a => Sys2Proof.Machine.execSpawn p q b a s
  | .join p a d => Sys2Proof.Machine.execJoin p a d s
  | .launch p q b a d => Sys2Proof.Machine.execLaunch p q b a d s
  | .withdraw p q b a d => Sys2Proof.Machine.execWithdraw p q b a d s
  | .claim p q b a d => Sys2Proof.Machine.execClaim p q b a d s
  | .wmpub p q b a => Sys2Proof.Machine.execWmpub p q b a s
  | .qsync p a d => Sys2Proof.Machine.execQsync p a d s
  | .pin p q b a => Sys2Proof.Machine.execPin p q b a s
  | .unpin p a => Sys2Proof.Machine.execUnpin p a s
  | .setvl p a d => Sys2Proof.Machine.execSetvl p a d s
  | .setvlw p q b a d => Sys2Proof.Machine.execSetvlw p q b a d s
  | .setvlre p q b a d => Sys2Proof.Machine.execSetvlre p q b a d s
  | .vloop p a n => Sys2Proof.Machine.execVloop p a n s
  | .setvt v => Sys2Proof.Machine.execSetvt v s
  | .waitv p q m g b a d => Sys2Proof.Machine.execWaitv p q m g b a d s
  | .viewnew p q b a d => Sys2Proof.Machine.execViewnew p q b a d s
  | .viewsplit p q b a d => Sys2Proof.Machine.execViewsplit p q b a d s
  | .narrow p q b a d => Sys2Proof.Machine.execNarrow p q b a d s
  | .viewdrop p a => Sys2Proof.Machine.execViewdrop p a s
  | .viewq p q b a d => Sys2Proof.Machine.execViewq p q b a d s
  | .specb p q b a d => Sys2Proof.Machine.execSpecb p q b a d s
  | .specq p q b a d => Sys2Proof.Machine.execSpecq p q b a d s
  | .specx p a => Sys2Proof.Machine.execSpecx p a s
  | .vaddVr p q m b a d => Sys2Proof.Machine.execVaddVr p q m b a d s
  | .vaddVx p q m b a d => Sys2Proof.Machine.execVaddVx p q m b a d s
  | .vaddVi p m imm a d => Sys2Proof.Machine.execVaddVi p m imm a d s
  | .vsubVr p q m b a d => Sys2Proof.Machine.execVsubVr p q m b a d s
  | .vsubVx p q m b a d => Sys2Proof.Machine.execVsubVx p q m b a d s
  | .vsubVi p m imm a d => Sys2Proof.Machine.execVsubVi p m imm a d s
  | .vmulVr p q m b a d => Sys2Proof.Machine.execVmulVr p q m b a d s
  | .vmulVx p q m b a d => Sys2Proof.Machine.execVmulVx p q m b a d s
  | .vmulVi p m imm a d => Sys2Proof.Machine.execVmulVi p m imm a d s
  | .vmulhVr p q m g b a d => Sys2Proof.Machine.execVmulhVr p q m g b a d s
  | .vmulhVx p q m g b a d => Sys2Proof.Machine.execVmulhVx p q m g b a d s
  | .vmulhVi p m g imm a d => Sys2Proof.Machine.execVmulhVi p m g imm a d s
  | .vdivVr p q m g b a d => Sys2Proof.Machine.execVdivVr p q m g b a d s
  | .vdivVx p q m g b a d => Sys2Proof.Machine.execVdivVx p q m g b a d s
  | .vdivVi p m g imm a d => Sys2Proof.Machine.execVdivVi p m g imm a d s
  | .vremVr p q m g b a d => Sys2Proof.Machine.execVremVr p q m g b a d s
  | .vremVx p q m g b a d => Sys2Proof.Machine.execVremVx p q m g b a d s
  | .vremVi p m g imm a d => Sys2Proof.Machine.execVremVi p m g imm a d s
  | .vminVr p q m g b a d => Sys2Proof.Machine.execVminVr p q m g b a d s
  | .vminVx p q m g b a d => Sys2Proof.Machine.execVminVx p q m g b a d s
  | .vminVi p m g imm a d => Sys2Proof.Machine.execVminVi p m g imm a d s
  | .vmaxVr p q m g b a d => Sys2Proof.Machine.execVmaxVr p q m g b a d s
  | .vmaxVx p q m g b a d => Sys2Proof.Machine.execVmaxVx p q m g b a d s
  | .vmaxVi p m g imm a d => Sys2Proof.Machine.execVmaxVi p m g imm a d s
  | .vandVr p q m b a d => Sys2Proof.Machine.execVandVr p q m b a d s
  | .vandVx p q m b a d => Sys2Proof.Machine.execVandVx p q m b a d s
  | .vandVi p m imm a d => Sys2Proof.Machine.execVandVi p m imm a d s
  | .vorVr p q m b a d => Sys2Proof.Machine.execVorVr p q m b a d s
  | .vorVx p q m b a d => Sys2Proof.Machine.execVorVx p q m b a d s
  | .vorVi p m imm a d => Sys2Proof.Machine.execVorVi p m imm a d s
  | .vxorVr p q m b a d => Sys2Proof.Machine.execVxorVr p q m b a d s
  | .vxorVx p q m b a d => Sys2Proof.Machine.execVxorVx p q m b a d s
  | .vxorVi p m imm a d => Sys2Proof.Machine.execVxorVi p m imm a d s
  | .vshlVr p q m b a d => Sys2Proof.Machine.execVshlVr p q m b a d s
  | .vshlVx p q m b a d => Sys2Proof.Machine.execVshlVx p q m b a d s
  | .vshlVi p m imm a d => Sys2Proof.Machine.execVshlVi p m imm a d s
  | .vshrVr p q m b a d => Sys2Proof.Machine.execVshrVr p q m b a d s
  | .vshrVx p q m b a d => Sys2Proof.Machine.execVshrVx p q m b a d s
  | .vshrVi p m imm a d => Sys2Proof.Machine.execVshrVi p m imm a d s
  | .vshaVr p q m b a d => Sys2Proof.Machine.execVshaVr p q m b a d s
  | .vshaVx p q m b a d => Sys2Proof.Machine.execVshaVx p q m b a d s
  | .vshaVi p m imm a d => Sys2Proof.Machine.execVshaVi p m imm a d s
  | .vsaddVr p q m g b a d => Sys2Proof.Machine.execVsaddVr p q m g b a d s
  | .vsaddVx p q m g b a d => Sys2Proof.Machine.execVsaddVx p q m g b a d s
  | .vsaddVi p m g imm a d => Sys2Proof.Machine.execVsaddVi p m g imm a d s
  | .vssubVr p q m g b a d => Sys2Proof.Machine.execVssubVr p q m g b a d s
  | .vssubVx p q m g b a d => Sys2Proof.Machine.execVssubVx p q m g b a d s
  | .vssubVi p m g imm a d => Sys2Proof.Machine.execVssubVi p m g imm a d s
  | .vwmulVr p q m g b a d => Sys2Proof.Machine.execVwmulVr p q m g b a d s
  | .vwmulVx p q m g b a d => Sys2Proof.Machine.execVwmulVx p q m g b a d s
  | .vwmulVi p m g imm a d => Sys2Proof.Machine.execVwmulVi p m g imm a d s
  | .vwmaccVr p q m g b a d => Sys2Proof.Machine.execVwmaccVr p q m g b a d s
  | .vwmaccVx p q m g b a d => Sys2Proof.Machine.execVwmaccVx p q m g b a d s
  | .vwmaccVi p m g imm a d => Sys2Proof.Machine.execVwmaccVi p m g imm a d s
  | .vnshrVr p q m g b a d => Sys2Proof.Machine.execVnshrVr p q m g b a d s
  | .vnshrVx p q m g b a d => Sys2Proof.Machine.execVnshrVx p q m g b a d s
  | .vnshrVi p m g imm a d => Sys2Proof.Machine.execVnshrVi p m g imm a d s
  | .vcmp p q m c b a d => Sys2Proof.Machine.execVcmp p q m c b a d s
  | .vblend p q b a d => Sys2Proof.Machine.execVblend p q b a d s
  | .vmv p m a d => Sys2Proof.Machine.execVmv p m a d s
  | .vslide p q m u b a d => Sys2Proof.Machine.execVslide p q m u b a d s
  | .vpick p q m b a d => Sys2Proof.Machine.execVpick p q m b a d s
  | .vprepop m a d => Sys2Proof.Machine.execVprepop m a d s
  | .vpackm p k a d => Sys2Proof.Machine.execVpackm p k a d s
  | .vspread p k a d => Sys2Proof.Machine.execVspread p k a d s
  | .vconf p m l a d => Sys2Proof.Machine.execVconf p m l a d s
  | .vscan p m b a d => Sys2Proof.Machine.execVscan p m b a d s
  | .vred p m b a d => Sys2Proof.Machine.execVred p m b a d s
  | .vredo p m b a d => Sys2Proof.Machine.execVredo p m b a d s
  | .vpopc m a d => Sys2Proof.Machine.execVpopc m a d s
  | .vfirst m a d => Sys2Proof.Machine.execVfirst m a d s
  | .mlog m o b a d => Sys2Proof.Machine.execMlog m o b a d s
  | .mmovMask m a d => Sys2Proof.Machine.execMmovMask m a d s
  | .mmovFromVector p m a d => Sys2Proof.Machine.execMmovFromVector p m a d s
  | .mmovToVector m a d => Sys2Proof.Machine.execMmovToVector m a d s
  | .vfaddVr p q m b a d => Sys2Proof.Machine.execVfaddVr p q m b a d s
  | .vfaddVx p q m b a d => Sys2Proof.Machine.execVfaddVx p q m b a d s
  | .vfsubVr p q m b a d => Sys2Proof.Machine.execVfsubVr p q m b a d s
  | .vfsubVx p q m b a d => Sys2Proof.Machine.execVfsubVx p q m b a d s
  | .vfmulVr p q m b a d => Sys2Proof.Machine.execVfmulVr p q m b a d s
  | .vfmulVx p q m b a d => Sys2Proof.Machine.execVfmulVx p q m b a d s
  | .vfdivVr p q m b a d => Sys2Proof.Machine.execVfdivVr p q m b a d s
  | .vfdivVx p q m b a d => Sys2Proof.Machine.execVfdivVx p q m b a d s
  | .vfmaVr p q m b a d => Sys2Proof.Machine.execVfmaVr p q m b a d s
  | .vfmaVx p q m b a d => Sys2Proof.Machine.execVfmaVx p q m b a d s
  | .vfminVr p q m b a d => Sys2Proof.Machine.execVfminVr p q m b a d s
  | .vfminVx p q m b a d => Sys2Proof.Machine.execVfminVx p q m b a d s
  | .vfmaxVr p q m b a d => Sys2Proof.Machine.execVfmaxVr p q m b a d s
  | .vfmaxVx p q m b a d => Sys2Proof.Machine.execVfmaxVx p q m b a d s
  | .vfcmpVr p q m b a c d => Sys2Proof.Machine.execVfcmpVr p q m b a c d s
  | .vfcmpVx p q m b a c d => Sys2Proof.Machine.execVfcmpVx p q m b a c d s
  | .vfcvt p m w b a d => Sys2Proof.Machine.execVfcvt p m w b a d s
  | .vscaccVr p q m g b a d => Sys2Proof.Machine.execVscaccVr p q m g b a d s
  | .vscaccVx p q m g b a d => Sys2Proof.Machine.execVscaccVx p q m g b a d s
  | .vsf p m f a d => Sys2Proof.Machine.execVsf p m f a d s
  | .vld p m e f l b a d => Sys2Proof.Machine.execVld p m e f l b a d s
  | .vlds p q m e f l b a d => Sys2Proof.Machine.execVlds p q m e f l b a d s
  | .vst p m e l b a d => Sys2Proof.Machine.execVst p m e l b a d s
  | .vsts p q m e l b a d => Sys2Proof.Machine.execVsts p q m e l b a d s
  | .vldq p e l b a n => Sys2Proof.Machine.execVldq p e l b a n s
  | .vstq p e l b a n => Sys2Proof.Machine.execVstq p e l b a n s
  | .vsort p g k r a d => Sys2Proof.Machine.execVsort p g k r a d s
  | .vmerge p q g b a d => Sys2Proof.Machine.execVmerge p q g b a d s
  | .vmergec p q g b a d => Sys2Proof.Machine.execVmergec p q g b a d s
  | .vinter p q g b a d => Sys2Proof.Machine.execVinter p q g b a d s
  | .vuniq p g a d => Sys2Proof.Machine.execVuniq p g a d s
  | .vrank p q m g b a d => Sys2Proof.Machine.execVrank p q m g b a d s
  | .vpart p q g b a d => Sys2Proof.Machine.execVpart p q g b a d s
  | .vrun g k r d => Sys2Proof.Machine.execVrun g k r d s
  | .vrunLen p a d => Sys2Proof.Machine.execVrunLen p a d s
  | .vunrun d => Sys2Proof.Machine.execVunrun d s
  | .eissue p q m b a k => Sys2Proof.Machine.execEissue p q m b a k s
  | .ewait p q b a => Sys2Proof.Machine.execEwait p q b a s
  | .eseq p a d => Sys2Proof.Machine.execEseq p a d s
  | .epub p q b a => Sys2Proof.Machine.execEpub p q b a s
  | .sgath p q m b a d => Sys2Proof.Machine.execSgath p q m b a d s
  | .sscat p q m g b a d => Sys2Proof.Machine.execSscat p q m g b a d s
  | .cMv b d => Sys2Proof.Machine.execCMv b d s
  | .cAdd b d => Sys2Proof.Machine.execCAdd b d s
  | .cSub b d => Sys2Proof.Machine.execCSub b d s
  | .cAnd b d => Sys2Proof.Machine.execCAnd b d s
  | .cOr b d => Sys2Proof.Machine.execCOr b d s
  | .cXor b d => Sys2Proof.Machine.execCXor b d s
  | .cShli imm d => Sys2Proof.Machine.execCShli imm d s
  | .cShri imm d => Sys2Proof.Machine.execCShri imm d s
  | .cAddi imm d => Sys2Proof.Machine.execCAddi imm d s
  | .cMul b d => Sys2Proof.Machine.execCMul b d s
  | .cFadd b d => Sys2Proof.Machine.execCFadd b d s
  | .cFmul b d => Sys2Proof.Machine.execCFmul b d s
  | .cFma b d => Sys2Proof.Machine.execCFma b d s
  | .cLd imm d => Sys2Proof.Machine.execCLd imm d s
  | .cSt imm d => Sys2Proof.Machine.execCSt imm d s
  | .cVadd b d => Sys2Proof.Machine.execCVadd b d s
  | .cVsub b d => Sys2Proof.Machine.execCVsub b d s
  | .cVmul b d => Sys2Proof.Machine.execCVmul b d s
  | .cVfadd b d => Sys2Proof.Machine.execCVfadd b d s
  | .cVfsub b d => Sys2Proof.Machine.execCVfsub b d s
  | .cVfmul b d => Sys2Proof.Machine.execCVfmul b d s
  | .cVfma b d => Sys2Proof.Machine.execCVfma b d s
  | .cVmax b d => Sys2Proof.Machine.execCVmax b d s
  | .cVfmax b d => Sys2Proof.Machine.execCVfmax b d s
  | .cVand b d => Sys2Proof.Machine.execCVand b d s
  | .cVxor b d => Sys2Proof.Machine.execCVxor b d s
  | .cVmv b d => Sys2Proof.Machine.execCVmv b d s
  | .tcfg fmt ta => Sys2Proof.Machine.execTcfg fmt ta s
  | .mopa fmt ta va vb => Sys2Proof.Machine.execMopa fmt ta va vb s
  | .tsacc sf ta tb vsa vsb => Sys2Proof.Machine.execTsacc sf ta tb vsa vsb s
  | .tmovr vd ta xa sl => Sys2Proof.Machine.execTmovr vd ta xa sl s
  | .tmovc vd ta xa sl => Sys2Proof.Machine.execTmovc vd ta xa sl s
  | .tld ta xa sl => Sys2Proof.Machine.execTld ta xa sl s
  | .tst ta xa sl => Sys2Proof.Machine.execTst ta xa sl s
  | .rett => Sys2Proof.Machine.execRett s
  | .brk => Sys2Proof.Machine.execBrk s
  | .iflush => Sys2Proof.Machine.execIflush s
  | .exit => Sys2Proof.Machine.execExit s
  | .yield => Sys2Proof.Machine.execYield s
  | .toff0 => Sys2Proof.Machine.execToff0 s
  | .toff1 => Sys2Proof.Machine.execToff1 s
  | .toff2 => Sys2Proof.Machine.execToff2 s
  | .toff3 => Sys2Proof.Machine.execToff3 s
  | .toff4 => Sys2Proof.Machine.execToff4 s
  | .toff5 => Sys2Proof.Machine.execToff5 s
  | .toff6 => Sys2Proof.Machine.execToff6 s
  | .toff7 => Sys2Proof.Machine.execToff7 s
  | .tzero0 => Sys2Proof.Machine.execTzero0 s
  | .tzero1 => Sys2Proof.Machine.execTzero1 s
  | .tzero2 => Sys2Proof.Machine.execTzero2 s
  | .tzero3 => Sys2Proof.Machine.execTzero3 s
  | .tzero4 => Sys2Proof.Machine.execTzero4 s
  | .tzero5 => Sys2Proof.Machine.execTzero5 s
  | .tzero6 => Sys2Proof.Machine.execTzero6 s
  | .tzero7 => Sys2Proof.Machine.execTzero7 s
  | .tpred0 => Sys2Proof.Machine.execTpred0 s
  | .tpred1 => Sys2Proof.Machine.execTpred1 s
  | .tpred2 => Sys2Proof.Machine.execTpred2 s
  | .tpred3 => Sys2Proof.Machine.execTpred3 s
  | .tpred4 => Sys2Proof.Machine.execTpred4 s
  | .tpred5 => Sys2Proof.Machine.execTpred5 s
  | .tpred6 => Sys2Proof.Machine.execTpred6 s
  | .tpred7 => Sys2Proof.Machine.execTpred7 s
  | .tpred8 => Sys2Proof.Machine.execTpred8 s
  | .tpred9 => Sys2Proof.Machine.execTpred9 s
  | .tpred10 => Sys2Proof.Machine.execTpred10 s
  | .tpred11 => Sys2Proof.Machine.execTpred11 s
  | .tpred12 => Sys2Proof.Machine.execTpred12 s
  | .tpred13 => Sys2Proof.Machine.execTpred13 s
  | .tpred14 => Sys2Proof.Machine.execTpred14 s
  | .tpred15 => Sys2Proof.Machine.execTpred15 s
  | .tpred16 => Sys2Proof.Machine.execTpred16 s
  | .tpred17 => Sys2Proof.Machine.execTpred17 s
  | .tpred18 => Sys2Proof.Machine.execTpred18 s
  | .tpred19 => Sys2Proof.Machine.execTpred19 s
  | .tpred20 => Sys2Proof.Machine.execTpred20 s
  | .tpred21 => Sys2Proof.Machine.execTpred21 s
  | .tpred22 => Sys2Proof.Machine.execTpred22 s
  | .tpred23 => Sys2Proof.Machine.execTpred23 s
  | .tpred24 => Sys2Proof.Machine.execTpred24 s
  | .tpred25 => Sys2Proof.Machine.execTpred25 s
  | .tpred26 => Sys2Proof.Machine.execTpred26 s
  | .tpred27 => Sys2Proof.Machine.execTpred27 s
  | .tpred28 => Sys2Proof.Machine.execTpred28 s
  | .tpred29 => Sys2Proof.Machine.execTpred29 s
  | .tpred30 => Sys2Proof.Machine.execTpred30 s
  | .tpred31 => Sys2Proof.Machine.execTpred31 s
  | .dispatch => Sys2Proof.Machine.execDispatch s
  | .boundaryPreemption => Sys2Proof.Machine.execBoundaryPreemption s
  | .abortPreemption => Sys2Proof.Machine.execAbortPreemption s
  | .asyncTrapDelivery => Sys2Proof.Machine.execAsyncTrapDelivery s
  | .storeQueueStore => Sys2Proof.Machine.execStoreQueueStore s
  | .setvlwSatisfied => Sys2Proof.Machine.execSetvlwSatisfied s
  | .wmstall => Sys2Proof.Machine.execWmstall s
  | .waitvWake => Sys2Proof.Machine.execWaitvWake s
  | .waitvTimeout => Sys2Proof.Machine.execWaitvTimeout s
  | .ewaitReached => Sys2Proof.Machine.execEwaitReached s
  | .epubPublish => Sys2Proof.Machine.execEpubPublish s
  | .specqReturn => Sys2Proof.Machine.execSpecqReturn s
  | .idleWake => Sys2Proof.Machine.execIdleWake s
  | .idleTimeout => Sys2Proof.Machine.execIdleTimeout s
  | .copy => Sys2Proof.Machine.execCopy s
  | .fill => Sys2Proof.Machine.execFill s
  | .cvt => Sys2Proof.Machine.execCvt s
  | .rot => Sys2Proof.Machine.execRot s
  | .macc => Sys2Proof.Machine.execMacc s
  | .mload => Sys2Proof.Machine.execMload s
  | .mstore => Sys2Proof.Machine.execMstore s
  | .followOnStart => Sys2Proof.Machine.execFollowOnStart s
  | .matvec => Sys2Proof.Machine.execMatvec s
  | .commandComplete => Sys2Proof.Machine.execCommandComplete s
  | .engineRetry => Sys2Proof.Machine.execEngineRetry s
  | .sgathComplete => Sys2Proof.Machine.execSgathComplete s
  | .sscatComplete => Sys2Proof.Machine.execSscatComplete s
  | .gaugeCheck => Sys2Proof.Machine.execGaugeCheck s
  | .ticketCommit => Sys2Proof.Machine.execTicketCommit s
  | .squashRequeue => Sys2Proof.Machine.execSquashRequeue s
  | .sramError => Sys2Proof.Machine.execSramError s
  | .hostRead => Sys2Proof.Machine.execHostRead s
  | .hostWrite => Sys2Proof.Machine.execHostWrite s
  | .hostLaunch => Sys2Proof.Machine.execHostLaunch s
  | .push => Sys2Proof.Machine.execPush s
  | .hostWithdraw => Sys2Proof.Machine.execHostWithdraw s
  | .hostFreeze => Sys2Proof.Machine.execHostFreeze s
  | .hostThaw => Sys2Proof.Machine.execHostThaw s
  | .checkpoint => Sys2Proof.Machine.execCheckpoint s
  | .checkpointAcknowledged => Sys2Proof.Machine.execCheckpointAcknowledged s
  | .restore => Sys2Proof.Machine.execRestore s
  | .peercopy => Sys2Proof.Machine.execPeercopy s
  | .peercopyReceive => Sys2Proof.Machine.execPeercopyReceive s
  | .attest => Sys2Proof.Machine.execAttest s
  | .recover => Sys2Proof.Machine.execRecover s
  | .badop => Sys2Proof.Machine.execBadop s
  | .rbqWrite => Sys2Proof.Machine.execRbqWrite s
  | .rbtWrite => Sys2Proof.Machine.execRbtWrite s
  | .hostRegisterWrite => Sys2Proof.Machine.execHostRegisterWrite s
  | .lanemapWrite => Sys2Proof.Machine.execLanemapWrite s
  | .lpartWrite => Sys2Proof.Machine.execLpartWrite s
  | .vpmctlWrite => Sys2Proof.Machine.execVpmctlWrite s
  | .swdWrite => Sys2Proof.Machine.execSwdWrite s
  | .radWrite => Sys2Proof.Machine.execRadWrite s
  | .frmWrite => Sys2Proof.Machine.execFrmWrite s
  | .kvblkWrite => Sys2Proof.Machine.execKvblkWrite s
  | .ctxRootWrite => Sys2Proof.Machine.execCtxRootWrite s
  | .contextRegisterWrite => Sys2Proof.Machine.execContextRegisterWrite s
  | .stateRegisterWrite => Sys2Proof.Machine.execStateRegisterWrite s
  | .moduleReset => Sys2Proof.Machine.execModuleReset s
  | .thermalTrip => Sys2Proof.Machine.execThermalTrip s
  | .powerCap => Sys2Proof.Machine.execPowerCap s
  | .notAnInstruction => Sys2Proof.Machine.execNotAnInstruction s
  | .fetchFault => Sys2Proof.Machine.execFetchFault s
  | .eventSlotFree => Sys2Proof.Machine.execEventSlotFree s

end Sys2Proof.Machine
end

