-- ==== Sys2Proof/Machine/Turns.lean ====
section
/-! DEFINITION. Whose turn it is, and what a turn may be: which harts can go on, which steps of the device are turns of their
own, what is due before anything else, the leases that a holding run keeps (04 R75, R148), and the turn that is taken when the
agenda names none (the model's own choice among those that the spec allows; log entry 4). -/

namespace Sys2Proof.Machine

/-! Harts -/

/-- The waits that a step of the device ends; the others end as the hart performs its instruction again. -/
def Wait.event : Wait → Bool
  | .setvlw => true
  | .waitv => true
  | .ewait => true
  | .epub => true
  | .specq => true
  | .idle => true
  | _ => false

/-- The slot of an agent that is a hart. -/
def slotOf (g : Nat) : Slot := if g % 2 = 0 then .a else .e

/-- Another hart's run holds its leases and has taken some (R75); a frozen strip's leases hold nothing back (13 R260), nor do those
of a CR that runs ahead, which cannot commit yet (R81). -/
def State.holder (s : State) (g : Nat) : Bool :=
  let F := s.frontAt (g / 2)
  let h := F.hart (slotOf g)
  F.run.isSome && F.drain.isNone && h.live && h.holds && !h.priv && !F.frozen && !h.reads.isEmpty

/-- A hart runs: its CR is on a front that nothing gates and that has lanes, and it has not exited. -/
def State.runs (s : State) (f : Nat) (sl : Slot) : Bool :=
  let F := s.frontAt f
  let h := F.hart sl
  F.run.isSome && h.live && !F.frozen && !h.stopped && !F.theRun.laneless && !s.dev.recovery

/-- A hart waits for the commit of the holding run that stopped its last access (R75). -/
def Hart.held (s : State) (h : Hart) : Bool := match h.blockedOn with | some g => s.holder g | none => false

/-- A hart can perform its next instruction. -/
def State.ready (s : State) (f : Nat) (sl : Slot) : Bool :=
  s.runs f sl && !((s.frontAt f).hart sl).wait.event && !Hart.held s ((s.frontAt f).hart sl)

/-! What a hart's turn meets before its next instruction -/

/-- R60: a retired lane is among the CR's, and it can be rolled back. -/
def State.abortDue (s : State) (f : Nat) : Bool :=
  let F := s.frontAt f
  (F.run.isSome || F.drain.isSome) && !F.anyPriv && !F.frozen && s.laneLost f

/-- R237: the CR belongs to a ticket that has ended, and can be stopped. -/
def State.stopDue (s : State) (f : Nat) : Bool :=
  let n := (s.frontAt f).theRun.cr.ticket
  let T := s.ticketAt n
  n != 0 && T.owing && !T.live && !s.frozenTicket T && stoppable n (f, s.frontAt f)

/-! Steps of the device -/

/-- The steps that are turns of their own. The writes of state registers are part of the STATE instructions, and what a fetch
finds is part of a hart's turn. -/
def isTurn : Instr → Bool
  | .dispatch | .boundaryPreemption | .abortPreemption | .asyncTrapDelivery | .storeQueueStore | .setvlwSatisfied | .wmstall
  | .waitvWake | .waitvTimeout | .ewaitReached | .epubPublish | .specqReturn | .idleWake | .idleTimeout | .copy | .fill | .cvt
  | .rot | .macc | .mload | .mstore | .followOnStart | .matvec | .commandComplete | .engineRetry | .sgathComplete
  | .sscatComplete | .gaugeCheck | .ticketCommit | .squashRequeue | .sramError | .hostRead | .hostWrite | .hostLaunch | .push
  | .hostWithdraw | .hostFreeze | .hostThaw | .checkpoint | .checkpointAcknowledged | .restore | .peercopy | .peercopyReceive
  | .attest | .recover | .badop | .rbqWrite | .rbtWrite | .hostRegisterWrite | .moduleReset | .thermalTrip | .powerCap
  | .eventSlotFree => true
  | _ => false

/-- The steps that end a hart's wait: they need the hart to run. -/
def endsWait : Instr → Bool
  | .setvlwSatisfied | .wmstall | .waitvWake | .waitvTimeout | .ewaitReached | .epubPublish | .specqReturn | .idleWake
  | .idleTimeout => true
  | _ => false

/-- What clears or outlasts the clocks: module reset, and RECOVER, which ends in one. -/
def resets : Instr → Bool
  | .moduleReset | .recover => true
  | _ => false

/-- A step of the device may be a turn now. -/
def State.mayTurn (s : State) (i : Instr) (f : Nat) (sl : Slot) : Bool :=
  isTurn i && (!endsWait i || s.runs f sl)

/-! What is due before anything else (12 R235-R237) -/

/-- A dead ticket has something left to stop, or its pool is gathered. -/
def State.requeueDue (s : State) (n : Nat) (T : Ticket) : Bool :=
  let R := s.regionAt (regionKey T.ctx T.region)
  T.owing && !T.live && !s.frozenTicket T &&
  (T.gathered || !(s.stoppables n).isEmpty || (R.ready ++ R.parked ++ R.held).any (fun c => c.ticket == n))

/-- The earlier of two published events, the first where they are one. -/
def earlierEvent (m : Option (Nat × Ticket)) (e : Nat × Ticket) : Option (Nat × Ticket) :=
  match m with
  | none => some e
  | some x => if e.2.event < x.2.event then some e else some x

/-- The ticket whose check is due at the earliest event. -/
def State.nextCheck (s : State) : Option (Nat × Ticket) :=
  (s.ticketList.filter (fun e => s.checkDue e.2)).foldl earlierEvent none

/-- What is due: checks come right after the events that publish what they check, in the order of those, and before every commit
(R235). -/
def State.due (s : State) : Option Turn :=
  let turn (i : Instr) (e : Nat × Ticket) : Turn := .event i { ticket := e.1 }
  match s.nextCheck with
  | some e => some (turn .gaugeCheck e)
  | none =>
    match s.ticketList.find? (fun e => s.commitDue e.2) with
    | some e => some (turn .ticketCommit e)
    | none => (s.ticketList.find? (fun e => s.requeueDue e.1 e.2)).map (turn .squashRequeue)

/-! Leases (R75) -/

/-- What a lease of front `f` says stops being so in a step from `s` to `t`. -/
def Lease.breaks (l : Lease) (s t : State) (f : Nat) (priv : Bool) : Bool :=
  let ctx := (s.frontAt f).theRun.ctx
  l.holds s f ctx priv && !l.holds t f ctx priv

/-- Bytes that the holding run of agent `g` has read change in a step from `s` to `t`. -/
def Hart.disturbed (h : Hart) (s t : State) (g : Nat) : Bool := h.reads.any (fun l => l.breaks s t (g / 2) h.priv)

/-- Bytes that committed loads of front `f`'s access hart took, and that must stand until its store-queue stores before them are
performed, change in a step from `s` to `t` (R65; log entry 67). -/
def Front.disturbed (F : Front) (s t : State) (f : Nat) : Bool :=
  !F.frozen && F.storesWaiting && F.held.any (fun l => l.2.breaks s t f true)

/-- So do those of a CR in a save area, whose store-queue stores are still to come; a frozen job's hold nothing back (13 R260). -/
def Save.disturbed (A : Save) (s t : State) : Bool :=
  !(s.regionAt (regionKey A.run.ctx A.run.cr.region)).frozen &&
  A.held.any (fun l => l.2.holds s A.front A.run.ctx true && !l.2.holds t A.front A.run.ctx true)

/-- The harts of fronts that run, by agent number. -/
def State.agents (s : State) : List (Nat × Hart) := s.fronts.flatMap (fun e => [(2 * e.1, e.2.a), (2 * e.1 + 1, e.2.e)])

/-- What stands in the way of a step: a run that holds its leases, or a store that waits in a store queue. -/
inductive Obstacle where
  | run (g : Nat)
  | store
  deriving DecidableEq, Repr

/-- What stands in the way of a step from `s` to `t`, of other harts than those that `own` names. -/
def State.obstacle (s t : State) (own : Nat → Bool) : Option Obstacle :=
  match s.agents.find? (fun e => !own e.1 && s.holder e.1 && e.2.disturbed s t e.1) with
  | some e => some (.run e.1)
  | none =>
    if s.fronts.any (fun e => !own (2 * e.1) && e.2.disturbed s t e.1) || s.dev.saves.any (fun e => e.2.disturbed s t) then some .store
    else none

/-- The harts whose own accesses a turn makes. -/
def Turn.own : Turn → Nat → Bool
  | .hart f sl _ _, g => g == hartAgent (f % 256) sl
  | .fill .., _ => false
  | .drain f, g => g / 2 == f % 256
  | .event i arg, g =>
    match i with
    | .asyncTrapDelivery | .storeQueueStore | .boundaryPreemption | .abortPreemption => g / 2 == arg.front % 256
    | i => endsWait i && g == hartAgent (arg.front % 256) arg.slot

/-- The hart that a turn performs an instruction of. -/
def Turn.hart? : Turn → Option Nat
  | .hart f sl _ _ => some (hartAgent (f % 256) sl)
  | .fill .. => none
  | .drain _ => none
  | .event i arg => if endsWait i then some (hartAgent (arg.front % 256) arg.slot) else none

/-- The hart that cannot go on while a turn waits: the one whose instruction it is, or the holding access hart whose own commit waits
for a store-queue store. -/
def State.stuck (s : State) (t : Turn) : Option Nat :=
  match t with
  | .event .storeQueueStore arg => let g := hartAgent (arg.front % 256) .a; if s.holder g then some g else none
  | t => t.hart?

/-- The chain of waits from holding run `g`, `n` links at most. -/
def State.waitChain (s : State) : Nat → Nat → List Nat
  | 0, _ => []
  | n + 1, g =>
    let h := (s.frontAt (g / 2)).hart (slotOf g)
    match h.blockedOn with
    | some k => if s.holder k then k :: State.waitChain s n k else []
    | none => []

/-- Roll a run back, which goes on holding its leases: it waits for another's commit where `low` says so, and runs again. -/
def State.yieldTo (s : State) (low : Option Nat) (g : Nat) : State :=
  let t := rollback { s with fid := g / 2, slot := slotOf g }
  t.setHart { t.hart with holds := true, blockedOn := low }

/-- Agent `g`, a hart, is stopped by holding run `k`. A cycle of waits rolls back every run but the lowest. -/
def State.block (s : State) (g k : Nat) : State :=
  let t := { s with fid := g / 2, slot := slotOf g }
  let s := t.setHart { t.hart with blockedOn := some k }
  let chain := s.waitChain (2 * s.fronts.length + 1) g
  if s.holder g ∧ chain.contains g = true then
    let ring := (chain.takeWhile (fun k => k != g)) ++ [g]
    let low := ring.foldl min g
    (ring.filter (fun k => k != low)).foldl (fun s k => s.yieldTo (some low) k) s
  else s

/-- A turn does not come about for what stands in its way: a hart waits for the run that holds the bytes, and a holding run that
meets a store that waits in a store queue gives way and runs again. -/
def State.giveWay (s : State) (t : Turn) : Obstacle → State
  | .run k => match s.stuck t with | some g => s.block g k | none => s
  | .store => match s.stuck t with | some g => if s.holder g then s.yieldTo none g else s | none => s

/-! The turn taken when the agenda is empty -/

/-- The steps that may end the wait of a hart. -/
def waitTurns (f : Nat) (sl : Slot) : Wait → List Turn
  | .setvlw => [.event .setvlwSatisfied { front := f, slot := sl }, .event .wmstall { front := f, slot := sl }]
  | .waitv => [.event .waitvWake { front := f, slot := sl }, .event .waitvTimeout { front := f, slot := sl }]
  | .ewait => [.event .ewaitReached { front := f, slot := sl }]
  | .epub => [.event .epubPublish { front := f, slot := sl }]
  | .specq => [.event .specqReturn { front := f, slot := sl }]
  | .idle => [.event .idleWake { front := f, slot := sl }, .event .idleTimeout { front := f, slot := sl }]
  | _ => []

/-- The turns of a hart. -/
def State.hartTurns (s : State) (f : Nat) (sl : Slot) : List Turn :=
  let h := (s.frontAt f).hart sl
  (if s.ready f sl ∨ s.asyncDue f sl then [Turn.hart f sl false []] else []) ++
  (if h.fills.isEmpty then [] else [Turn.fill f sl]) ++ (if s.runs f sl then waitTurns f sl h.wait else [])

/-- The step that works on a command. -/
def Cmd.work (sel : Nat) (c : Cmd) : Instr :=
  if c.phase = .finished then .commandComplete
  else if c.phase = .retry ∨ c.skipTrap = .retry then .engineRetry
  else if sel = 0 then (match copyOp c.raw with | 0 => .copy | 1 => .fill | 2 => .cvt | _ => .rot)
  else if sel = 1 then
    if c.follow ∧ c.phase = .waiting then .followOnStart else match matOp c.raw with | 0 => .macc | 1 => .mload | _ => .mstore
  else .matvec

/-- The turns of a front's engines: the first command of each chain that has not completed. -/
def Front.engineTurns (f : Nat) (F : Front) : List Turn :=
  [0, 1, 2].filterMap (fun sel =>
    ((F.chain.get [] sel).zipIdx.find? (fun x => !x.1.complete)).map (fun x =>
      Turn.event (x.1.work sel) { front := f, sel := sel, k := x.2, n := 64 }))

/-- The turns of a front. -/
def State.frontTurns (s : State) (e : Nat × Front) : List Turn :=
  s.hartTurns e.1 .a ++ s.hartTurns e.1 .e ++
  (if e.2.drain.isSome then [Turn.drain e.1] else []) ++
  (if e.2.sqAddr.isEmpty then [] else [Turn.event .storeQueueStore { front := e.1 }]) ++ e.2.engineTurns e.1 ++
  (if e.2.theRun.laneless then [Turn.event .dispatch { front := e.1 }] else [])

/-- The turns of a core's Sorus commands. -/
def coreTurns (e : Nat × Core) : List Turn :=
  e.2.sorus.filterMap (fun x => x.2.map (fun c => Turn.event (if c.scatter then .sscatComplete else .sgathComplete) { core := e.1, k := x.1 }))

/-- The front that each die's dispatcher serves next (R42). -/
def State.dispatchTurns (s : State) : List Turn :=
  if s.regions.any (fun e => e.2.status == 1 && !e.2.ready.isEmpty) then
    [0, 128].filterMap (fun lo =>
      (((List.range 128).map (lo + ·)).find? s.asks).map (fun f => Turn.event .dispatch { front := f }))
  else []

/-- The step that performs a request. -/
def requestStep (op : Nat) : Instr :=
  match op with
  | 1 => .hostLaunch | 2 => .push | 3 => .hostWithdraw | 4 => .hostFreeze | 5 => .hostThaw | 6 => .checkpoint | 7 => .peercopy
  | 8 => .attest | 9 => .recover | 10 => .restore | _ => .badop

/-- The request at the head of the doorbells. -/
def State.requestTurns (s : State) : List Turn :=
  (if s.dev.streaming.isSome then [Turn.event .checkpointAcknowledged {}] else []) ++
  match s.nextRequest with
  | some (_, v) => [Turn.event (requestStep (s.requestOf v)) {}]
  | none => []

/-- Every turn that the model considers. -/
def State.turns (s : State) : List Turn :=
  s.fronts.flatMap s.frontTurns ++ s.cores.flatMap coreTurns ++ s.dispatchTurns ++ s.requestTurns ++
  (match s.victim with
    | some (f, false) => [Turn.event .boundaryPreemption { front := f }]
    | some (f, true) => [Turn.event .abortPreemption { front := f }]
    | none => [])

/-- The turn taken when the agenda is empty: they come round with the cycles. -/
def State.autoTurn (s : State) : Option Turn := s.turns[s.cycle % s.turns.length]?

end Sys2Proof.Machine
end

