-- ==== Sys2Proof/Machine/Step.lean ====
section
/-! DEFINITION. One step: one turn of one agent of the device. What is due comes first, then the head of the agenda, and with an
empty agenda a turn of the model's own choice. A hart's turn takes the trap or the pre-emption that waits for it, or fetches,
decodes and performs its next instruction. -/

namespace Sys2Proof.Machine

/-- The outcome of a turn, with what every step brings about of itself (12 R235, R240). -/
def finish (o : Host.Outcome State Fault Refusal) : Host.Outcome State Fault Refusal :=
  match o with
  | .next t => .next (afterStep t)
  | .fault f => .fault f
  | .refused r => .refused r

/-- What the current hart does with what it fetched. -/
def perform (s : State) : Host.Outcome State Fault Refusal :=
  match s.fetch with
  | .instr i => exec i s
  | .bad _ => exec .notAnInstruction s
  | .fault _ _ => exec .fetchFault s

/-- A hart's turn: what waits for its instruction boundary (04 R60, 12 R237, 13 R248), or its next instruction. -/
def hartTurn (s : State) : Host.Outcome State Fault Refusal :=
  if s.stopDue s.fid then exec .squashRequeue { s with arg := { ticket := s.run.cr.ticket } }
  else if s.abortDue s.fid then exec .abortPreemption { s with arg := { front := s.fid } }
  else if s.asyncDue s.fid s.slot then exec .asyncTrapDelivery { s with arg := { front := s.fid, slot := s.slot } }
  else if s.ready s.fid s.slot then perform s
  else .next s

/-- The later writes that what the turn reads races with. -/
def State.looking (s : State) (ahead : List Coming) : State := { s with order := s.order.expecting ahead }

/-- A turn. -/
def runTurn (s : State) : Turn → Host.Outcome State Fault Refusal
  | .hart f sl late ahead => finish (hartTurn { s.looking ahead with fid := f % 256, slot := sl, late := late })
  | .fill f sl =>
    if (s.frontAt (f % 256)).frozen then .next s
    else finish (.next (landFill { s.looking [] with fid := f % 256, slot := sl }))
  | .drain f => if (s.frontAt (f % 256)).frozen then .next s else finish (.next ((s.looking []).drainFront (f % 256)))
  | .event i arg =>
    if s.mayTurn i (arg.front % 256) arg.slot then
      finish (exec i { s.looking arg.ahead with fid := arg.front % 256, slot := arg.slot, late := false, arg := arg })
    else .next s

/-- Module reset waits for nobody. -/
def Turn.unstoppable : Turn → Bool
  | .event i _ => resets i
  | .hart .. => false
  | .fill .. => false
  | .drain _ => false

/-- What stands in the way of a turn's outcome (04 R65, R75). -/
def stoppedBy (s : State) (t : Turn) (o : Host.Outcome State Fault Refusal) : Option Obstacle :=
  if t.unstoppable then none
  else
    match o with
    | .next s' => s.obstacle s' t.own
    | .fault _ => none
    | .refused _ => none

/-- Take a turn, unless something makes it wait. -/
def takeTurn (s : State) (t : Turn) : Host.Outcome State Fault Refusal :=
  let o := runTurn s t
  match stoppedBy s t o with
  | none => o
  | some x => .next (s.giveWay t x)

/-- What is due and need not wait. -/
def State.urgent (s : State) : Option Turn :=
  match s.due with
  | none => none
  | some t => if (stoppedBy s t (runTurn s t)).isSome then none else some t

/-- The turn of a step, and the agenda after it. -/
def State.next (s : State) : Option Turn × List Turn :=
  match s.urgent with
  | some t => (some t, s.agenda)
  | none =>
    match s.agenda with
    | t :: ts => (some t, ts)
    | [] => (s.autoTurn, [])

/-- A turn that may be taken while the clocks stand still (14 R277). -/
def Turn.outlasts : Turn → Bool
  | .event .moduleReset _ => true
  | _ => false

/-- One step. -/
def step (s : State) : Host.Outcome State Fault Refusal :=
  let s := { s with cycle := s.cycle + 1 }
  if s.dev.clockStopped then
    match s.agenda with
    | t :: ts => if t.outlasts then runTurn { s with agenda := ts } t else .next { s with agenda := ts }
    | [] => .next s
  else
    let n := s.next
    let s := { s with agenda := n.2 }
    match n.1 with
    | some t => takeTurn s t
    | none => .next s

/-! The next instruction, placed -/

/-- The granule that `withFetchWord` maps: every permission, every context. -/
def openGranule : Word := 0xFFFF000000B80000#64

/-- `s` with an instruction stored where the next step fetches: at window address 0, which entry 0 of the Vector Page Map
lets every context execute, in memory and in what front 0 fetches from; front 0 runs a SOLO CR whose hart stands there, and
has the next turn (log entry 4). -/
def State.withFetchWord (s : State) (_nbits w : Nat) : State :=
  let mem := s.mem.setBytes 0 (toBytes 8 w)
  let F := s.frontAt 0
  let h := F.e
  let e : Hart := { h with regs := { h.regs with pc := 0 }, live := true, stopped := false, wait := .none, blockedOn := none, pend := [] }
  let run : Run := { F.theRun with cr := { F.theRun.cr with kind := 1 }, laneless := false }
  let F : Front := { F with
    run := some run, drain := none, held := [], grant := 64, lanes := BitVec.allOnes 64, e := e, image := F.image.setBytes 0 (toBytes 8 w),
    frozen := false }
  { (s.setFrontAt 0 F) with
    mem := mem, agenda := [.hart 0 .e false []]
    dev := { s.dev with
      vpm := s.dev.vpm.set 0 0 openGranule, clockStopped := false, recovery := false, tickets := [],
      poison := s.dev.poison.filter (fun p => 8 ≤ p) } }

end Sys2Proof.Machine
end

