-- ==== Sys2Proof/Safety.lean ====
section
/-! DEFINITION. What counts as a safe run, in the terms that claims use: every step answers a next state, and memory keeps its
canonical form. -/

namespace Sys2Proof.Machine

/-- An outcome is a next state. -/
def Answers (o : Host.Outcome State Fault Refusal) : Prop := ∃ t, o = .next t

/-- Global memory is in its canonical form. -/
def State.MemOk (s : State) : Prop := Memory.wf s.mem = true

/-- A step is safe: it answers a next state, in which memory is canonical. -/
def SafeStep (s : State) : Prop := ∃ t, step s = .next t ∧ t.MemOk

end Sys2Proof.Machine
end

