-- ==== Sys2Proof/Certificates/Slice0/Obligations.lean ====
section
/-! DEFINITION. The statements for the provers. The definitions before each statement say what the statement is about: the
forms that it covers, when they are ready to run, and the state that follows. Every one of them is over all states and all
operands that meet its premises; `Tests/Slice0.lean` shows a state that meets them. -/

open Sys2Proof Sys2Proof.Machine

namespace Sys2Proof.Claims

/-! ## Vocabulary -/

/-- Change the current hart's registers. -/
def mapRegs (s : State) (f : Regs → Regs) : State := s.setRegs (f s.regs)

/-- Registers whose pc has passed the instruction `i` (04 R61, R78). -/
def passed (i : Instr) (r : Regs) : Regs := { r with pc := r.follow (r.pc + BitVec.ofNat 64 i.size) }

/-- An x register that holds a value (04 R68). -/
abbrev fullX (s : State) (k : Reg) : Prop := s.regs.emptyX k = false

/-- The strip holds nothing that its commit would write or compare, and no CR's queue drains before it (04 R81); privileged mode has
no strip. -/
abbrev Quiet (s : State) : Prop := s.priv = true ∨ (s.front.drain = none ∧ s.hart.buf = [] ∧ s.hart.reads = [])

/-- What the commit of such a strip leaves (04 R70, R74, R75). -/
def settled (s : State) : State :=
  if s.priv then s
  else s.setHart { s.hart with
    buf := [], reads := [], reruns := 0, holds := false, blockedOn := none, popped := [], fills := s.hart.fills.map Fill.age }

/-- Trap registers, mode and strip registers outside `Regs` that an instruction leaves alone. -/
abbrev sameTrapState (s t : State) : Prop :=
  t.hart.tcause = s.hart.tcause ∧ t.hart.tval = s.hart.tval ∧ t.hart.tpc = s.hart.tpc ∧ t.hart.tasync = s.hart.tasync ∧
  t.hart.priv = s.hart.priv ∧ t.hart.kvblk = s.hart.kvblk

/-- Every byte of global memory reads as before, but those of `n` bytes from key `k`. -/
def sameBytesOutside (s t : State) (k n : Nat) : Prop := ∀ j, j < k ∨ k + n ≤ j → t.mem.get 0 j = s.mem.get 0 j

/-- Every byte of global memory, every state register of a context, core, region and ticket is as before. -/
def sameDevice (s t : State) : Prop :=
  (∀ j, t.mem.get 0 j = s.mem.get 0 j) ∧ t.cores = s.cores ∧ t.ctxs = s.ctxs ∧ t.regions = s.regions ∧ t.dev = s.dev ∧
  t.order = s.order ∧ t.cycle = s.cycle ∧ t.agenda = s.agenda

/-! ## Scalar instructions that write one x register -/

/-- A scalar instruction: its sources, its destination, the value it writes, and what else it changes in the registers. -/
structure XForm where
  srcs : List Reg
  d : Reg
  val : Word
  post : Regs → Regs := id

/-- Its sources and its destination are full. -/
abbrev XForm.ready (f : XForm) (s : State) : Prop := ∀ k ∈ f.d :: f.srcs, fullX s k

/-- The registers after it. -/
def XForm.regs (f : XForm) (i : Instr) (s : State) : Regs := passed i (f.post (s.regs.setX f.d f.val))

/-- The state after it. -/
def XForm.result (f : XForm) (i : Instr) (s : State) : State := (mapRegs s (fun r => f.post (r.setX f.d f.val))).advance i.size

/-- One for a condition that holds. -/
def bit (b : Bool) : Word := if b then 1 else 0

/-- The quotient of R337 and the remainder of R373, signed. -/
def sQuot (u v : Word) : Word :=
  if v = 0 then BitVec.allOnes 64 else if u = BitVec.intMin 64 ∧ v = BitVec.allOnes 64 then BitVec.intMin 64 else u.sdiv v
def sRem (u v : Word) : Word :=
  if v = 0 then u else if u = BitVec.intMin 64 ∧ v = BitVec.allOnes 64 then 0 else u.srem v

/-- The same, unsigned. -/
def uQuot (u v : Word) : Word := if v = 0 then BitVec.allOnes 64 else u / v
def uRem (u v : Word) : Word := if v = 0 then u else u % v

/-- The events of a division in vsflags: DZ in bit 0, OV in bit 1 (R104). -/
def divEvents (signed : Bool) (u v : Word) (r : Regs) : Regs :=
  if v = 0 then { r with vsflags := r.vsflags ||| 1 }
  else if signed ∧ u = BitVec.intMin 64 ∧ v = BitVec.allOnes 64 then { r with vsflags := r.vsflags ||| 2 } else r

/-- The instructions of INT, MULDIV and the immediates, with their values; `none` for any other. -/
def intForm (i : Instr) (s : State) : Option XForm :=
  let x := s.regs.getX
  match i with
  | .add _ _ b a d => some { srcs := [a, b], d := d, val := x a + x b }
  | .sub _ _ b a d => some { srcs := [a, b], d := d, val := x a - x b }
  | .and _ _ b a d => some { srcs := [a, b], d := d, val := x a &&& x b }
  | .or _ _ b a d => some { srcs := [a, b], d := d, val := x a ||| x b }
  | .xor _ _ b a d => some { srcs := [a, b], d := d, val := x a ^^^ x b }
  | .shl _ _ b a d => some { srcs := [a, b], d := d, val := x a <<< ((x b).extractLsb' 0 6).toNat }
  | .shr _ _ b a d => some { srcs := [a, b], d := d, val := x a >>> ((x b).extractLsb' 0 6).toNat }
  | .sha _ _ b a d => some { srcs := [a, b], d := d, val := (x a).sshiftRight ((x b).extractLsb' 0 6).toNat }
  | .slt _ _ b a d => some { srcs := [a, b], d := d, val := bit (decide ((x a).toInt < (x b).toInt)) }
  | .sltw _ _ b a d => some { srcs := [a, b], d := d, val := bit (decide ((x a).toNat < (x b).toNat)) }
  | .min _ _ b a d => some { srcs := [a, b], d := d, val := if (x a).toInt ≤ (x b).toInt then x a else x b }
  | .max _ _ b a d => some { srcs := [a, b], d := d, val := if (x a).toInt ≤ (x b).toInt then x b else x a }
  | .minw _ _ b a d => some { srcs := [a, b], d := d, val := if (x a).toNat ≤ (x b).toNat then x a else x b }
  | .maxw _ _ b a d => some { srcs := [a, b], d := d, val := if (x a).toNat ≤ (x b).toNat then x b else x a }
  | .scadd _ _ sz b a d => some { srcs := [a, b], d := d, val := (x a <<< sz.toNat) + x b }
  | .clz _ a d => some { srcs := [a], d := d, val := BitVec.ofNat 64 (leadingZeros (x a) 64) }
  | .ctz _ a d => some { srcs := [a], d := d, val := BitVec.ofNat 64 (trailingZeros (x a) 0 64) }
  | .popc _ a d => some { srcs := [a], d := d, val := BitVec.ofNat 64 ((List.range 64).countP (fun k => (x a).getLsbD k)) }
  | .mul _ _ b a d => some { srcs := [a, b], d := d, val := x a * x b }
  | .mulh _ _ b a d => some { srcs := [a, b], d := d, val := BitVec.ofInt 64 ((x a).toInt * (x b).toInt / 2 ^ 64) }
  | .mulhw _ _ b a d => some { srcs := [a, b], d := d, val := BitVec.ofNat 64 ((x a).toNat * (x b).toNat / 2 ^ 64) }
  | .div _ _ b a d => some { srcs := [a, b], d := d, val := sQuot (x a) (x b), post := divEvents true (x a) (x b) }
  | .divw _ _ b a d => some { srcs := [a, b], d := d, val := uQuot (x a) (x b), post := divEvents false (x a) (x b) }
  | .rem _ _ b a d => some { srcs := [a, b], d := d, val := sRem (x a) (x b), post := divEvents true (x a) (x b) }
  | .remw _ _ b a d => some { srcs := [a, b], d := d, val := uRem (x a) (x b), post := divEvents false (x a) (x b) }
  | .addi k a d => some { srcs := [a], d := d, val := x a + k.signExtend 64 }
  | .andi k a d => some { srcs := [a], d := d, val := x a &&& k.signExtend 64 }
  | .ori k a d => some { srcs := [a], d := d, val := x a ||| k.signExtend 64 }
  | .xori k a d => some { srcs := [a], d := d, val := x a ^^^ k.signExtend 64 }
  | .shli k a d => some { srcs := [a], d := d, val := x a <<< k.toNat }
  | .shri k a d => some { srcs := [a], d := d, val := x a >>> k.toNat }
  | .shai k a d => some { srcs := [a], d := d, val := (x a).sshiftRight k.toNat }
  | .slti k a d => some { srcs := [a], d := d, val := bit (decide ((x a).toInt < k.toInt)) }
  | .upi k d => some { srcs := [], d := d, val := k.signExtend 64 <<< 14 }
  | .aupc k d => some { srcs := [], d := d, val := s.regs.pc + (k.signExtend 64 <<< 14) }
  | _ => none

/-- The compressed forms of the x class, with LAST for the first operand (15 R300, R301). -/
def compressedForm (i : Instr) (s : State) : Option XForm :=
  let x := s.regs.getX
  let last (f : Reg → XForm) : Option XForm := (lastX s.regs).map f
  match i with
  | .cMv b d => some { srcs := [b], d := d, val := x b }
  | .cAdd b d => last (fun a => { srcs := [a, b], d := d, val := x a + x b })
  | .cSub b d => last (fun a => { srcs := [a, b], d := d, val := x a - x b })
  | .cAnd b d => last (fun a => { srcs := [a, b], d := d, val := x a &&& x b })
  | .cOr b d => last (fun a => { srcs := [a, b], d := d, val := x a ||| x b })
  | .cXor b d => last (fun a => { srcs := [a, b], d := d, val := x a ^^^ x b })
  | .cShli k d => last (fun a => { srcs := [a], d := d, val := x a <<< k.toNat })
  | .cShri k d => last (fun a => { srcs := [a], d := d, val := x a >>> k.toNat })
  | .cAddi k d => last (fun a => { srcs := [a], d := d, val := x a + k.signExtend 64 })
  | .cMul b d => last (fun a => { srcs := [a, b], d := d, val := x a * x b })
  | _ => none

/-- A scalar FP result: its pattern is written and its flags are raised (05 R94, 15 R298). -/
def fpForm (srcs : List Reg) (d : Reg) (r : Nat × Flags) : XForm :=
  { srcs := srcs, d := d, val := BitVec.ofNat 64 r.1, post := fun g => g.raise r.2 }

/-- The scalar FP instructions outside EFB mode (05 R91), on the values, in the format and under the rounding mode that they
name. -/
def floatForm (i : Instr) (s : State) : Option XForm :=
  let x (k : Reg) : Nat := (s.regs.getX k).toNat
  let rm : Rm := s.regs.frm.toNat
  let last (f : Reg → XForm) : Option XForm := (lastX s.regs).map f
  if s.regs.frm = 5 then none
  else
    match i with
    | .fadd _ _ sz b a d => some (fpForm [a, b] d ((subFmt sz).add rm (x a) (x b)))
    | .fsub _ _ sz b a d => some (fpForm [a, b] d ((subFmt sz).sub rm (x a) (x b)))
    | .fmul _ _ sz b a d => some (fpForm [a, b] d ((subFmt sz).mul rm (x a) (x b)))
    | .fdiv _ _ sz b a d => some (fpForm [a, b] d ((subFmt sz).div rm (x a) (x b)))
    | .fsqrt _ sz a d => some (fpForm [a] d ((subFmt sz).sqrt rm (x a)))
    | .fmin _ _ sz b a d => some (fpForm [a, b] d ((subFmt sz).minMax false (x a) (x b)))
    | .fmax _ _ sz b a d => some (fpForm [a, b] d ((subFmt sz).minMax true (x a) (x b)))
    | .fcmp _ _ sz b a c d =>
      let r := (subFmt sz).cmp c.toNat (x a) (x b)
      some (fpForm [a, b] (d.setWidth 5) (if r.1 then 1 else 0, r.2))
    | .fcvt _ sz b a d => if (cvtSrc (b.toNat % 16)).isSome then some (fpForm [a] d (fcvtOf b sz rm (x a))) else none
    | .fclass _ sz a d => some (fpForm [a] d (2 ^ (subFmt sz).classOf (x a), 0))
    | .fma _ _ sz b a d => some (fpForm [a, b, d] d ((subFmt sz).fma rm (x a) (x b) (x d)))
    | .cFadd b d => last (fun a => fpForm [a, b] d (f32.add rm (x a) (x b)))
    | .cFmul b d => last (fun a => fpForm [a, b] d (f32.mul rm (x a) (x b)))
    | .cFma b d => last (fun a => fpForm [a, b, d] d (f32.fma rm (x a) (x b) (x d)))
    | _ => none

end Sys2Proof.Claims

open Sys2Proof.Claims

/-- R326, R329, R330, R336, R337, R362, R367, R369, R371, R373, R375, R381, R382, R391, R405, R468: from every state in which
the sources and the destination are full, an instruction of the INT and MULDIV groups or an immediate answers the state in
which x[d] holds its result (x0 holds nothing), `lastd` names d, a division has accrued its events, and the hart has passed
it; nothing else has changed. -/
def Sys2Proof.Claims.IntegerResult : Prop :=
  ∀ (i : Instr) (s : State) (f : XForm), intForm i s = some f → f.ready s → exec i s = .next (f.result i s)

/-- R299-R301: the compressed forms of the x class. -/
def Sys2Proof.Claims.CompressedScalarResult : Prop :=
  ∀ (i : Instr) (s : State) (f : XForm), compressedForm i s = some f → f.ready s → exec i s = .next (f.result i s)

/-- R344-R355, R301: the FP group and its compressed forms. -/
def Obligations.ScalarFloatResult : Prop :=
  ∀ (i : Instr) (s : State) (f : XForm), floatForm i s = some f → f.ready s → exec i s = .next (f.result i s)

/-- The frame of every scalar form above: after it, of the current hart's registers only x[d], lastd, the pc and what `post`
names have changed (so every other x register, every vector, mask and tag register and every other state register is as
before), the trap registers and the mode are as before, every other hart and front is, and so is every byte of memory and the
rest of the device. -/
def Obligations.ScalarFrame : Prop :=
  ∀ (i : Instr) (s t : State) (f : XForm),
    (intForm i s = some f ∨ compressedForm i s = some f ∨ floatForm i s = some f) → f.ready s → exec i s = .next t →
    t.regs = f.regs i s ∧ (∀ k : Reg, k ≠ f.d → t.regs.getX k = s.regs.getX k) ∧
    t.regs.v = s.regs.v ∧ t.regs.m = s.regs.m ∧ t.regs.stag = s.regs.stag ∧
    (∀ g, g ≠ s.fid → t.frontAt g = s.frontAt g) ∧ sameTrapState s t ∧ sameDevice s t

/-- R52, R321: x0 reads 0, and an instruction whose destination is x0 leaves every x register as it was, whatever it
computes. -/
def Obligations.ZeroRegister : Prop :=
  (∀ r : Regs, r.getX 0 = 0) ∧
  (∀ (r : Regs) (v : Word) (k : Reg), (r.setX 0 v).getX k = r.getX k) ∧
  (∀ (i : Instr) (s t : State) (f : XForm), intForm i s = some f → f.d = 0 → f.ready s → exec i s = .next t →
    ∀ k : Reg, t.regs.getX k = s.regs.getX k)

/-! ## Branches and jumps -/

namespace Sys2Proof.Claims

/-- The condition of a branch, with its offset and its sources. -/
def branchForm (i : Instr) (s : State) : Option (Bool × BitVec 14 × Reg × Reg) :=
  let x := s.regs.getX
  match i with
  | .beq o b a => some (decide (x a = x b), o, a, b)
  | .bne o b a => some (decide (x a ≠ x b), o, a, b)
  | .blt o b a => some (decide ((x a).toInt < (x b).toInt), o, a, b)
  | .bge o b a => some (decide ((x b).toInt ≤ (x a).toInt), o, a, b)
  | .bltw o b a => some (decide ((x a).toNat < (x b).toNat), o, a, b)
  | .bgew o b a => some (decide ((x b).toNat ≤ (x a).toNat), o, a, b)
  | _ => none

end Sys2Proof.Claims

/-- R331: a branch goes to its pc plus twice the sign-extended offset where its condition holds, and to the next instruction otherwise; it
writes no register, `lastd` among them; with an empty source it waits. -/
def Obligations.BranchTarget : Prop :=
  ∀ (i : Instr) (s : State) (taken : Bool) (o : BitVec 14) (a b : Reg), branchForm i s = some (taken, o, a, b) →
    (fullX s a → fullX s b →
      exec i s = .next (s.goTo (if taken then s.regs.pc + (o.signExtend 64 <<< 1) else s.regs.pc + 4))) ∧
    (¬ (fullX s a ∧ fullX s b) →
      ∃ t, exec i s = .next t ∧ t.hart.wait = .register ∧ t.regs = s.regs ∧ sameTrapState s t ∧ sameDevice s t)

/-- R358: JAL and JALR write the address after themselves and go to their targets; JALR reads its source before it writes the
link, and clears bit 0 of the target. -/
def Sys2Proof.Claims.JumpLinks : Prop :=
  (∀ (k : BitVec 19) (d : Reg) (s : State), fullX s d →
    exec (.jal k d) s =
      .next ((mapRegs s (fun r => r.setX d (s.regs.pc + 4))).goTo (s.regs.pc + (k.signExtend 64 <<< 1)))) ∧
  (∀ (k : BitVec 14) (a d : Reg) (s : State), fullX s a → fullX s d →
    exec (.jalr k a d) s =
      .next ((mapRegs s (fun r => r.setX d (s.regs.pc + 4))).goTo ((s.regs.getX a + k.signExtend 64) &&& ~~~1#64)))

/-! ## Scalar loads and stores -/

namespace Sys2Proof.Claims

/-- A scalar load: SZ, base register, destination, offset. -/
def loadForm (i : Instr) (s : State) : Option (BitVec 3 × Reg × Reg × Word) :=
  match i with
  | .ld k _ sz a d => some (sz, a, d, k.signExtend 64)
  | .cLd k d => (lastX s.regs).map (fun a => (3, a, d, BitVec.ofNat 64 (8 * k.toNat)))
  | _ => none

/-- A scalar store: bytes, base register, data register, offset. -/
def storeForm (i : Instr) (s : State) : Option (Nat × Reg × Reg × Word) :=
  match i with
  | .st k _ sz a d => some (2 ^ sz.toNat, a, d, k.signExtend 64)
  | .cSt k d => (lastX s.regs).map (fun a => (8, a, d, BitVec.ofNat 64 (8 * k.toNat)))
  | _ => none

/-- Bytes of an access by its SZ: 1, 2, 4 or 8. -/
def szBytes (sz : BitVec 3) : Nat := 2 ^ (sz.toNat % 4)

/-- A value of SZ's bytes in 64 bits: b, h and w are sign-extended (R287). -/
def szValue (sz : BitVec 3) (v : Nat) : Word :=
  if sz = 0 then (BitVec.ofNat 8 v).signExtend 64
  else if sz = 1 then (BitVec.ofNat 16 v).signExtend 64
  else if sz = 2 then (BitVec.ofNat 32 v).signExtend 64
  else BitVec.ofNat 64 v

/-- No store of this hart whose data has not arrived stands between it and a load of [va, va + n) (04 R67). -/
abbrev clearOfQueues (s : State) (va n : Nat) : Prop := s.loadHazard false va n = false

/-- The scalar access [va, va + n) is aligned and translates to the bytes from `key` up, for a hart of one of the device's 256 fronts
(02 R10). -/
abbrev reaches (s : State) (acc : Acc) (va n key : Nat) : Prop :=
  s.fid < 256 ∧ va % n = 0 ∧ scalarByte s s.fid s.ctx acc s.priv va = .ok key

/-- No write of a different size by another agent races with a read of the `n` bytes at `key`, earlier or still to come (08 R152-R154; log
entry 73). -/
abbrev noRace (s : State) (n key : Nat) : Prop := ∀ j, j < n → s.stands s.agent n (key + j) = true

/-- Nor does one race with a write of them, and none of them is the hardware's own (03 R24; log entry 72). -/
abbrev allLand (s : State) (n key : Nat) : Prop := ∀ j, j < n → s.lands s.agent n (key + j) = true

/-- The RCBs and rings of the ACTIVE regions lie in the window, so that no write of memory changes which bytes they are. -/
abbrev controlInWindow (s : State) : Prop :=
  ∀ e ∈ s.regions, e.2.status = 1 → e.2.rcb + 256 ≤ 2 ^ 42 ∧ e.2.ring + 64 * e.2.ringlen ≤ 2 ^ 42

end Sys2Proof.Claims

/-- R361, R287, R67, R68: a load whose address is aligned, translates and reads without MIXSIZE or ECC fills x[d] with the bytes that
the hart sees there (its own buffered stores, over those that wait in its store queues with their data, over its ticket's bytes,
over memory), extended as SZ says, and passes; no byte of memory changes. In a turn that loads late, in unprivileged mode, x[d] is
empty instead and the value stands last among the pending fills: that its value is the one read as it issues, and that it lands in
order, are the model's choices (log entries 4 and 62). -/
def Sys2Proof.Claims.LoadResult : Prop :=
  ∀ (i : Instr) (s : State) (sz : BitVec 3) (a d : Reg) (off : Word) (key : Nat) (vis : List Byte),
    loadForm i s = some (sz, a, d, off) → s.isExec = false → fullX s a → fullX s d →
    reaches s .read (s.regs.getX a + off).toNat (szBytes sz) key →
    clearOfQueues s (s.regs.getX a + off).toNat (szBytes sz) →
    s.readVisible (szBytes sz) ⟨(s.regs.getX a + off).toNat, key, szBytes sz⟩ = .ok vis →
    ∃ t, exec i s = .next t ∧ t.mem = s.mem ∧ t.hart.buf = s.hart.buf ∧ sameTrapState s t ∧
      (let v := szValue sz (ofBytes (pieceBytes s ⟨(s.regs.getX a + off).toNat, key, szBytes sz⟩ vis))
       if s.late = true ∧ d ≠ 0 ∧ s.priv = false then
         t.regs.emptyX d = true ∧ t.hart.fills = s.hart.fills ++ [{ vec := false, reg := d.toNat, val := v.toNat }] ∧
         t.regs.pc = (passed i s.regs).pc
       else t.regs = passed i (s.regs.setX d v))

/-- R149, R153, R287: where the hart has buffered nothing, no store of it waits with its data, it runs under no ticket and no race
touches the bytes, what the load above sees is memory itself. -/
def Sys2Proof.Claims.LoadSeesMemory : Prop :=
  ∀ (s : State) (va key n : Nat) (vis : List Byte),
    s.hart.buf = [] → s.queuedParts false = [] → s.ticket = 0 → noRace s n key → s.readVisible n ⟨va, key, n⟩ = .ok vis →
    pieceBytes s ⟨va, key, n⟩ vis = s.mem.bytes key n

namespace Sys2Proof.Claims

/-- A buffered store writes a byte of memory. -/
def writesByte (key : Nat) (b : Buffered) : Prop :=
  match b with
  | .global _ k _ d _ => k ≤ key ∧ key < k + d.length
  | .part false _ k _ _ _ => k = key
  | _ => False

/-- What a CR of ticket `T` reads at window byte `va`, whose place in memory is `key`: a FIDDLE ticket's prediction; what the ticket itself has
written in its output ranges; what the parent of a CHAIN ticket has written in the input range; memory elsewhere (12 R234). -/
def ticketByte (s : State) (T : Ticket) (va key : Nat) : Byte :=
  if T.chain = false ∧ T.buf ≤ va ∧ va < T.buf + T.count * (if T.fmt = 0 then 4 else 2) then T.pred.get 0 va
  else if (∃ r ∈ T.outs, r.1 ≤ va ∧ va < r.1 + r.2) ∧ va ∈ T.written then T.shadow.get 0 va
  else if T.chain = true ∧ T.inBase ≤ va ∧ va < T.inBase + T.inLen ∧ va ∈ (s.ticketAt T.parent).written then
    (s.ticketAt T.parent).shadow.get 0 va
  else s.mem.get 0 key

end Sys2Proof.Claims

/-- R73, R149: a load sees the stores that its strip has buffered: a byte that one of them writes, and none after it, reads as that store
left it; and the bytes that the strip has just stored read as they were stored. -/
def Sys2Proof.Claims.LoadSeesStore : Prop :=
  (∀ (s : State) (p : Piece) (vis : List Byte) (i a k n : Nat) (d : List Byte) (pc : Word) (pre post : List Buffered),
    s.hart.buf = pre ++ .global a k n d pc :: post → i < p.len → k ≤ p.key + i → p.key + i < k + d.length →
    (∀ b ∈ post, ¬ writesByte (p.key + i) b) → (pieceBytes s p vis)[i]? = d[p.key + i - k]?) ∧
  (∀ (s : State) (va key n : Nat) (d : List Byte) (pc : Word) (pre : List Buffered) (vis : List Byte),
    s.hart.buf = pre ++ [.global va key n d pc] → d.length = n → pieceBytes s ⟨va, key, n⟩ vis = d)

/-- R234: what a load of a CR of a ticket sees, where its strip has buffered nothing, none of its stores waits with its data and no race
touches the bytes: its prediction, its own shadow, its parent's shadow, or memory. -/
def Sys2Proof.Claims.LoadUnderTicket : Prop :=
  ∀ (s : State) (va key n : Nat) (vis : List Byte),
    s.hart.buf = [] → s.queuedParts false = [] → s.ticket ≠ 0 → noRace s n key → s.readVisible n ⟨va, key, n⟩ = .ok vis →
    pieceBytes s ⟨va, key, n⟩ vis = (List.range n).map (fun i => ticketByte s (s.ticketAt s.ticket) (va + i) (key + i))

/-- R390, R73: in unprivileged mode a store whose address is aligned and translates goes to the strip's buffer, whole, with its
address, size and pc; the hart passes; no byte of memory and no register but the pc changes until the strip commits. -/
def Sys2Proof.Claims.StoreBuffered : Prop :=
  ∀ (i : Instr) (s : State) (n : Nat) (a d : Reg) (off : Word) (key : Nat),
    storeForm i s = some (n, a, d, off) → s.isExec = false → s.priv = false → fullX s a → fullX s d →
    reaches s .write (s.regs.getX a + off).toNat n key →
    (s.ticket = 0 ∨ ∀ j, j < n → (s.ticketAt s.ticket).outputs ((s.regs.getX a + off).toNat + j) = true) →
    bufferBlocks (s.hart.buf ++
      [.global (s.regs.getX a + off).toNat key n (toBytes n (s.regs.getX d).toNat) s.regs.pc]) ≤ 1024 →
    ∃ t, exec i s = .next t ∧
      t.hart.buf = s.hart.buf ++ [.global (s.regs.getX a + off).toNat key n (toBytes n (s.regs.getX d).toNat) s.regs.pc] ∧
      t.regs = passed i s.regs ∧ sameTrapState s t ∧ sameDevice s t

/-- R390, R245, R322: in privileged mode, under no ticket, a store writes memory at once: the `n` bytes from `key` hold the low bytes
of x[d], and every other byte of memory is as before. One to a word that cannot be read traps ECC with its address. -/
def Sys2Proof.Claims.StorePrivileged : Prop :=
  ∀ (i : Instr) (s : State) (n : Nat) (a d : Reg) (off : Word) (key : Nat),
    storeForm i s = some (n, a, d, off) → s.isExec = false → s.priv = true → s.ticket = 0 → fullX s a → fullX s d →
    reaches s .write (s.regs.getX a + off).toNat n key → s.mixed s.ctx s.agent n key n = false →
    (s.poisoned key n = false → allLand s n key →
      ∃ t, exec i s = .next t ∧ t.mem.bytes key n = toBytes n (s.regs.getX d).toNat ∧ sameBytesOutside s t key n ∧
        t.regs = passed i s.regs ∧ sameTrapState s t) ∧
    (s.poisoned key n = true → exec i s = .next (takeTrap s 0x19 (s.regs.getX a + off).toNat s.regs.pc false))

/-- R73, R75, R322, R443: the commit of a strip that holds one store of bytes writes them to memory where the store was translated to, while
the maps still let it, and empties the buffer; every other byte of memory is as before. Where they stand in a word that cannot be
read, the store traps ECC at its own pc. (That a buffered store is checked against the maps as they stand at the commit is the
model's reading, log entry 18.) -/
def Sys2Proof.Claims.CommitWritesStore : Prop :=
  ∀ (s : State) (va key n : Nat) (d : List Byte) (pc : Word),
    s.priv = false → s.ticket = 0 → s.front.drain = none → s.hart.buf = [.global va key n d pc] → s.hart.reads = [] →
    queueAhead s = false → mayReach s s.fid s.ctx .write false va key = true → s.mixed s.ctx s.agent n key d.length = false →
    (s.poisoned key d.length = false → (∀ j, j < d.length → s.lands s.agent n (key + j) = true) →
      ∃ t, commitStrip s = .ok t ∧ t.mem.bytes key d.length = d ∧ sameBytesOutside s t key d.length ∧ t.hart.buf = [] ∧
        t.regs = s.regs) ∧
    (s.poisoned key d.length = true → commitStrip s = .error (.trapAt 0x19 va pc))

/-- R75: a strip that has taken a byte which another agent has changed since, before a store of its own is in memory, does not
commit: it is rolled back to its checkpoint and runs again, with no trap and nothing stored; after two such reruns it holds its
leases. (That a byte is compared by its value and its place, and that one which no longer translates there counts as changed, is the
model's reading, log entry 18.) -/
def Sys2Proof.Claims.BrokenLeaseReruns : Prop :=
  ∀ (s : State) (l : Lease), s.priv = false → s.front.drain = none → commitWaits s = false → l ∈ s.hart.reads →
    l.holds s s.fid s.ctx false = false →
    commitStrip s = .error .rerun ∧
    (let t := rerunStrip s
     t.regs = s.hart.ckpt ∧ t.hart.buf = [] ∧ t.hart.reads = [] ∧ t.mem = s.mem ∧ t.hart.priv = false ∧
     t.hart.reruns = s.hart.reruns + 1 ∧ (t.hart.holds = true ↔ 2 ≤ s.hart.reruns + 1))

/-- R322: a scalar load or store whose address is no multiple of its size traps MISALIGN with that address, at its own pc, and
does nothing else. -/
def Obligations.MisalignedAccessTraps : Prop :=
  (∀ (i : Instr) (s : State) (sz : BitVec 3) (a d : Reg) (off : Word),
    loadForm i s = some (sz, a, d, off) → s.isExec = false → fullX s a →
    (s.regs.getX a + off).toNat % szBytes sz ≠ 0 →
    exec i s = .next (takeTrap s 0x03 (s.regs.getX a + off).toNat s.regs.pc false)) ∧
  (∀ (i : Instr) (s : State) (n : Nat) (a d : Reg) (off : Word),
    storeForm i s = some (n, a, d, off) → s.isExec = false → fullX s a → fullX s d →
    (s.regs.getX a + off).toNat % n ≠ 0 →
    exec i s = .next (takeTrap s 0x03 (s.regs.getX a + off).toNat s.regs.pc false))

/-- R68: a pending fill lands in its register, which is full from then on with the value that was loaded; the hart that waited
for a register waits no more. -/
def Sys2Proof.Claims.FillLands : Prop :=
  ∀ (s : State) (d : Reg) (v : Nat) (old : Bool) (fs : List Fill),
    s.hart.fills = { vec := false, reg := d.toNat, val := v, old := old } :: fs → d ≠ 0 →
    (landFill s).regs.getX d = BitVec.ofNat 64 v ∧ (landFill s).regs.emptyX d = false ∧ (landFill s).hart.fills = fs ∧
    (landFill s).hart.wait ≠ .register ∧ (∀ k : Reg, k ≠ d → (landFill s).regs.getX k = s.regs.getX k) ∧
    sameDevice s (landFill s)

/-- The sources of an instruction of INT, MULDIV or the immediates in the order A, B, with their policies (15 R285): the fields A and B
of the register forms have a policy bit each, and the source of an immediate form waits. -/
def Sys2Proof.Claims.policies (i : Instr) (f : XForm) : List (Reg × Bool) :=
  match i with
  | .add p q b a _ | .sub p q b a _ | .and p q b a _ | .or p q b a _ | .xor p q b a _ | .shl p q b a _ | .shr p q b a _
  | .sha p q b a _ | .slt p q b a _ | .sltw p q b a _ | .min p q b a _ | .max p q b a _ | .minw p q b a _ | .maxw p q b a _
  | .scadd p q _ b a _ | .mul p q b a _ | .mulh p q b a _ | .mulhw p q b a _ | .div p q b a _ | .divw p q b a _
  | .rem p q b a _ | .remw p q b a _ => [(a, p), (b, q)]
  | .clz p a _ | .ctz p a _ | .popc p a _ => [(a, p)]
  | _ => f.srcs.map (fun a => (a, false))

/-- R68, R69: an instruction of INT, MULDIV or the immediates that is not ready. Where the source of a field A or B is empty and
the field's policy is 1, it traps EMPTYSRC with the number of the first such register, and has no effect; otherwise (an empty
source of policy 0, an empty source of an immediate form, an empty destination) the hart waits, with every register, the trap
state and the device as they were. -/
def Sys2Proof.Claims.EmptyRegisterWaits : Prop :=
  ∀ (i : Instr) (s : State) (f : XForm), intForm i s = some f → ¬ f.ready s →
    (match (policies i f).find? (fun x => x.2 && s.regs.emptyX x.1) with
     | some x => exec i s = .next (takeTrap s 0x09 x.1.toNat s.regs.pc false)
     | none => ∃ t, exec i s = .next t ∧ t.hart.wait = .register ∧ t.regs = s.regs ∧ sameTrapState s t ∧ sameDevice s t)

/-! ## Read-modify-writes -/

namespace Sys2Proof.Claims

/-- No store-queue store of a PAIR comes before an operation of this hart that follows every earlier access (04 R65, R76); while
DEADLOCK holds the execute hart stopped, none is waited for from the first whose data that hart would bring (the model's choice: log
entry 61). -/
abbrev queuesClear (s : State) : Prop :=
  queueAhead s = false ∨ (s.priv = true ∧ s.front.e.stopped = true ∧ s.front.pairFirst = false)

/-- An atomic access to the `n` bytes at `key` reads and writes them: it translates for both, no race and no failing read
stands in its way, none of them is the hardware's own, and no store-queue store of a PAIR comes before it. -/
abbrev atomicReady (s : State) (va n key : Nat) : Prop :=
  reaches s .both va n key ∧ s.mixed s.ctx s.agent n key n = false ∧ s.poisoned key n = false ∧
  (∀ j, j < n → ({ s with order := s.order.acquire s.agent key } : State).stands s.agent n (key + j) = true ∧
    s.hardwareOwned (key + j) = false) ∧
  queuesClear s

/-- The nine functions of R155 on patterns of `w` bits. -/
def atomicValue {w : Nat} (f : Nat) (old v : BitVec w) : BitVec w :=
  if f = 0 then old + v
  else if f = 1 then old &&& v
  else if f = 2 then old ||| v
  else if f = 3 then old ^^^ v
  else if f = 4 then v
  else if f = 5 then (if old.toInt ≤ v.toInt then old else v)
  else if f = 6 then (if old.toInt ≤ v.toInt then v else old)
  else if f = 7 then (if old.toNat ≤ v.toNat then old else v)
  else (if old.toNat ≤ v.toNat then v else old)

/-- The word that an AMO of `n` bytes leaves. -/
def atomicWord (f n old v : Nat) : Nat :=
  if n = 4 then (atomicValue f (BitVec.ofNat 32 old) (BitVec.ofNat 32 v)).toNat
  else (atomicValue f (BitVec.ofNat 64 old) (BitVec.ofNat 64 v)).toNat

end Sys2Proof.Claims

/-- R155, R156, R327: under no ticket, in a turn that does not load late, an AMO writes the function of the old word and x[b]
to memory and the old word, sign-extended, to x[d]; every other byte of memory is as before. -/
def Sys2Proof.Claims.AtomicResult : Prop :=
  ∀ (p q sz : Bool) (f b a d : Reg) (s : State) (key : Nat),
    f.toNat ≤ 8 → s.isExec = false → Quiet s → fullX s a → fullX s b → fullX s d → s.ticket = 0 → s.late = false →
    atomicReady s (s.regs.getX a).toNat (if sz then 8 else 4) key →
    ∃ t, exec (.amo p q sz f b a d) s = .next t ∧
      (let n := if sz then 8 else 4
       let old := ofBytes (s.mem.bytes key n)
       t.mem.bytes key n = toBytes n (atomicWord f.toNat n old (s.regs.getX b).toNat) ∧ sameBytesOutside s t key n ∧
       t.regs = passed (.amo p q sz f b a d)
         (s.regs.setX d (if sz then BitVec.ofNat 64 old else (BitVec.ofNat 32 old).signExtend 64))) ∧
      sameTrapState s t

/-- R334: a CAS stores x[b] where memory holds the low bytes of x[d], and otherwise changes no byte of memory; either way x[d]
takes the old word, sign-extended. -/
def Sys2Proof.Claims.CompareAndSwapResult : Prop :=
  ∀ (p q sz : Bool) (b a d : Reg) (s : State) (key : Nat),
    s.isExec = false → Quiet s → fullX s a → fullX s b → fullX s d → s.ticket = 0 → s.late = false →
    atomicReady s (s.regs.getX a).toNat (if sz then 8 else 4) key →
    ∃ t, exec (.cas p q sz b a d) s = .next t ∧
      (let n := if sz then 8 else 4
       let old := ofBytes (s.mem.bytes key n)
       (if old = (s.regs.getX d).toNat % 2 ^ (8 * n) then t.mem.bytes key n = toBytes n (s.regs.getX b).toNat
        else t.mem.bytes key n = s.mem.bytes key n) ∧ sameBytesOutside s t key n ∧
       t.regs = passed (.cas p q sz b a d)
         (s.regs.setX d (if sz then BitVec.ofNat 64 old else (BitVec.ofNat 32 old).signExtend 64))) ∧
      sameTrapState s t

/-! ## State registers -/

namespace Sys2Proof.Claims

/-- A state number that the hart may read: allocated, and privileged from 0x100 up (15 R295). -/
abbrev mayRead (s : State) (n : Nat) (old : Word) : Prop := s.readState n = some old ∧ (n < 0x100 ∨ s.priv = true)

/-- The bits that a write of a state register without behaviour of its own leaves (15 R295, R296; 13 R242). -/
def plainMask (n : Nat) : Option Word :=
  if n = 0x004 then some 0x1F
  else if n = 0x006 then some 0xFFFFFFFF
  else if n = 0x007 then some 0x7
  else if n = 0x00A then some (BitVec.allOnes 64)
  else if n = 0x00F then some 0xFFFF
  else if n = 0x014 then some 0x8000001FFFFFFFFF
  else if n = 0x015 then some (BitVec.allOnes 64)
  else if n = 0x100 then some 0xFFFFFFFFFFFFFFFC
  else if n = 0x108 then some 1
  else if n = 0x10A then some 0xFFFFFFFF
  else if n = 0x10B then some 0x3FFFFFF0000
  else none

/-- SWR, SSET, SCLR: number, source, destination, and the new value from the old one and x[a]. -/
def writeForm : Instr → Option (BitVec 12 × Reg × Reg × (Word → Word → Word))
  | .swr n a d => some (n, a, d, fun _ u => u)
  | .sset n a d => some (n, a, d, fun old u => old ||| u)
  | .sclr n a d => some (n, a, d, fun old u => old &&& ~~~u)
  | _ => none

/-- The numbers whose writes are ignored (15 R296). -/
def readOnly (n : Nat) : Bool :=
  [0x000, 0x001, 0x002, 0x003, 0x008, 0x00B, 0x00C, 0x00D, 0x00E, 0x010, 0x011, 0x012, 0x013, 0x101, 0x102, 0x103, 0x104].contains n
    || (0x020 ≤ n && n < 0x040)

end Sys2Proof.Claims

/-- R387, R295: SRD writes what the state register reads as to x[d], and changes no other register and no byte of memory. -/
def Sys2Proof.Claims.StateReadResult : Prop :=
  ∀ (n : BitVec 12) (d : Reg) (s : State) (old : Word), mayRead s n.toNat old → fullX s d →
    ∃ t, exec (.srd n d) s = .next t ∧ t.regs = passed (.srd n d) (s.regs.setX d old) ∧ t.mem = s.mem ∧ t.dev = s.dev ∧
      t.ctxs = s.ctxs ∧ t.cores = s.cores ∧ sameTrapState s t

/-- R296, R377, R389, R392: SWR, SSET and SCLR write x[d] with the old value; a register without behaviour of its own then
reads as its writable bits of the new value, one that is read-only as before; memory is as before. -/
def Sys2Proof.Claims.StateWriteResult : Prop :=
  ∀ (i : Instr) (n : BitVec 12) (a d : Reg) (f : Word → Word → Word) (s : State) (old : Word),
    writeForm i = some (n, a, d, f) → mayRead s n.toNat old → fullX s a → fullX s d →
    (∀ k, plainMask n.toNat = some k →
      ∃ t, exec i s = .next t ∧ t.readState n.toNat = some (f old (s.regs.getX a) &&& k) ∧
        t.regs.getX d = (if d = 0 then 0 else old) ∧ t.regs.pc = (passed i s.regs).pc ∧ t.mem = s.mem) ∧
    (readOnly n.toNat = true → exec i s = .next ((mapRegs s (fun r => r.setX d old)).advance 4))

/-! ## Calls, traps and privilege -/

namespace Sys2Proof.Claims

/-- The instructions that trap PRIV in unprivileged mode (15 R282, 14 R279). -/
def needsPrivilege : Instr → Bool
  | .rett => true
  | .idle .. => true
  | .freeze .. => true
  | .thaw .. => true
  | .scanrd .. => true
  | .tlbinv .. => true
  | .vpmset .. => true
  | .vpminv .. => true
  | .srd n _ => 0x100 ≤ n.toNat && n.toNat ≤ 0x10B
  | .swr n _ _ => 0x100 ≤ n.toNat && n.toNat ≤ 0x10B
  | .sset n _ _ => 0x100 ≤ n.toNat && n.toNat ≤ 0x10B
  | .sclr n _ _ => 0x100 ≤ n.toNat && n.toNat ≤ 0x10B
  | _ => false

/-- The fault record of the current hart can be written, its context has a handler, and its CR does not run ahead of one whose
queue drains (04 R81). -/
abbrev trapReady (s : State) (ps : List Piece) : Prop :=
  s.priv = false ∧ s.front.drain = none ∧ (s.ctxAt s.ctx).tvec.extractLsb' 2 62 ≠ 0 ∧ windowPieces s s.ctx .write s.recordAddr 128 = .ok ps

end Sys2Proof.Claims

/-- R282: a privileged instruction in unprivileged mode traps PRIV with its own bits, at its own pc, and does nothing else. -/
def Obligations.PrivilegeTraps : Prop :=
  ∀ (i : Instr) (s : State), needsPrivilege i = true → s.priv = false →
    exec i s = .next (takeTrap s 0x02 i.bits.toNat s.regs.pc false)

/-- R244, R245, R70: taking a trap in unprivileged mode, with a handler and a fault record that can be written. `tcause`, `tval`
and `tpc` name the trap, ASYNC tells its kind, ROLE the hart's part, PRIV is set, the hart goes on at `tvec`, waits for nothing and has nothing
buffered or popped; every register but the pc is as the strip checkpoint holds it; `kvblk` is saved and kept; memory changes in
the 128 bytes of the fault record alone. -/
def Sys2Proof.Claims.TrapEntry : Prop :=
  ∀ (s : State) (cause val : Nat) (pc : Word) (async : Bool) (ps : List Piece), trapReady s ps →
    (let t := takeTrap s cause val pc async
     t.hart.tcause = BitVec.ofNat 8 cause ∧ t.hart.tval = BitVec.ofNat 64 val ∧ t.hart.tpc = pc &&& ~~~1#64 ∧
     t.hart.tasync = async ∧ t.hart.trole = BitVec.ofNat 2 s.role ∧ t.hart.priv = true ∧ t.hart.wait = .none ∧ t.hart.buf = [] ∧ t.hart.popped = [] ∧
     t.hart.kvSaved = s.hart.kvblk ∧ t.hart.kvblk = s.hart.kvblk ∧
     t.regs = { s.hart.ckpt with pc := (s.ctxAt s.ctx).tvec &&& ~~~3#64 } ∧
     (∀ k, (∀ p ∈ ps, k < p.key ∨ p.key + p.len ≤ k) → t.mem.get 0 k = s.mem.get 0 k) ∧ t.ctxs = s.ctxs)

/-- R249: where the fault record lies in one piece, its 128 bytes hold pc, tval, cause, ROLE, ticket, FLAGS with ASYNC alone, the
counts, the completion-record address and the sequence number of the engine command, the last watermark, and the CR with its
remaining weight and no save area, as the map gives them. Of a double trap FLAGS has DOUBLE and TERMINATED too, as the CR is
terminated. (That
the record, which the device writes of its own accord, races with no access is log entry 60.) -/
def Sys2Proof.Claims.TrapWritesRecord : Prop :=
  (∀ (s : State) (cause val : Nat) (pc : Word) (async : Bool) (ecomp eseq : Nat) (key : Nat),
    trapReady s [⟨s.recordAddr, key, 128⟩] →
    (let t := takeTrapWith s cause val pc async ecomp eseq
     let c := s.run.cr
     t.mem.bytes key 8 = toBytes 8 pc.toNat ∧ t.mem.bytes (key + 8) 8 = toBytes 8 val ∧
     t.mem.bytes (key + 16) 1 = toBytes 1 cause ∧ t.mem.bytes (key + 17) 1 = toBytes 1 s.role ∧
     t.mem.bytes (key + 18) 1 = toBytes 1 c.ticket ∧ t.mem.bytes (key + 19) 1 = [if async then 1 else 0] ∧
     t.mem.bytes (key + 20) 4 = toBytes 4 s.run.spawns ∧ t.mem.bytes (key + 24) 4 = toBytes 4 s.run.joins ∧
     t.mem.bytes (key + 28) 4 = toBytes 4 s.run.gather ∧ t.mem.bytes (key + 32) 8 = toBytes 8 ecomp ∧
     t.mem.bytes (key + 40) 8 = toBytes 8 eseq ∧ t.mem.bytes (key + 48) 8 = toBytes 8 s.run.wmaddr.toNat ∧
     t.mem.bytes (key + 56) 8 = toBytes 8 s.run.wmval.toNat ∧ t.mem.bytes (key + 64) 8 = toBytes 8 c.code.toNat ∧
     t.mem.bytes (key + 72) 8 = toBytes 8 c.frame.toNat ∧ t.mem.bytes (key + 80) 8 = toBytes 8 c.joinaddr.toNat ∧
     t.mem.bytes (key + 88) 8 = toBytes 8 s.run.cweight.toNat ∧ t.mem.bytes (key + 96) 4 = toBytes 4 c.tag.toNat ∧
     t.mem.bytes (key + 100) 2 = toBytes 2 c.region ∧ t.mem.bytes (key + 102) 1 = toBytes 1 c.lanemin ∧
     t.mem.bytes (key + 103) 1 = toBytes 1 c.lanemax ∧ t.mem.bytes (key + 104) 1 = toBytes 1 c.kind ∧
     t.mem.bytes (key + 105) 1 = toBytes 1 c.ticket ∧ t.mem.bytes (key + 106) 22 = List.replicate 22 0)) ∧
  (∀ (s : State) (cause val : Nat) (pc : Word) (async : Bool) (key : Nat), s.front.drain = none →
    (s.priv = true ∨ (s.ctxAt s.ctx).tvec.extractLsb' 2 62 = 0) →
    windowPieces s s.ctx .write s.recordAddr 128 = .ok [⟨s.recordAddr, key, 128⟩] →
    ∃ u : State, takeTrap s cause val pc async = (doubleTrap u cause) ∧
      u.mem.bytes (key + 19) 1 = [if async then 7 else 6] ∧ u.mem.bytes (key + 16) 1 = toBytes 1 cause)

/-- R245: a trap in privileged mode, in a context without a handler, or whose fault record cannot be written is a double trap: the CR is
terminated, its front holds none, and the host is told. -/
def Sys2Proof.Claims.DoubleTrap : Prop :=
  ∀ (s : State) (cause val : Nat) (pc : Word) (async : Bool), s.front.drain = none →
    (s.priv = true ∨ (s.ctxAt s.ctx).tvec.extractLsb' 2 62 = 0 ∨
      ∃ e, windowPieces s s.ctx .write s.recordAddr 128 = .error e) →
    (let t := takeTrap s cause val pc async
     (t.frontAt s.fid).run = none ∧ s.dev.events.length + s.dev.msix < t.dev.events.length + t.dev.msix)

/-- R246: TRAP and BREAK commit the strip so far, take the checkpoint after themselves, and trap TRAPCALL with x[a] and BREAKPT
with 0; they trap at their own pc. -/
def Sys2Proof.Claims.CallTraps : Prop :=
  (∀ (p : Bool) (a : Reg) (s : State), fullX s a → Quiet s → s.ticket = 0 →
    exec (.trap p a) s =
      .next (takeTrap (checkpoint ((settled s).advance 4)) 0x18 (s.regs.getX a).toNat s.regs.pc false)) ∧
  (∀ s : State, Quiet s → s.ticket = 0 →
    exec .brk s = .next (takeTrap (checkpoint ((settled s).advance 4)) 0x17 0 s.regs.pc false))

/-- R246, R374: RETT restores the checkpoint, `kvblk` and unprivileged mode: the hart goes on at the checkpoint's pc. Memory and
the contexts are as before. -/
def Sys2Proof.Claims.ReturnFromTrap : Prop :=
  ∀ s : State, s.priv = true →
    ∃ t, exec .rett s = .next t ∧ t.regs = s.hart.ckpt ∧ t.hart.priv = false ∧ t.hart.kvblk = s.hart.kvSaved ∧
      t.hart.wait = .none ∧ t.mem = s.mem ∧ t.ctxs = s.ctxs ∧ t.regions = s.regions ∧ t.dev = s.dev

/-- R357, R149: IFLUSH makes what the front fetches the memory as it stands, and changes no byte of it. (That what
it keeps is all of memory, by its places, and that a fetch checks the maps as they then stand, is log entry 49.) -/
def Sys2Proof.Claims.FlushResult : Prop :=
  ∀ s : State, Quiet s → queuesClear s →
    ∃ t, exec .iflush s = .next t ∧ t.front.image = s.mem ∧ t.mem = s.mem ∧ t.regs = passed .iflush s.regs ∧ sameTrapState s t

/-! ## The rest of SYS -/

namespace Sys2Proof.Claims

/-- The hart sleeps in an IDLE whose watched line is written, or not, as `woken` says. -/
abbrev idleWaits (s : State) (p q : Bool) (b a d : Reg) (woken : Bool) : Prop :=
  s.hart.wait = .idle ∧ s.hart.waitInstr = some (.idle p q b a d) ∧
  ((s.regs.getX b ≠ 0 ∧ s.lineWritten (s.regs.getX b).toNat s.hart.waitFrom = true) ↔ woken = true)

/-- The granule that a window address lies in (07 R125). -/
def granule (u : Word) : Nat := u.toNat / 2 ^ 26

end Sys2Proof.Claims

/-- R356: IDLE with no cycle limit and no watched line passes at once with 0 in x[d]; a sleeping hart passes with 1 when its line
has been written, and with 0 when its cycle limit has passed and the line has not. (The cycles are the
model's own steps: log entry 14.) -/
def Sys2Proof.Claims.IdleResult : Prop :=
  (∀ (p q : Bool) (b a d : Reg) (s : State), s.priv = true → fullX s a → fullX s b → fullX s d →
    s.regs.getX a = 0 → s.regs.getX b = 0 →
    exec (.idle p q b a d) s = .next ((mapRegs s (fun r => r.setX d 0)).advance 4)) ∧
  (∀ (p q : Bool) (b a d : Reg) (s : State), idleWaits s p q b a d true →
    exec .idleWake s = .next ((mapRegs s (fun r => r.setX d 1)).advance 4)) ∧
  (∀ (p q : Bool) (b a d : Reg) (s : State), idleWaits s p q b a d false → s.regs.getX a ≠ 0 →
    (s.regs.getX a).toNat ≤ s.cycle - s.hart.waitFrom →
    exec .idleTimeout s = .next ((mapRegs s (fun r => r.setX d 0)).advance 4))

namespace Sys2Proof.Claims

/-- Region `j` is an ACTIVE child of region `k`. -/
def childOf (s : State) (k j : Nat) : Prop :=
  (s.regionAt j).status = 1 ∧ j / 65536 = k / 65536 ∧ (s.regionAt j).parent = k % 65536 ∧ j ≠ k

/-- A job is the region `k` and its ACTIVE descendants (13 R259). -/
def inJob (s : State) (k j : Nat) : Prop := Relation.ReflTransGen (childOf s) k j

/-- The regions of a job, and the fronts that run a CR of it, are gated or not as `on` says; every other region and front is as before. -/
def gated (s t : State) (k : Nat) (on : Bool) : Prop :=
  (∀ j, inJob s k j → t.regionAt j = { s.regionAt j with frozen := on }) ∧ (∀ j, ¬ inJob s k j → t.regionAt j = s.regionAt j) ∧
  (∀ f r, (s.frontAt f).run = some r → inJob s k (regionKey r.ctx r.cr.region) → (t.frontAt f).frozen = on) ∧
  (∀ f, f ≠ s.fid → (∀ r, (s.frontAt f).run = some r → ¬ inJob s k (regionKey r.ctx r.cr.region)) → t.frontAt f = s.frontAt f)

end Sys2Proof.Claims

/-- R353, R394, R258-R261: FREEZE of a job that is ACTIVE, not frozen and does not hold the issuing CR's own region gates its regions, the
one named and its ACTIVE descendants, and every front that runs a CR of one; THAW of a frozen job releases them. A region that is not
ACTIVE, a FREEZE of a frozen job and a THAW of one that is not frozen do nothing. Memory, registers and other regions are as before. -/
def Sys2Proof.Claims.FreezeAndThaw : Prop :=
  ∀ (p : Bool) (a : Reg) (s : State) (k : Nat),
    s.priv = true → fullX s a → k = s.regionNamed (s.regs.getX a) → Table.wf {} s.regions = true →
    ((s.regionAt k).status = 1 → (s.regionAt k).frozen = false → ¬ inJob s k (regionKey s.ctx s.run.cr.region) →
      s.drainsIn (s.job k) = [] →
      ∃ t, exec (.freeze p a) s = .next t ∧ gated s t k true ∧ t.mem = s.mem ∧ t.regs = passed (.freeze p a) s.regs) ∧
    ((s.regionAt k).status = 1 → (s.regionAt k).frozen = true →
      (∃ t, exec (.thaw p a) s = .next t ∧ gated s t k false ∧ t.mem = s.mem ∧ t.regs = passed (.thaw p a) s.regs) ∧
      (¬ inJob s k (regionKey s.ctx s.run.cr.region) → exec (.freeze p a) s = .next (s.advance 4))) ∧
    ((s.regionAt k).status ≠ 1 → exec (.freeze p a) s = .next (s.advance 4)) ∧
    ((s.regionAt k).status ≠ 1 ∨ (s.regionAt k).frozen = false → exec (.thaw p a) s = .next (s.advance 4))

/-- R376, R262: SCANRD of a front that holds a CR of a frozen job writes the scanned word to x[d] and changes nothing else;
one of any other front, or whose address or index names no word, traps ILLEGAL. (How classes 2 and 3
split between the harts of a PAIR is log entry 38.) -/
def Sys2Proof.Claims.ScanResult : Prop :=
  ∀ (p q : Bool) (b a d : Reg) (s : State) (w : Word), s.priv = true → fullX s a → fullX s b → fullX s d →
    (let u := s.regs.getX a
     u.toNat < 2 ^ 13 → (s.frontAt (u.extractLsb' 0 8).toNat).scannable = true →
     s.scan (u.extractLsb' 0 8).toNat (u.extractLsb' 8 4).toNat (u.getLsbD 12) (s.regs.getX b).toNat = some w →
     exec (.scanrd p q b a d) s = .next ((mapRegs s (fun r => r.setX d w)).advance 4)) ∧
    (let u := s.regs.getX a
     let f := (u.extractLsb' 0 8).toNat
     2 ^ 13 ≤ u.toNat ∨ (s.frontAt f).frozen = false ∨ (s.frontAt f).run = none ∨
       s.scan f (u.extractLsb' 8 4).toNat (u.getLsbD 12) (s.regs.getX b).toNat = none →
     exec (.scanrd p q b a d) s = .next (takeTrap s 0x01 (Instr.bits (.scanrd p q b a d)).toNat s.regs.pc false))

namespace Sys2Proof.Claims

/-- Word `w` of a bit string. -/
def wordIs {n : Nat} (v : BitVec n) (w : Nat) (x : Word) : Prop := ∀ j, j < 64 → x.getLsbD j = v.getLsbD (64 * w + j)

/-- An entry header (13 R262): valid, SEW code, vl and base. -/
def headerIs (sew vl base : Nat) (x : Word) : Prop :=
  sew < 8 → vl < 2 ^ 16 → base < 2 ^ 42 →
  x.getLsbD 63 = true ∧ (x.extractLsb' 58 3).toNat = sew ∧ (x.extractLsb' 42 16).toNat = vl ∧ (x.extractLsb' 0 42).toNat = base

end Sys2Proof.Claims

/-- R262, R376: which word SCANRD reads, by its class and index; `ck` takes the strip checkpoint's copy of the registers and of the tiles'
states and cells, and an index out of range, or a class above 7, has none. Of a PAIR CR v0 to v7 are the access hart's, and v28 to v31
read 0 (log entry 38). An entry that a queue does not hold reads 0. -/
def Sys2Proof.Claims.ScanWords : Prop :=
  ∀ (s : State) (f i : Nat) (ck : Bool),
    (let F := s.frontAt f
     let regs (sl : Slot) : Regs := if ck then (F.hart sl).ckpt else (F.hart sl).regs
     let slot (high : Bool) : Slot := if high then .e else .a
     let tiles := if ck then F.e.ckTiles else F.theRun.tiles.map (fun k => (s.coreAt (f / 2)).tiles.get {} k)
     let entry (q e : Nat) : Option QEntry :=
       if q < 4 then ((F.e.popped.filter (fun x => x.1 == q)).map (fun x => x.2) ++ F.lq.get [] q)[e]? else (F.sqData.get [] (q - 4))[e]?
     let last (c : Nat) : Nat := [66, 8192, 8192, 4096, 8192 * tiles.length, 32768, 192, 196608].getD c 0
     (∀ c, c ≠ 1 → (s.scan f c ck i = none ↔ last c ≤ i)) ∧ (8192 ≤ i → s.scan f 1 ck i = none) ∧
     (∀ x, s.scan f 0 ck i = some x →
       (i < 64 → x = (regs (slot (decide (32 ≤ i)))).getX (BitVec.ofNat 5 i)) ∧
       (64 ≤ i → ∀ j, j < 64 → x.getLsbD j = (decide (j < 32) && !(regs (slot (decide (i = 65)))).xEmpty.getLsbD j))) ∧
     (i < 8192 →
       (let sl := slot (decide (4096 ≤ i))
        (i % 4096 = 0xFFF → s.scan f 1 ck i = some (regs sl).pc) ∧
        (i % 4096 = 0x011 → s.scan f 1 ck i = some (BitVec.ofNat 64 (tstateOf tiles))) ∧
        (i % 4096 ≠ 0xFFF → i % 4096 ≠ 0x011 →
          s.scan f 1 ck i = ({ s with fid := f, slot := sl }.setRegs (regs sl)).readState (i % 4096)))) ∧
     (∀ x, s.scan f 2 ck i = some x →
       (4 * F.grant ≤ i % 256 → x = 0) ∧
       (i % 256 < 4 * F.grant → F.theRun.cr.kind = 2 → 28 ≤ i / 256 → x = 0) ∧
       (i % 256 < 4 * F.grant → (F.theRun.cr.kind = 2 → i / 256 < 28) →
         wordIs ((regs (slot (!decide (F.theRun.cr.kind = 2 ∧ i / 256 < 8)))).v.get 0 (i / 256)) (i % 256) x)) ∧
     (∀ x, s.scan f 3 ck i = some x → wordIs ((regs .e).m.get 0 (i / 512)) (i % 512) x) ∧
     (∀ x, s.scan f 4 ck i = some x → ∃ t, tiles[i / 8192]? = some t ∧ wordIs t.cells (i % 8192) x) ∧
     (∀ x, s.scan f 5 ck i = some x →
       match entry (i / 4096) (i % 4096 / 256) with
       | some e => ∀ j, j < 64 → x.getLsbD j = e.bits.testBit (64 * (i % 256) + j)
       | none => x = 0) ∧
     (∀ x, s.scan f 6 ck i = some x →
       (i < 128 → match entry (i / 16) (i % 16) with | some e => headerIs e.sew e.vl 0 x | none => x = 0) ∧
       (128 ≤ i → match (F.sqAddr.get [] (i / 16 - 8))[i % 16]? with | some e => headerIs e.sew e.vl e.base x | none => x = 0)) ∧
     (∀ x, s.scan f 7 ck i = some x → x.toNat = ofBytes ((s.coreAt (f / 2)).scratch.bytes (8 * i) 8)))

/-- R127, R442: VPMSET writes the entry of one granule of the Vector Page Map where the map does not refuse it; VPMINV clears V in
the entries of a range; every other entry and every byte of memory is as before. -/
def Sys2Proof.Claims.PageMapResult : Prop :=
  (∀ (p q : Bool) (b a : Reg) (s : State), s.priv = true → queuesClear s → fullX s a → fullX s b →
    (s.regs.getX a).toNat < 2 ^ 42 → s.vpmRefused (granule (s.regs.getX a)) (s.regs.getX b) = false →
    ∃ t, exec (.vpmset p q b a) s = .next t ∧ t.dev.vpm.get 0 (granule (s.regs.getX a)) = s.regs.getX b ∧
      (∀ g, g ≠ granule (s.regs.getX a) → t.dev.vpm.get 0 g = s.dev.vpm.get 0 g) ∧ t.mem = s.mem ∧
      t.regs = passed (.vpmset p q b a) s.regs ∧ sameTrapState s t) ∧
  (∀ (p q : Bool) (b a : Reg) (s : State), s.priv = true → queuesClear s → fullX s a → fullX s b →
    (s.regs.getX a).toNat < 2 ^ 42 → Table.wf 0 s.dev.vpm = true →
    ∃ t, exec (.vpminv p q b a) s = .next t ∧
      (∀ g, (t.dev.vpm.get 0 g).getLsbD 23 =
        ((s.dev.vpm.get 0 g).getLsbD 23 &&
          !(decide (granule (s.regs.getX a) ≤ g) &&
            decide (g < granule (s.regs.getX a) + if s.regs.getX b = 0 then 65536 else (s.regs.getX b).toNat)))) ∧
      t.mem = s.mem ∧ t.regs = passed (.vpminv p q b a) s.regs ∧ sameTrapState s t)

/-- R395, R132: TLBINV with scope 0, 1 or 2 removes from every front the cached leaves in its scope, and no others. -/
def Sys2Proof.Claims.TlbInvalidation : Prop :=
  ∀ (p q : Bool) (b a : Reg) (s : State), s.priv = true → queuesClear s → fullX s a → fullX s b →
    (let v := s.regs.getX b
     v.toNat < 256 → v.extractLsb' 2 2 = 0 → v.extractLsb' 0 2 ≠ 3 →
     ∃ t, exec (.tlbinv p q b a) s = .next t ∧ t.mem = s.mem ∧ t.regs = passed (.tlbinv p q b a) s.regs ∧
       (∀ f, (t.frontAt f).tlb = (s.frontAt f).tlb.filter (fun l =>
         !scopeRemoves (v.extractLsb' 0 2).toNat (v.extractLsb' 4 4).toNat (s.regs.getX a).toNat l)))

/-- R132: the scopes of TLBINV: the page of a context that holds the address, every page of a context, and all. -/
def Sys2Proof.Claims.InvalidationScopes : Prop :=
  ∀ (ctx va : Nat) (e : TlbEntry),
    scopeRemoves 0 ctx va e = decide (e.ctx = ctx ∧ e.base = va / e.size * e.size) ∧
    scopeRemoves 1 ctx va e = decide (e.ctx = ctx) ∧ scopeRemoves 2 ctx va e = true

namespace Sys2Proof.Claims

/-- A permission that an access needs, of a read, a write and a fetch permission (07 R125, R130). -/
def permitted (acc : Acc) (r w x : Bool) : Prop :=
  (acc = .read → r = true) ∧ (acc = .write → w = true) ∧ (acc = .both → r = true ∧ w = true) ∧ (acc = .fetch → x = true)

/-- Pieces lie one after the other from an address on, of `n` bytes in all, each within `unit` bytes and where its first byte
translates. -/
def piecesOf (unit : Nat) (byte : Nat → Except Nat Nat) : Nat → Nat → List Piece → Prop
  | _, n, [] => n = 0
  | va, n, p :: ps =>
    p.va = va ∧ 1 ≤ p.len ∧ p.len ≤ n ∧ va % unit + p.len ≤ unit ∧ byte va = .ok p.key ∧ piecesOf unit byte (va + p.len) (n - p.len) ps

end Sys2Proof.Claims

/-- R123, R125, R142: what a window address of a context translates to. At and above 2^42 it is OUTWIN; an entry without V or the
context's bit is PAGEABS, one without the permission PAGEPERM; otherwise the byte lies in the stack and frame of the entry, or, of
covered storage, in its patch where one is allocated and is UNCOVERED where none is. A range translates exactly where each of its
bytes does, byte for byte, and otherwise fails as its lowest failing byte does. -/
def Sys2Proof.Claims.WindowTranslation : Prop :=
  (∀ (s : State) (f ctx va : Nat) (acc : Acc) (priv : Bool),
    (let e := s.dev.vpm.get 0 (va / 2 ^ 26)
     let r := vectorByte s ctx acc va
     let ok := permitted acc (e.getLsbD 21) (e.getLsbD 20) (e.getLsbD 19)
     (2 ^ 42 ≤ va → r = .error 0x06) ∧
     (va < 2 ^ 42 →
       scalarByte s f ctx acc priv va = r ∧
       (e.getLsbD 23 = false ∨ e.getLsbD (48 + ctx) = false → r = .error 0x04) ∧
       (e.getLsbD 23 = true → e.getLsbD (48 + ctx) = true →
         (¬ ok → r = .error 0x05) ∧
         (ok → e.getLsbD 22 = false →
           r = .ok ((e.extractLsb' 14 3).toNat * 2 ^ 37 + (e.extractLsb' 0 11).toNat * 2 ^ 26 + va % 2 ^ 26)) ∧
         (ok → e.getLsbD 22 = true → r = if s.dev.patches.get 0 (va / 2 ^ 16) = 0 then .error 0x07 else .ok (2 ^ 40 + va)))))) ∧
  (∀ (s : State) (ctx va n : Nat) (acc : Acc) (ps : List Piece), windowPieces s ctx acc va n = .ok ps →
    piecesOf 65536 (vectorByte s ctx acc) va n ps ∧
    ∀ i, i < n → ∃ p ∈ ps, p.va ≤ va + i ∧ va + i < p.va + p.len ∧ vectorByte s ctx acc (va + i) = .ok (p.key + (va + i - p.va))) ∧
  (∀ (s : State) (ctx va n c a : Nat) (acc : Acc), windowPieces s ctx acc va n = .error (c, a) →
    va ≤ a ∧ a < va + n ∧ vectorByte s ctx acc a = .error c ∧ ∀ i, va ≤ i → i < a → ∃ k, vectorByte s ctx acc i = .ok k) ∧
  (∀ (s : State) (f ctx va n : Nat) (acc : Acc) (priv : Bool) (ps : List Piece), scalarRange s f ctx acc priv va n = .ok ps →
    piecesOf 4096 (scalarByte s f ctx acc priv) va n ps)

/-- R123, R129-R131: what a scalar address at or above 2^42 translates to. Bits [63:48] that are not 0 are PAGEABS. The walk reads one
entry of each of four tables by nine bits of the address, from the root of the context; an entry that is not valid, has a reserved bit,
or has L or S64 where its level forbids them is PAGEABS; a leaf is of 2 MiB at level 2, aligned, and of 4 KiB or 64 KiB at level 1. Where
the 16 entries of a 64 KiB page are not the same, one of them is used. A leaf that does not permit the access is PAGEPERM. A front's
cached leaf that permits the access may be used, or the walk; one that does not permit it is walked again. (That the walk reads memory
without the hart's own buffered stores is the model's choice, log entry 83.) -/
def Sys2Proof.Claims.PageWalk : Prop :=
  (∀ (s : State) (f ctx va : Nat) (acc : Acc) (priv : Bool),
    (2 ^ 48 ≤ va → scalarByte s f ctx acc priv va = .error 0x04) ∧
    (2 ^ 42 ≤ va → va < 2 ^ 48 →
      (let cached := ((s.frontAt f).tlb).find? (fun e => decide (e.ctx = ctx ∧ e.base = va / e.size * e.size))
       let may (e : TlbEntry) : Prop := permitted acc e.r e.w e.x ∧ (priv = true ∨ e.u = true)
       let found := walk s ctx (hartAgent f s.slot) va
       let r := scalarByte s f ctx acc priv va
       let walked : Prop := (∀ c, found = .error c → r = .error c) ∧
         ∀ e, found = .ok e → (may e → r = .ok (e.pa + va % e.size)) ∧ (¬ may e → r = .error 0x05)
       (cached = none → walked) ∧
       (∀ e, cached = some e → (¬ may e → walked) ∧ (may e → r = .ok (e.pa + va % e.size) ∨ walked))))) ∧
  (∀ (s : State) (ctx g va : Nat), walk s ctx g va = walkFrom s ctx g va 4 ((s.ctxAt ctx).root.toNat * 4096)) ∧
  (∀ (s : State) (ctx g va table level : Nat), 1 ≤ level → level ≤ 4 →
    (let at' := if level = 1 then entryAt1 s table va else table + 8 * (va / 2 ^ (12 + 9 * (level - 1)) % 512)
     let r := walkFrom s ctx g va level table
     (∀ c, tableEntry s ctx g at' = .error c → r = .error c) ∧
     ∀ e, tableEntry s ctx g at' = .ok e →
       (let frame := (e.extractLsb' 12 28).toNat
        let page (size : Nat) : TlbEntry :=
          { ctx := ctx, base := va / size * size, size := size, pa := frame * 4096 / size * size,
            x := e.getLsbD 4, w := e.getLsbD 3, r := e.getLsbD 2, u := e.getLsbD 1 }
        let bad : Prop := e.getLsbD 0 = false ∨ e.getLsbD 5 = true ∨ e.extractLsb' 8 4 ≠ 0 ∨ e.extractLsb' 40 24 ≠ 0
        (bad → r = .error 0x04) ∧
        (¬ bad →
          (level = 1 → r = if e.getLsbD 6 then .ok (page (if e.getLsbD 7 then 65536 else 4096)) else .error 0x04) ∧
          (level ≠ 1 → e.getLsbD 7 = true → r = .error 0x04) ∧
          (level ≠ 1 → e.getLsbD 7 = false →
            r = if e.getLsbD 6 = false then walkFrom s ctx g va (level - 1) (frame * 4096)
              else if level = 2 ∧ frame % 512 = 0 then .ok (page (2 ^ 21)) else .error 0x04))))) ∧
  (∀ (s : State) (table va : Nat),
    (let own := table + 8 * (va / 4096 % 512)
     let first := table + 8 * (va / 65536 % 32 * 16)
     let word (a : Nat) : Nat := ofBytes (s.mem.bytes a 8)
     let member (a : Nat) : Prop := (word a).testBit 0 = true ∧ (word a).testBit 6 = true ∧ (word a).testBit 7 = true
     ((∀ j, j < 16 → word (first + 8 * j) = word own) ∨ (∀ j, j < 16 → ¬ member (first + 8 * j)) → entryAt1 s table va = own) ∧
     ∃ j, j < 16 ∧ entryAt1 s table va = first + 8 * j))

/-! ## Strips -/

namespace Sys2Proof.Claims

/-- The state in which an instruction that begins a strip acts: the strip so far has committed and its checkpoint is taken. -/
def fresh (s : State) : State := checkpoint (settled s)

/-- vl and x[d] take a length. -/
def lengthSet (d : Reg) (n : Nat) (r : Regs) : Regs := { r.setX d (BitVec.ofNat 64 n) with vl := BitVec.ofNat 16 n }

/-- The watermark at `va` reads at least `need` (08 R163), and no race or failing read stands in the way. -/
abbrev markReached (s : State) (va need key : Nat) : Prop :=
  reaches s .read va 8 key ∧ s.hart.buf = [] ∧ s.queuedParts false = [] ∧ s.mixed s.ctx s.agent 8 key 8 = false ∧ s.poisoned key 8 = false ∧
  (∀ j, j < 8 → ({ s with order := s.order.acquire s.agent key } : State).stands s.agent 8 (key + j) = true) ∧
  need ≤ ofBytes (s.mem.bytes key 8)

end Sys2Proof.Claims

/-- R378, R72: SETVL gives vl and x[d] the least of x[a] and VLMAX, in a fresh strip: the checkpoint is at the SETVL itself. -/
def Sys2Proof.Claims.SetVlResult : Prop :=
  ∀ (p : Bool) (a d : Reg) (s : State), Quiet s → fullX s a → fullX s d → (s.isExec = false ∨ a ≠ 0) →
    exec (.setvl p a d) s =
      .next ((mapRegs (fresh s) (lengthSet d (min (s.regs.getX a).toNat s.vlmax))).advance 4) ∧
    (s.priv = false → (fresh s).hart.ckpt = s.regs)

/-- R66, R378: in an execute hart SETVL of x0 takes the vl of the entry at the head of lq0. -/
def Sys2Proof.Claims.SetVlOfQueue : Prop :=
  ∀ (p : Bool) (d : Reg) (s : State) (e : QEntry) (es : List QEntry), Quiet s → fullX s d → s.isExec = true →
    s.front.lq.get [] 0 = e :: es →
    exec (.setvl p 0 d) s = .next ((mapRegs (fresh s) (lengthSet d (min e.vl s.vlmax))).advance 4)

/-- R378, R219: SETVLRE stops the strip at the next boundary of a block of `kvblk` positions. -/
def Sys2Proof.Claims.SetVlReResult : Prop :=
  ∀ (p q : Bool) (b a d : Reg) (s : State), Quiet s → fullX s a → fullX s b → fullX s d →
    exec (.setvlre p q b a d) s =
      .next ((mapRegs (fresh s) (lengthSet d
        (let vl := min (s.regs.getX a).toNat s.vlmax
         let k := s.hart.kvblk.toNat
         if k = 0 then vl else min vl (k - (s.regs.getX b).toNat % k)))).advance 4)

/-- R162, R163, R378: SETVLW passes where the watermark has reached `wmbase` + vl, and moves `wmbase` on by vl; at vl 0 it reads no
watermark. -/
def Sys2Proof.Claims.SetVlwResult : Prop :=
  ∀ (p q : Bool) (b a d : Reg) (s : State) (key : Nat), Quiet s → fullX s a → fullX s b → fullX s d → s.isExec = false →
    (let vl := min (s.regs.getX a).toNat s.vlmax
     (vl = 0 ∨ markReached s (s.regs.getX b).toNat (s.regs.wmbase.toNat + vl) key) →
     ∃ t, exec (.setvlw p q b a d) s = .next t ∧ t.mem = s.mem ∧ sameTrapState s t ∧
       t.regs = passed (.setvlw p q b a d)
         { lengthSet d vl s.regs with wmbase := s.regs.wmbase + BitVec.ofNat 64 vl })

/-- R163, R164: a hart that waits in SETVLW passes as SETVLW does once its watermark is reached, and traps WMSTALL with the
watermark's address when its wait has lasted `stallmax` cycles. -/
def Sys2Proof.Claims.SetVlwWaits : Prop :=
  ∀ (p q : Bool) (b a d : Reg) (s : State), s.hart.wait = .setvlw → s.hart.waitInstr = some (.setvlw p q b a d) →
    (∀ key : Nat, Quiet s → fullX s a → fullX s b → fullX s d → s.isExec = false →
      markReached s (s.regs.getX b).toNat (s.regs.wmbase.toNat + min (s.regs.getX a).toNat s.vlmax) key →
      ∃ t, exec .setvlwSatisfied s = .next t ∧ t.mem = s.mem ∧
        t.regs.vl = BitVec.ofNat 16 (min (s.regs.getX a).toNat s.vlmax) ∧ t.regs.pc = (passed (.setvlw p q b a d) s.regs).pc) ∧
    ((s.ctxAt s.ctx).stallmax ≠ 0 → (s.ctxAt s.ctx).stallmax.toNat ≤ s.cycle - s.hart.waitFrom →
      exec .wmstall s = .next (takeTrap s 0x12 (s.regs.getX b).toNat s.regs.pc false))

/-- R55, R379: SETVT with a legal vtype writes it and lowers vl to the new VLMAX; with any other it traps ILLEGAL. -/
def Sys2Proof.Claims.SetVtResult : Prop :=
  ∀ (v : BitVec 9) (s : State),
    (vtypeLegal v = true →
      exec (.setvt v) s =
        .next ((mapRegs (mapRegs s (fun r => { r with vtype := v })) (fun r =>
          { r with vl := BitVec.ofNat 16 (min s.regs.vl.toNat (mapRegs s (fun r => { r with vtype := v })).vlmax) })).advance 4)) ∧
    (vtypeLegal v = false → exec (.setvt v) s = .next (takeTrap s 0x01 (Instr.bits (.setvt v)).toNat s.regs.pc false))

/-- R54, R55: the legal vtypes: SEW 6, 8, 16, 32 or 64, and a FMT other than 0 at SEW 8 and 16 alone, where it is 1. -/
def Sys2Proof.Claims.LegalTypes : Prop :=
  ∀ v : BitVec 9, vtypeLegal v = true ↔
    (let sew := (v.extractLsb' 0 3).toNat
     let fmt := (v.extractLsb' 3 2).toNat
     sew ≤ 4 ∧ (fmt = 0 ∨ (fmt = 1 ∧ (sew = 1 ∨ sew = 2))))

namespace Sys2Proof.Claims

/-- What VLOOP finds at its pc: 1 to 16 instructions that it may capture, and a count in x[a] below 2^32. -/
abbrev loopReady (s : State) (a n : Reg) (l : List (Option Instr)) : Prop :=
  1 ≤ n.toNat ∧ n.toNat ≤ 16 ∧ s.captured (s.regs.pc.toNat + 4) n.toNat = .ok l ∧ badCapture s.regs a l = false ∧
  fullX s a ∧ (s.regs.getX a).toNat < 2 ^ 32

end Sys2Proof.Claims

/-- R78, R79, R432: VLOOP met for the first time, with elements to do, answers the state in which its first iteration starts: `loopi`
holds ACT, CNT (the count of captured instructions), VCAP (vl) and DONE = 0; vl is the least of VCAP, the elements to do and VLMAX;
the captured instruction after the VLOOP is next; and the strip before it has committed and a fresh one begins, whose checkpoint
is at the VLOOP itself with `loopi` as written (so that a rerun goes on at DONE). With none to do it sets vl to 0, clears ACT and
passes the captured instructions. No other register and no byte of memory changes. -/
def Sys2Proof.Claims.LoopBegins : Prop :=
  ∀ (p : Bool) (a n : Reg) (s : State) (l : List (Option Instr)), loopReady s a n l → Quiet s → s.regs.loop = none →
    s.regs.loopAct = false →
    (s.regs.getX a ≠ 0 → s.regs.vl ≠ 0 →
      ∃ t, exec (.vloop p a n) s = .next t ∧
        t.regs.loopAct = true ∧ t.regs.loopi.extractLsb' 48 5 = n ∧ t.regs.loopDone = 0 ∧ t.regs.loopCap = s.regs.vl.toNat ∧
        t.regs.vl.toNat = min s.regs.vl.toNat (min (s.regs.getX a).toNat s.vlmax) ∧
        t.regs = { s.regs with loopi := t.regs.loopi, vl := t.regs.vl, loop := some s.regs.pc, pc := s.regs.pc + 4 } ∧
        (s.priv = false → t.hart.ckpt = { s.regs with loopi := t.regs.loopi } ∧ t.hart.buf = [] ∧ t.hart.popped = []) ∧
        t.mem = s.mem) ∧
    (s.regs.getX a = 0 →
      ∃ t, exec (.vloop p a n) s = .next t ∧ t.regs.loopAct = false ∧
        t.regs = { s.regs with loopi := t.regs.loopi, vl := 0, pc := s.regs.pc + 4 + BitVec.ofNat 64 (4 * n.toNat) } ∧
        t.mem = s.mem)

namespace Sys2Proof.Claims

/-- What a base register advances by after an iteration (R78): vl elements of SEW bits, or vl strides. -/
def baseStep (r : Regs) : Option Reg → Word
  | none => BitVec.ofNat 64 (r.vl.toNat * (r.sew / 8))
  | some k => BitVec.ofNat 64 r.vl.toNat * r.getX k

/-- No stride register of the captured memory instructions is the base register of one. -/
abbrev stridesApart (ms : List (Reg × Option Reg)) : Prop := ∀ m ∈ ms, ∀ k, m.2 = some k → ∀ m' ∈ ms, m'.1 ≠ k

end Sys2Proof.Claims

/-- R78, R79: VLOOP met again after an iteration. DONE grows by the iteration's vl; the base register of each captured memory
instruction has advanced by vl elements, or by vl times its stride register, and no other x register has changed; and either the
next iteration starts, in a fresh strip whose checkpoint is at the VLOOP, at the least of VCAP, the elements left and VLMAX, or,
when all are done, ACT is cleared, vl stays that of the last iteration and the captured instructions are passed. `lastd`, every
vector register and memory are as before. -/
def Sys2Proof.Claims.LoopReturns : Prop :=
  ∀ (p : Bool) (a n : Reg) (s : State) (l : List (Option Instr)), loopReady s a n l → Quiet s →
    s.regs.loop = some s.regs.pc → s.regs.loopAct = true →
    (let done := (s.regs.loopDone + s.regs.vl.toNat) % 2 ^ 32
     let ms := capturedMem l
     ∃ t, exec (.vloop p a n) s = .next t ∧ t.regs.loopDone = done ∧ t.regs.loopCap = s.regs.loopCap ∧
       t.regs.loopi.extractLsb' 48 5 = n ∧ t.mem = s.mem ∧ t.regs.v = s.regs.v ∧ t.regs.lastd = s.regs.lastd ∧
       (stridesApart ms → ∀ m ∈ ms, m.1 ≠ 0 → t.regs.getX m.1 = s.regs.getX m.1 + baseStep s.regs m.2) ∧
       (∀ k : Reg, (∀ m ∈ ms, m.1 ≠ k) → t.regs.getX k = s.regs.getX k) ∧
       (if done < (s.regs.getX a).toNat then
          t.regs.pc = s.regs.pc + 4 ∧ t.regs.loopAct = true ∧ t.regs.loop = some s.regs.pc ∧
          t.regs.vl.toNat = min s.regs.loopCap (min ((s.regs.getX a).toNat - done) s.vlmax) ∧
          (s.priv = false →
            t.hart.ckpt = { t.regs with vl := s.regs.vl, loop := none, pc := s.regs.pc } ∧ t.hart.buf = [] ∧ t.hart.popped = [])
        else
          t.regs.pc = s.regs.pc + 4 + BitVec.ofNat 64 (4 * n.toNat) ∧ t.regs.loopAct = false ∧ t.regs.loop = none ∧
          t.regs.vl = s.regs.vl))

/-! ## Vector instructions -/

namespace Sys2Proof.Claims

/-- The first `n` elements of `w` bits that a source names: of a group of `c` registers, or of the entry at the head of a load
queue, past whose vl elements read 0 (04 R64). -/
def operand (s : State) (k : Reg) (c w n : Nat) : List Nat :=
  if s.isQueue k.toNat then
    match s.front.lq.get [] (k.toNat - 28) with
    | e :: _ => elems w (e.bits % 2 ^ (e.vl * w)) n
    | [] => []
  else elems w (groupBits s.regs.v s.cap k.toNat c) n

/-- The elements of a second operand: a group, the low bits of an x register, or an immediate (15 R284, R289). -/
def second (s : State) (c w n : Nat) : Second → List Nat
  | .v _ b => operand s b c w n
  | .x _ b => List.replicate n ((s.regs.getX b).toNat % 2 ^ w)
  | .imm k => List.replicate n ((k.signExtend 64).toNat % 2 ^ w)

/-- The x registers that a second operand names. -/
def secondX : Second → List Reg
  | .x _ b => [b]
  | .v .. => []
  | .imm _ => []

/-- A load queue whose head may be read as elements of `w` bits (04 R64, R74). -/
abbrev headReady (s : State) (q w : Nat) : Prop :=
  s.hart.popsSpent q = false ∧ (s.front.lq.get [] q).head?.any (fun e => !e.stop && sewBits e.sew == w) = true

/-- A source group of `c` registers, or queue, of `w`-bit elements is not empty (04 R68). -/
abbrev srcFull (s : State) (k : Reg) (c w : Nat) : Prop :=
  if s.isQueue k.toNat then headReady s (k.toNat - 28) w else ∀ j, j < c → s.regs.emptyV (k.toNat + j) = false

/-- It is legal too (04 R52, R57). -/
abbrev srcReady (s : State) (k : Reg) (c w : Nat) : Prop := s.badGroup k.toNat c = false ∧ srcFull s k c w

/-- A destination group: legal, and its registers full. -/
abbrev dstReady (s : State) (k : Reg) (c : Nat) : Prop :=
  s.badGroup k.toNat c = false ∧ (s.isQueue k.toNat = false → ∀ j, j < c → s.regs.emptyV (k.toNat + j) = false)

/-- Pop the head of a load queue; the strip keeps it for a rollback (04 R74). -/
def popOne (s : State) (q : Nat) : State :=
  match s.front.lq.get [] q with
  | [] => s
  | e :: es =>
    let t := s.setFront { s.front with lq := s.front.lq.set [] q es }
    t.setHart { t.hart with popped := t.hart.popped ++ [(q, e)] }

/-- Pop each queue that the sources name, once. -/
def popNamed (s : State) (ks : List Reg) : State :=
  (((ks.filter (fun k => s.isQueue k.toNat)).map (fun k => k.toNat - 28)).eraseDups).foldl popOne s

/-- A vector instruction that writes a group or pushes into a store queue: its sources with their registers and widths, x
sources, conditions on fields and vtype and on overlaps, destination, the elements it writes, and what else it changes. -/
structure VForm where
  srcs : List (Reg × Nat × Nat)
  xs : List Reg := []
  legal : Bool
  apart : Bool := true
  d : Reg
  n : Nat
  w : Nat
  outs : List Out
  post : Regs → Regs := id

/-- Everything that it needs holds. -/
abbrev VForm.ready (f : VForm) (s : State) : Prop :=
  (∀ g ∈ f.srcs, srcReady s g.1 g.2.1 g.2.2) ∧ (∀ k ∈ f.xs, fullX s k) ∧ f.legal = true ∧ f.apart = true ∧ dstReady s f.d f.n

/-- The registers that its sources name. -/
def VForm.names (f : VForm) : List Reg := f.srcs.map (fun g => g.1)

/-- The state after it where its destination is a group. -/
def VForm.result (f : VForm) (i : Instr) (s : State) : State :=
  (mapRegs ((popNamed s f.names).writeGroup f.d f.n f.w f.outs false) f.post).advance i.size

/-- The entry that it pushes where its destination is a queue (04 R64). -/
def VForm.entry (f : VForm) (s : State) : QEntry :=
  { vl := s.regs.vl.toNat, sew := widthCode f.w,
    bits := packElems f.w ((f.outs.map (fun o => match o with | .put v => v | _ => 0)).take s.regs.vl.toNat) }

/-- The store queue that it names has room, and an address entry that waits for this data agrees with it (04 R65). -/
abbrev VForm.room (f : VForm) (s : State) : Prop :=
  let q := f.d.toNat - 28
  (s.front.sqData.get [] q).length < 16 ∧
  (s.front.sqAddr.get [] q)[(s.front.sqData.get [] q).length]?.all
    (fun a => a.vl == s.regs.vl.toNat && a.sew == widthCode f.w) = true

/-- The state after it where its destination is a queue: the strip before it has committed and a fresh one begins after it
(04 R76). -/
def VForm.pushed (f : VForm) (i : Instr) (s : State) : State :=
  let u := popNamed (fresh s) f.names
  let q := f.d.toNat - 28
  let t := u.setFront { u.front with sqData := u.front.sqData.set [] q (u.front.sqData.get [] q ++ [f.entry s]) }
  fresh ((mapRegs t (fun r => f.post (r.lastV f.d))).advance i.size)

/-- What a family's forms answer, with a group or a queue for destination. -/
def answers (form : Instr → State → Option VForm) : Prop :=
  ∀ (i : Instr) (s : State) (f : VForm), form i s = some f → f.ready s →
    (s.isQueue f.d.toNat = false → exec i s = .next (f.result i s)) ∧
    (s.isQueue f.d.toNat = true → Quiet s → f.room s → exec i s = .next (f.pushed i s))

/-- Group size, element width and vl in force. -/
def grpNow (s : State) : Nat := s.regs.grp
def sewNow (s : State) : Nat := s.regs.sew
def vlNow (s : State) : Nat := s.regs.vl.toNat

/-- The source groups of va and a second operand at the current GRP and SEW. -/
def twoSrcs (s : State) (a : Reg) (o : Second) : List (Reg × Nat × Nat) :=
  (a, grpNow s, sewNow s) :: o.regs.map (fun b => (b, grpNow s, sewNow s))

/-- VINT: a function of two elements, with its events in vsflags. -/
def intShape (s : State) (o : Second) (m : Bool) (a d : Reg) (f : IntFn) : VForm :=
  let n := grpNow s
  let w := sewNow s
  let r := applyFn (f w) (s.regs.active m) (operand s a n w (vlNow s)) (second s n w (vlNow s) o)
  { srcs := twoSrcs s a o, xs := secondX o, legal := s.regs.sewCode != 0, d := d, n := n, w := w, outs := r.1,
    post := fun g => g.accrue r.2 }

/-- VINT and its compressed forms. -/
def intVector (i : Instr) (s : State) : Option VForm :=
  let last (b d : Reg) (f : IntFn) : Option VForm := (lastV s.regs).map (fun a => intShape s (.v false b) false a d f)
  match i with
  | .vaddVr _ q m b a d => some (intShape s (.v q b) m a d fnAdd)
  | .vaddVx _ q m b a d => some (intShape s (.x q b) m a d fnAdd)
  | .vaddVi _ m k a d => some (intShape s (.imm k) m a d fnAdd)
  | .vsubVr _ q m b a d => some (intShape s (.v q b) m a d fnSub)
  | .vsubVx _ q m b a d => some (intShape s (.x q b) m a d fnSub)
  | .vsubVi _ m k a d => some (intShape s (.imm k) m a d fnSub)
  | .vmulVr _ q m b a d => some (intShape s (.v q b) m a d fnMul)
  | .vmulVx _ q m b a d => some (intShape s (.x q b) m a d fnMul)
  | .vmulVi _ m k a d => some (intShape s (.imm k) m a d fnMul)
  | .vmulhVr _ q m g b a d => some (intShape s (.v q b) m a d (fnMulh (!g)))
  | .vmulhVx _ q m g b a d => some (intShape s (.x q b) m a d (fnMulh (!g)))
  | .vmulhVi _ m g k a d => some (intShape s (.imm k) m a d (fnMulh (!g)))
  | .vdivVr _ q m g b a d => some (intShape s (.v q b) m a d (fnDiv (!g) false))
  | .vdivVx _ q m g b a d => some (intShape s (.x q b) m a d (fnDiv (!g) false))
  | .vdivVi _ m g k a d => some (intShape s (.imm k) m a d (fnDiv (!g) false))
  | .vremVr _ q m g b a d => some (intShape s (.v q b) m a d (fnDiv (!g) true))
  | .vremVx _ q m g b a d => some (intShape s (.x q b) m a d (fnDiv (!g) true))
  | .vremVi _ m g k a d => some (intShape s (.imm k) m a d (fnDiv (!g) true))
  | .vminVr _ q m g b a d => some (intShape s (.v q b) m a d (fnMin (!g)))
  | .vminVx _ q m g b a d => some (intShape s (.x q b) m a d (fnMin (!g)))
  | .vminVi _ m g k a d => some (intShape s (.imm k) m a d (fnMin (!g)))
  | .vmaxVr _ q m g b a d => some (intShape s (.v q b) m a d (fnMax (!g)))
  | .vmaxVx _ q m g b a d => some (intShape s (.x q b) m a d (fnMax (!g)))
  | .vmaxVi _ m g k a d => some (intShape s (.imm k) m a d (fnMax (!g)))
  | .vandVr _ q m b a d => some (intShape s (.v q b) m a d fnAnd)
  | .vandVx _ q m b a d => some (intShape s (.x q b) m a d fnAnd)
  | .vandVi _ m k a d => some (intShape s (.imm k) m a d fnAnd)
  | .vorVr _ q m b a d => some (intShape s (.v q b) m a d fnOr)
  | .vorVx _ q m b a d => some (intShape s (.x q b) m a d fnOr)
  | .vorVi _ m k a d => some (intShape s (.imm k) m a d fnOr)
  | .vxorVr _ q m b a d => some (intShape s (.v q b) m a d fnXor)
  | .vxorVx _ q m b a d => some (intShape s (.x q b) m a d fnXor)
  | .vxorVi _ m k a d => some (intShape s (.imm k) m a d fnXor)
  | .vshlVr _ q m b a d => some (intShape s (.v q b) m a d fnShl)
  | .vshlVx _ q m b a d => some (intShape s (.x q b) m a d fnShl)
  | .vshlVi _ m k a d => some (intShape s (.imm k) m a d fnShl)
  | .vshrVr _ q m b a d => some (intShape s (.v q b) m a d fnShr)
  | .vshrVx _ q m b a d => some (intShape s (.x q b) m a d fnShr)
  | .vshrVi _ m k a d => some (intShape s (.imm k) m a d fnShr)
  | .vshaVr _ q m b a d => some (intShape s (.v q b) m a d fnSha)
  | .vshaVx _ q m b a d => some (intShape s (.x q b) m a d fnSha)
  | .vshaVi _ m k a d => some (intShape s (.imm k) m a d fnSha)
  | .vsaddVr _ q m g b a d => some (intShape s (.v q b) m a d (fnSadd (!g)))
  | .vsaddVx _ q m g b a d => some (intShape s (.x q b) m a d (fnSadd (!g)))
  | .vsaddVi _ m g k a d => some (intShape s (.imm k) m a d (fnSadd (!g)))
  | .vssubVr _ q m g b a d => some (intShape s (.v q b) m a d (fnSsub (!g)))
  | .vssubVx _ q m g b a d => some (intShape s (.x q b) m a d (fnSsub (!g)))
  | .vssubVi _ m g k a d => some (intShape s (.imm k) m a d (fnSsub (!g)))
  | .cVadd b d => last b d fnAdd
  | .cVsub b d => last b d fnSub
  | .cVmul b d => last b d fnMul
  | .cVmax b d => last b d (fnMax true)
  | .cVand b d => last b d fnAnd
  | .cVxor b d => last b d fnXor
  | _ => none

/-- VWMUL, and VWMACC where `acc`: double width, on a destination of 2 × GRP registers, which v28-v31 of the execute hart are not
(04 R52). -/
def wideShape (s : State) (acc signed : Bool) (o : Second) (m : Bool) (a d : Reg) : VForm :=
  let n := grpNow s
  let w := sewNow s
  let vl := vlNow s
  let prods := ((operand s a n w vl).zip (second s n w vl o)).map
    (fun x => wrap (2 * w) (intValue signed w x.1 * intValue signed w x.2))
  let ds := if acc then operand s d (2 * n) (2 * w) vl else List.replicate vl 0
  { srcs := twoSrcs s a o ++ if acc then [(d, 2 * n, 2 * w)] else [], xs := secondX o, legal := !notHalvable s.regs && !s.isQueue d.toNat,
    apart := !s.overlap d.toNat (2 * n) a.toNat n && o.regs.all (fun b => !s.overlap d.toNat (2 * n) b.toNat n),
    d := d, n := 2 * n, w := 2 * w,
    outs := (applyFn (fun x y => ((x + y) % 2 ^ (2 * w), 0)) (s.regs.active m) ds prods).1 }

/-- VNSHR: from a source of 2 × GRP registers of double width. -/
def narrowShape (s : State) (signed : Bool) (o : Second) (m : Bool) (a d : Reg) : VForm :=
  let n := grpNow s
  let w := sewNow s
  let r := applyFn (fun x y => clamp signed w (roundShift (intValue signed (2 * w) x) (y % (2 * w)))) (s.regs.active m)
    (operand s a (2 * n) (2 * w) (vlNow s)) (second s n w (vlNow s) o)
  { srcs := (a, 2 * n, 2 * w) :: o.regs.map (fun b => (b, n, w)), xs := secondX o, legal := !notHalvable s.regs,
    apart := !s.overlap d.toNat n a.toNat (2 * n), d := d, n := n, w := w, outs := r.1, post := fun g => g.accrue r.2 }

/-- The widening and narrowing instructions. -/
def wideVector (i : Instr) (s : State) : Option VForm :=
  match i with
  | .vwmulVr _ q m g b a d => some (wideShape s false (!g) (.v q b) m a d)
  | .vwmulVx _ q m g b a d => some (wideShape s false (!g) (.x q b) m a d)
  | .vwmulVi _ m g k a d => some (wideShape s false (!g) (.imm k) m a d)
  | .vwmaccVr _ q m g b a d => some (wideShape s true (!g) (.v q b) m a d)
  | .vwmaccVx _ q m g b a d => some (wideShape s true (!g) (.x q b) m a d)
  | .vwmaccVi _ m g k a d => some (wideShape s true (!g) (.imm k) m a d)
  | .vnshrVr _ q m g b a d => some (narrowShape s (!g) (.v q b) m a d)
  | .vnshrVx _ q m g b a d => some (narrowShape s (!g) (.x q b) m a d)
  | .vnshrVi _ m g k a d => some (narrowShape s (!g) (.imm k) m a d)
  | _ => none

/-- VFP: a function of two elements, and of the old vd where `acc`, in vtype's format, with its flags. -/
def floatShape (s : State) (o : Second) (acc m : Bool) (a d : Reg) (bad : Regs → Bool) (f : FpFn) : VForm :=
  let n := grpNow s
  let w := sewNow s
  let as := operand s a n w (vlNow s)
  let bs := second s n w (vlNow s) o
  let ds := if acc then operand s d n w (vlNow s) else []
  let r := fpOuts (s.regs.active m) (fun j =>
    f s.regs.fpFmt s.regs.frm.toNat (as.getD j 0) (bs.getD j 0) (ds.getD j 0))
  { srcs := twoSrcs s a o ++ if acc then [(d, n, w)] else [], xs := secondX o, legal := !bad s.regs, d := d, n := n, w := w,
    outs := r.1, post := fun g => g.raiseAll r.2 }

/-- VSF: a function of one element. -/
def specialShape (s : State) (m : Bool) (f a d : Reg) : VForm :=
  let n := grpNow s
  let w := sewNow s
  let as := operand s a n w (vlNow s)
  let r := fpOuts (s.regs.active m) (fun j => s.regs.fpFmt.special f.toNat (as.getD j 0))
  { srcs := [(a, n, w)], legal := !(badFp s.regs || 8 < f.toNat), d := d, n := n, w := w, outs := r.1,
    post := fun g => g.raiseAll r.2 }

/-- VFCVT: from its source format, whose group holds as many registers as vl elements of it need, to the destination format;
in EFB mode through the chain that carries rounding errors in `erc` (05 R92). -/
def convertShape (s : State) (m w : Bool) (b a d : Reg) : VForm :=
  let c := (vcvtSrc b).getD (.float f32)
  let dst := (cvtDst s.regs (b.getLsbD 4) w).getD (.float f32)
  let gs := cvtGroup s.regs c.width
  let n := grpNow s
  let as := operand s a gs c.width (vlNow s)
  let act := s.regs.active m
  let plainRes := fpOuts act (fun j => c.convert dst s.regs.frm.toNat (as.getD j 0))
  let chained := chain c dst 0 s.regs.erc.toNat act as
  { srcs := [(a, gs, c.width)], legal := !badCvt b w s.regs,
    apart := !(s.overlap d.toNat n a.toNat gs && !(c.width == sewNow s && d == a && n == gs)), d := d, n := n, w := sewNow s,
    outs := if s.regs.frm = 5 then chained.1 else plainRes.1,
    post := fun g =>
      if s.regs.frm = 5 then (if s.regs.vl = 0 then g else { g with erc := BitVec.ofNat 32 chained.2.2 }).raiseAll chained.2.1
      else g.raiseAll plainRes.2 }

/-- VFP, VFP.X, VSF and the compressed vector FP forms. -/
def floatVector (i : Instr) (s : State) : Option VForm :=
  let two (o : Second) (m : Bool) (a d : Reg) (f : FpFn) : Option VForm := some (floatShape s o false m a d badFp f)
  let last (b : Reg) (acc : Bool) (d : Reg) (f : FpFn) : Option VForm :=
    (lastV s.regs).map (fun a => floatShape s (.v false b) acc false a d badFp f)
  match i with
  | .vfaddVr _ q m b a d => two (.v q b) m a d fpAdd
  | .vfaddVx _ q m b a d => two (.x q b) m a d fpAdd
  | .vfsubVr _ q m b a d => two (.v q b) m a d fpSub
  | .vfsubVx _ q m b a d => two (.x q b) m a d fpSub
  | .vfmulVr _ q m b a d => two (.v q b) m a d fpMul
  | .vfmulVx _ q m b a d => two (.x q b) m a d fpMul
  | .vfdivVr _ q m b a d => two (.v q b) m a d fpDiv
  | .vfdivVx _ q m b a d => two (.x q b) m a d fpDiv
  | .vfminVr _ q m b a d => two (.v q b) m a d fpMin
  | .vfminVx _ q m b a d => two (.x q b) m a d fpMin
  | .vfmaxVr _ q m b a d => two (.v q b) m a d fpMax
  | .vfmaxVx _ q m b a d => two (.x q b) m a d fpMax
  | .vfmaVr _ q m b a d => some (floatShape s (.v q b) true m a d badFp fpFma)
  | .vfmaVx _ q m b a d => some (floatShape s (.x q b) true m a d badFp fpFma)
  | .vscaccVr _ q m g b a d => some (floatShape s (.v q b) true m a d badScale (fpScale g))
  | .vscaccVx _ q m g b a d => some (floatShape s (.x q b) true m a d badScale (fpScale g))
  | .vsf _ m f a d => some (specialShape s m f a d)
  | .vfcvt _ m w b a d => some (convertShape s m w b a d)
  | .cVfadd b d => last b false d fpAdd
  | .cVfsub b d => last b false d fpSub
  | .cVfmul b d => last b false d fpMul
  | .cVfma b d => last b true d fpFma
  | .cVfmax b d => last b false d fpMax
  | _ => none

/-- An instruction that moves elements of va, and of vb where it has one. -/
def moveShape (s : State) (srcs : List Reg) (xs : List Reg) (legal apart : Bool) (d : Reg) (outs : List Out) : VForm :=
  { srcs := srcs.map (fun k => (k, grpNow s, sewNow s)), xs := xs, legal := legal, apart := apart, d := d, n := grpNow s,
    w := sewNow s, outs := outs }

/-- VMV: elements with the run tag that follows them, the other registers of its run reading S = 0 (06 R105, R122). -/
def vmvShape (s : State) (m : Bool) (a d : Reg) : VForm :=
  let as := operand s a (grpNow s) (sewNow s) (vlNow s)
  let tag := movedTag s.regs m (s.isQueue a.toNat) a
  { moveShape s [a] [] true true d (outsOf (s.regs.active m) (fun j => .put (as.getD j 0))) with
    post := fun r =>
      if s.isQueue d.toNat then r
      else if tag ≠ 0 then { r with stag := setTag r.stag d.toNat (tagRegs tag) tag }
      else { r with stag := r.stag.set 0 d.toNat (r.stag.get 0 d.toNat &&& ~~~(1#64 <<< 31)) } }

/-- A fold into element 0 of vd (05 R100); a queue's old element is a free value (log entry 2). -/
def foldShape (s : State) (m : Bool) (b a d : Reg)
    (f : (Nat → Nat → Nat × Flags) → Nat → List (Option (Nat × Nat)) → Option Nat × List (Nat × Flags)) : VForm :=
  let n := grpNow s
  let w := sewNow s
  let old :=
    if s.isQueue d.toNat then (Config.freeWord s.cycle (2048 + d.toNat)).toNat % 2 ^ w
    else groupBits s.regs.v s.cap d.toNat n % 2 ^ w
  let r := f (foldOp s.regs b) old (present (s.regs.active m) (operand s a n w (vlNow s)))
  { srcs := [(a, n, w)], legal := !badFold b s.regs, d := d, n := n, w := w,
    outs := match r.1 with | some v => [.put v] | none => [.keep], post := fun g => g.raiseAll r.2 }

/-- VPERM, the folds, and MMOV to a vector. -/
def permVector (i : Instr) (s : State) : Option VForm :=
  let n := grpNow s
  let w := sewNow s
  let vl := vlNow s
  let r := s.regs
  match i with
  | .vblend _ _ b a d =>
    let as := operand s a n w vl
    let bs := operand s b n w vl
    some (moveShape s [a, b] [] true true d
      ((List.range vl).map (fun j => .put (if r.mbit 0 j then bs.getD j 0 else as.getD j 0))))
  | .vmv _ m a d => some (vmvShape s m a d)
  | .cVmv b d => some (vmvShape s false b d)
  | .vslide _ _ m u b a d =>
    let as := operand s a n w s.vlmax
    let k := (r.getX b).toNat
    some (moveShape s [a] [b] true (!s.overlap d.toNat n a.toNat n) d (outsOf (r.active m) (fun j =>
      if u then (if k ≤ j then .put (as.getD (j - k) 0) else .keep) else .put (as.getD (j + k) 0))))
  | .vpick _ _ m b a d =>
    let as := operand s a n w s.vlmax
    let bs := operand s b n w vl
    some (moveShape s [a, b] [] (r.sewCode != 0) (!s.overlap d.toNat n a.toNat n && !s.overlap d.toNat n b.toNat n) d
      (outsOf (r.active m) (fun j => .put (as.getD (bs.getD j 0) 0))))
  | .vprepop m a d =>
    some (moveShape s [] [] (r.sewCode != 0) true d (outsOf (r.active m) (fun j =>
      .put ((List.range j).countP (fun k => (r.active m).getD k false && r.mbit a.toNat k)))))
  | .vpackm _ k a d =>
    let as := operand s a n w vl
    some (moveShape s [a] [] true (!s.overlap d.toNat n a.toNat n) d
      (((as.zipIdx).filter (fun x => r.mbit k.toNat x.2)).map (fun x => .put x.1)))
  | .vspread _ k a d =>
    let as := operand s a n w vl
    some (moveShape s [a] [] true (!s.overlap d.toNat n a.toNat n) d
      (outsOf ((List.range vl).map (fun j => r.mbit k.toNat j)) (fun j =>
        .put (as.getD ((List.range j).countP (fun k' => r.mbit k.toNat k')) 0))))
  | .vred _ m b a d => some (foldShape s m b a d treeReduce)
  | .vredo _ m b a d => some (foldShape s m b a d orderReduce)
  | .vscan _ m b a d =>
    let x := scanFold (foldOp r b) none (present (r.active m) (operand s a n w vl))
    some { moveShape s [a] [] (!badFold b r) (!(s.overlap d.toNat n a.toNat n && !(d == a))) d x.1 with
      post := fun g => g.raiseAll x.2 }
  | .mmovToVector m a d =>
    some (moveShape s [] [] (r.sewCode != 0) true d (outsOf (r.active m) (fun j => .put (if r.mbit a.toNat j then 1 else 0))))
  | _ => none

/-- An instruction that writes a mask register: sources, x sources, conditions, destination, bits, and what else. -/
structure MForm where
  srcs : List (Reg × Nat × Nat) := []
  xs : List Reg := []
  legal : Bool := true
  d : BitVec 3
  outs : List Out
  post : Regs → Regs := id

abbrev MForm.ready (f : MForm) (s : State) : Prop :=
  (∀ g ∈ f.srcs, srcReady s g.1 g.2.1 g.2.2) ∧ (∀ k ∈ f.xs, fullX s k) ∧ f.legal = true

def MForm.result (f : MForm) (i : Instr) (s : State) : State :=
  (mapRegs (popNamed s (f.srcs.map (fun g => g.1))) (fun r => f.post (r.writeMask f.d f.outs))).advance i.size

/-- A bit of a mask. -/
def maskBit (b : Bool) : Out := .put (if b then 1 else 0)

/-- VFCMP: bits and flags. -/
def compareShape (s : State) (o : Second) (m : Bool) (c : BitVec 2) (a : Reg) (d : BitVec 3) : MForm :=
  let n := grpNow s
  let w := sewNow s
  let as := operand s a n w (vlNow s)
  let bs := second s n w (vlNow s) o
  let r := fpOuts (s.regs.active m) (fun j =>
    let x := s.regs.fpFmt.cmp c.toNat (as.getD j 0) (bs.getD j 0)
    (if x.1 then 1 else 0, x.2))
  { srcs := twoSrcs s a o, xs := secondX o, legal := !badFp s.regs, d := d, outs := r.1, post := fun g => g.raiseAll r.2 }

/-- The compares, VCONF and VMASK. -/
def maskForm (i : Instr) (s : State) : Option MForm :=
  let n := grpNow s
  let w := sewNow s
  let r := s.regs
  match i with
  | .vcmp _ _ m c b a d =>
    let as := operand s a n w (vlNow s)
    let bs := operand s b n w (vlNow s)
    some { srcs := [(a, n, w), (b, n, w)], legal := r.sewCode != 0, d := d,
           outs := outsOf (r.active m) (fun j => maskBit (compareInt c.toNat w (as.getD j 0) (bs.getD j 0))) }
  | .vfcmpVr _ q m b a c d => some (compareShape s (.v q b) m c a d)
  | .vfcmpVx _ q m b a c d => some (compareShape s (.x q b) m c a d)
  | .vconf _ m l a d =>
    let as := operand s a n w (vlNow s)
    some { srcs := [(a, n, w)], legal := r.sewCode != 0, d := d,
           outs := outsOf (r.active m) (fun j => maskBit (conflict l (r.active m) as j)) }
  | .mlog m o b a d =>
    some { d := d, outs := outsOf (r.active m) (fun j => maskBit (maskOp o (r.mbit a.toNat j) (r.mbit b.toNat j))) }
  | .mmovMask m a d => some { d := d, outs := outsOf (r.active m) (fun j => maskBit (r.mbit a.toNat j)) }
  | .mmovFromVector _ m a d =>
    let as := operand s a n w (vlNow s)
    some { srcs := [(a, n, w)], legal := r.sewCode != 0, d := d,
           outs := outsOf (r.active m) (fun j => maskBit (as.getD j 0 != 0)) }
  | _ => none

/-- The instructions that count bits of a mask into x[d]. -/
def countForm (i : Instr) (s : State) : Option XForm :=
  let set (m : Bool) (a : BitVec 3) : List Nat :=
    (List.range (vlNow s)).filter (fun j => (!m || s.regs.mbit 0 j) && s.regs.mbit a.toNat j)
  match i with
  | .vpopc m a d => some { srcs := [], d := d, val := BitVec.ofNat 64 (set m a).length }
  | .vfirst m a d =>
    some { srcs := [], d := d, val := match set m a with | j :: _ => BitVec.ofNat 64 j | [] => BitVec.allOnes 64 }
  | _ => none

end Sys2Proof.Claims

/-- R406-R408, R413, R433, R435, R438, R448, R450, R454, R460, R464, R301, R64, R65, R76: VINT and its compressed forms, on groups
and on queues. -/
def Sys2Proof.Claims.VectorIntegerResult : Prop := answers intVector

/-- R437, R463: the widening and narrowing instructions. -/
def Sys2Proof.Claims.VectorWideningResult : Prop := answers wideVector

/-- R414-R423, R451, R453, R301: the vector FP instructions, VSF and VFCVT. (Which result within its bound VSF gives is a free value, log entry 7;
whose flags an element of the EFB chain raises is the model's reading, log entry 54.) -/
def Obligations.VectorFloatResult : Prop := answers floatVector

/-- R409, R436, R439, R441, R445, R447, R452, R455, R457, R365: moves, slides, picks, packs, spreads, folds and scans. -/
def Sys2Proof.Claims.VectorPermuteAnswers : Prop := answers permVector

namespace Sys2Proof.Claims

/-- An element of a fold with its index; none is ABSENT (05 R100). -/
abbrev Folded := Option (Nat × Nat)

/-- Combine of R100: a missing side passes the other through; a combination carries the lower index (20 R447). -/
def combine (op : Nat → Nat → Nat × Flags) : Folded × Folded → Folded
  | (some x, some y) => some ((op x.1 y.1).1, min x.2 y.2)
  | (some x, none) => some x
  | (none, y) => y

/-- The rounding of a combination, attributed to the lower index. -/
def combineFlags (op : Nat → Nat → Nat × Flags) : Folded × Folded → Option (Nat × Flags)
  | (some x, some y) => some (min x.2 y.2, (op x.1 y.1).2)
  | _ => none

/-- The pairs 2j and 2j + 1 of a level. -/
def pairsOf (l : List Folded) : List (Folded × Folded) :=
  (List.range ((l.length + 1) / 2)).map (fun j => (l.getD (2 * j) none, l.getD (2 * j + 1) none))

/-- Level `k` of VRED's tree. -/
def level (op : Nat → Nat → Nat × Flags) (l : List Folded) : Nat → List Folded
  | 0 => l
  | k + 1 => (pairsOf (level op l k)).map (combine op)

/-- A fold from the left of values into a first one. -/
def foldFrom (op : Nat → Nat → Nat × Flags) (x : Nat) (l : List (Nat × Nat)) : Nat := l.foldl (fun acc y => (op acc y.1).1) x

/-- A fold from the left of the values of a list that is not empty. -/
def running (op : Nat → Nat → Nat × Flags) : List (Nat × Nat) → Nat
  | [] => 0
  | x :: l => foldFrom op x.1 l

end Sys2Proof.Claims

/-- R100, R101, R447, R452: the ops of the folds; VRED's fixed tree, whose levels combine neighbours until one is left, and the old
element 0 before it; VREDO's ascending order; VSCAN's running fold. The roundings stand in the order of R447 and R452, each with its
element; with no element active nothing is written. -/
def Sys2Proof.Claims.FoldFunctions : Prop :=
  (∀ (r : Regs) (op : Reg) (x y : Nat), x < 2 ^ r.sew → y < 2 ^ r.sew →
    (let w := r.sew
     let u := BitVec.ofNat w x
     let v := BitVec.ofNat w y
     (op = 0 → foldOp r op x y = ((u + v).toNat, 0)) ∧
     (op = 1 → foldOp r op x y = (if u.toInt ≤ v.toInt then x else y, 0)) ∧
     (op = 2 → foldOp r op x y = (if u.toInt ≤ v.toInt then y else x, 0)) ∧
     (op = 3 → foldOp r op x y = (min x y, 0)) ∧ (op = 4 → foldOp r op x y = (max x y, 0)) ∧
     (op = 5 → foldOp r op x y = ((u &&& v).toNat, 0)) ∧ (op = 6 → foldOp r op x y = ((u ||| v).toNat, 0)) ∧
     (op = 7 → foldOp r op x y = ((u ^^^ v).toNat, 0)) ∧
     (∀ f, r.vfmt = some f →
       (op = 8 → foldOp r op x y = f.add r.frm.toNat x y) ∧ (op = 9 → foldOp r op x y = f.minMax false x y) ∧
       (op = 10 → foldOp r op x y = f.minMax true x y)))) ∧
  (∀ (op : Nat → Nat → Nat × Flags) (old : Nat) (act : List Bool) (as : List Nat), act.length ≤ 2 ^ 16 →
    (let l := present act as
     let top := (level op l 16).getD 0 none
     let A := l.filterMap id
     let rounding (k : Nat) (acc : Nat) : Nat × Flags := ((A.getD k (0, 0)).2, (op acc (A.getD k (0, 0)).1).2)
     treeReduce op old l =
       (top.map (fun x => (op old x.1).1),
        (List.range 16).flatMap (fun k => (pairsOf (level op l k)).filterMap (combineFlags op)) ++
          (match top with | some x => [(x.2, (op old x.1).2)] | none => [])) ∧
     orderReduce op old l =
       (if A = [] then none else some (foldFrom op old A),
        (List.range A.length).map (fun k => rounding k (foldFrom op old (A.take k)))) ∧
     scanFold op none l =
       ((List.range l.length).map (fun i =>
          match l.getD i none with | none => .idle | some _ => .put (running op ((l.take (i + 1)).filterMap id))),
        (List.range (A.length - 1)).map (fun k => rounding (k + 1) (running op (A.take (k + 1)))))))

/-- R105, R122, R436: the tag that VMV copies, of a run that lies whole among the elements copied, of a group that GRP covers and without a
predicate, PAY aside (whatever the width of its keys: the model's choice, log entry 82); otherwise none. Where a tag is written to a group,
the group's other registers and every run that shared a register with it read S = 0. -/
def Sys2Proof.Claims.TagsMove : Prop :=
  (∀ (r : Regs) (m queue : Bool) (a : Reg),
    (let t := r.stag.get 0 a.toNat
     let whole : Prop := queue = false ∧ t.getLsbD 31 = true ∧ 2 ^ (t.extractLsb' 16 2).toNat ≤ r.grp ∧
       (t.extractLsb' 0 16).toNat ≤ r.vl.toNat ∧ m = false
     (whole → ∀ k, (movedTag r m queue a).getLsbD k = (t.getLsbD k && k != 24)) ∧ (¬ whole → movedTag r m queue a = 0))) ∧
  (∀ (t : Table Word) (d g : Nat) (tag : Word), Table.wf 0 t = true → 1 ≤ g →
    (setTag t d g tag).get 0 d = tag ∧
    (∀ k, k ≠ d → k < d + g → d < k + 2 ^ ((t.get 0 k).extractLsb' 16 2).toNat →
      ∀ j, ((setTag t d g tag).get 0 k).getLsbD j = ((t.get 0 k).getLsbD j && j != 31)) ∧
    (∀ k, k ≠ d → ¬ (k < d + g ∧ d < k + 2 ^ ((t.get 0 k).extractLsb' 16 2).toNat) → (setTag t d g tag).get 0 k = t.get 0 k))

/-- R409, R436, R439, R441, R445, R447, R452, R455, R457, R365, R100, R101, R122: the VPERM group, what it answers and what its folds and
tags are. -/
def Obligations.VectorPermuteResult : Prop :=
  Sys2Proof.Claims.VectorPermuteAnswers ∧
  Sys2Proof.Claims.FoldFunctions ∧
  Sys2Proof.Claims.TagsMove

/-- R364, R365, R410-R412, R416: the instructions that write a mask register. -/
def Sys2Proof.Claims.MaskResult : Prop :=
  ∀ (i : Instr) (s : State) (f : MForm), maskForm i s = some f → f.ready s → exec i s = .next (f.result i s)

/-- R419, R444: VPOPC counts the set bits of a mask among the active elements, VFIRST finds the first or answers all ones. -/
def Sys2Proof.Claims.MaskCountResult : Prop :=
  ∀ (i : Instr) (s : State) (f : XForm), countForm i s = some f → f.ready s → exec i s = .next (f.result i s)

/-- R54, R56, R406: what the write of a group leaves. Element j of the group is what `outs` puts there; an inactive element is 0
where MP is 1 and as before where it is 0; an element past `outs` is 0 where TP is 1 and as before where it is 0; a register
outside the group is as before. -/
def Sys2Proof.Claims.GroupWriteElements : Prop :=
  ∀ (s : State) (k : Reg) (c w : Nat) (outs : List Out),
    1 ≤ w → 1 ≤ c → 1 ≤ s.cap → s.cap ≤ 16384 → w * outs.length ≤ s.cap * c →
    (let t := s.writeGroup k c w outs false
     let before := elems w (groupBits s.regs.v s.cap k.toNat c) (s.cap * c / w)
     let after := elems w (groupBits t.regs.v s.cap k.toNat c) (s.cap * c / w)
     (∀ j, j < s.cap * c / w →
       after.getD j 0 =
         match outs[j]? with
         | some (.put v) => v % 2 ^ w
         | some .idle => if s.regs.mp then 0 else before.getD j 0
         | some .keep => before.getD j 0
         | none => if s.regs.tp then 0 else before.getD j 0) ∧
     (∀ j, j < k.toNat ∨ k.toNat + c ≤ j → t.regs.v.get 0 j = s.regs.v.get 0 j) ∧
     t.regs.x = s.regs.x ∧ t.regs.m = s.regs.m ∧ sameTrapState s t ∧ sameDevice s t)

/-- R407, R408, R413, R433, R435, R438, R448, R450, R454, R460, R464, R103, R104: the functions of VINT on patterns of `w` bits, as
arithmetic of bit vectors: sums, differences and products wrap; the high half is of the whole product; shifts take the amount
modulo the width; minimum and maximum, signed and unsigned; the quotient and the remainder, those of a division by zero and of the
most negative number by -1 as R103 fixes them; a sum or difference, signed or unsigned, that does not fit is clamped. The events:
a division by zero has DZ (1), the overflowing signed one OV (2), a clamp SAT (4), and nothing else has any. -/
def Sys2Proof.Claims.VectorIntegerFunctions : Prop :=
  ∀ (w a b : Nat), 1 ≤ w → a < 2 ^ w → b < 2 ^ w →
    (let x := BitVec.ofNat w a
     let y := BitVec.ofNat w b
     let edge : Prop := x = BitVec.intMin w ∧ y = BitVec.allOnes w
     (fnAdd w a b) = ((x + y).toNat, 0) ∧ (fnSub w a b) = ((x - y).toNat, 0) ∧ (fnMul w a b) = ((x * y).toNat, 0) ∧
     (fnAnd w a b) = ((x &&& y).toNat, 0) ∧ (fnOr w a b) = ((x ||| y).toNat, 0) ∧ (fnXor w a b) = ((x ^^^ y).toNat, 0) ∧
     (fnShl w a b) = ((x <<< (b % w)).toNat, 0) ∧ (fnShr w a b) = ((x >>> (b % w)).toNat, 0) ∧
     (fnSha w a b) = ((x.sshiftRight (b % w)).toNat, 0) ∧
     (fnMulh true w a b) = ((BitVec.ofInt w (x.toInt * y.toInt / 2 ^ w)).toNat, 0) ∧
     (fnMulh false w a b) = (a * b / 2 ^ w, 0) ∧
     (fnMin true w a b) = (if x.toInt ≤ y.toInt then a else b, 0) ∧ (fnMin false w a b) = (min a b, 0) ∧
     (fnMax true w a b) = (if x.toInt ≤ y.toInt then b else a, 0) ∧ (fnMax false w a b) = (max a b, 0) ∧
     (fnDiv true false w a b) =
       (if b = 0 then ((BitVec.allOnes w).toNat, 1) else if edge then ((BitVec.intMin w).toNat, 2) else ((x.sdiv y).toNat, 0)) ∧
     (fnDiv false false w a b) = (if b = 0 then ((BitVec.allOnes w).toNat, 1) else (a / b, 0)) ∧
     (fnDiv true true w a b) = (if b = 0 then (a, 1) else if edge then (0, 2) else ((x.srem y).toNat, 0)) ∧
     (fnDiv false true w a b) = (if b = 0 then (a, 1) else (a % b, 0)) ∧
     fnSadd true w a b =
       (if (x.toInt + y.toInt) < -(2 ^ (w - 1)) then (2 ^ (w - 1), 4)
        else if 2 ^ (w - 1) - 1 < x.toInt + y.toInt then (2 ^ (w - 1) - 1, 4) else ((x + y).toNat, 0)) ∧
     fnSadd false w a b = (if 2 ^ w ≤ a + b then (2 ^ w - 1, 4) else (a + b, 0)) ∧
     fnSsub true w a b =
       (if (x.toInt - y.toInt) < -(2 ^ (w - 1)) then (2 ^ (w - 1), 4)
        else if 2 ^ (w - 1) - 1 < x.toInt - y.toInt then (2 ^ (w - 1) - 1, 4) else ((x - y).toNat, 0)) ∧
     fnSsub false w a b = (if a < b then (0, 4) else (a - b, 0)))

/-- R437, R463: the rounding shift and the saturation of VNSHR, and how a pattern of `w` bits reads as a number and a number is written
back: a shifted value is the nearest quotient, the even one of two that are as near; it is clamped to the range of the result, with SAT.
The examples are those of R437. -/
def Sys2Proof.Claims.NarrowingFunctions : Prop :=
  (∀ (v : Int) (s : Nat),
    (let q := roundShift v s
     |2 * (2 ^ s * q - v)| ≤ 2 ^ s ∧ (|2 * (2 ^ s * q - v)| = 2 ^ s → q % 2 = 0))) ∧
  (∀ (w : Nat) (v : Int), 1 ≤ w →
    clamp true w v =
      (if v < -(2 ^ (w - 1)) then (2 ^ (w - 1), 4) else if 2 ^ (w - 1) - 1 < v then (2 ^ (w - 1) - 1, 4)
       else ((BitVec.ofInt w v).toNat, 0)) ∧
    clamp false w v = (if v < 0 then (0, 4) else if 2 ^ w - 1 < v then (2 ^ w - 1, 4) else (v.toNat, 0)) ∧
    wrap w v = (BitVec.ofInt w v).toNat) ∧
  (∀ w p : Nat, 1 ≤ w → p < 2 ^ w → intValue true w p = (BitVec.ofNat w p).toInt ∧ intValue false w p = p) ∧
  clamp true 8 (roundShift 10 2) = (2, 0) ∧ clamp true 8 (roundShift (-10) 2) = (254, 0) ∧
  clamp true 8 (roundShift 1000 2) = (127, 4) ∧ clamp true 8 (roundShift (-1000) 2) = (128, 4) ∧
  clamp false 8 (roundShift 1000 2) = (250, 0)

/-- R363, R364, R410-R412: the eight functions of MLOG, the six conditions of VCMP on patterns of `w` bits, and VCONF's test: another
active element, before it or after it, holds the same pattern. -/
def Sys2Proof.Claims.MaskFunctions : Prop :=
  (∀ a b : Bool,
    maskOp 0 a b = (a && b) ∧ maskOp 1 a b = (a || b) ∧ maskOp 2 a b = xor a b ∧ maskOp 3 a b = (a && !b) ∧
    maskOp 4 a b = !(a && b) ∧ maskOp 5 a b = !(a || b) ∧ maskOp 6 a b = !(xor a b) ∧ maskOp 7 a b = (a || !b)) ∧
  (∀ w x y : Nat, 1 ≤ w → x < 2 ^ w → y < 2 ^ w →
    (let u := BitVec.ofNat w x
     let v := BitVec.ofNat w y
     compareInt 0 w x y = decide (u = v) ∧ compareInt 1 w x y = decide (u ≠ v) ∧
     compareInt 2 w x y = decide (u.toInt < v.toInt) ∧ compareInt 3 w x y = decide (v.toInt ≤ u.toInt) ∧
     compareInt 4 w x y = decide (u.toNat < v.toNat) ∧ compareInt 5 w x y = decide (v.toNat ≤ u.toNat))) ∧
  (∀ (later : Bool) (act : List Bool) (as : List Nat) (i : Nat),
    conflict later act as i = true ↔
      ∃ j, j < act.length ∧ act.getD j false = true ∧ (if later then i < j else j < i) ∧ as.getD j 0 = as.getD i 0)

/-! ## Vector memory -/

namespace Sys2Proof.Claims

/-- A vector load: predicated, FF, local, base, stride, bit offset, destination, x sources, and whether SEW and the offset suit. -/
structure VLoad where
  m : Bool
  ff : Bool
  loc : Bool
  base : Nat
  stride : Nat
  bo : Nat
  d : Reg
  xs : List Reg
  legal : Bool

def vloadForm (i : Instr) (s : State) : Option VLoad :=
  match i with
  | .vld _ m _ f l b a d =>
    some ⟨m, f, l, (s.regs.getX a).toNat, sewNow s / 8, b.toNat, d, [a], if s.regs.sewCode = 0 then b.toNat < 8 else b = 0⟩
  | .vlds _ _ m _ f l b a d =>
    some ⟨m, f, l, (s.regs.getX a).toNat, (s.regs.getX b).toNat, 0, d, [a, b], s.regs.sewCode != 0⟩
  | _ => none

/-- Its elements: `none` where inactive. -/
def VLoad.elems (f : VLoad) (s : State) : List (Option Elem) :=
  activeElems (s.regs.active f.m) (elemsOf (sewNow s) f.base f.stride f.bo (vlNow s))

/-- Fields, hart and registers suit. -/
abbrev VLoad.ready (f : VLoad) (s : State) : Prop :=
  s.isExec = false ∧ f.legal = true ∧ (∀ k ∈ f.xs, fullX s k) ∧ dstReady s f.d (grpNow s)

/-- The active elements. -/
def actives (es : List (Option Elem)) : List Elem := es.filterMap id

/-- No element lies in a swatch in use, and none overlaps a store of this hart whose data has not arrived (04 R67). -/
abbrev unhindered (s : State) (loc : Bool) (es : List (Option Elem)) : Prop :=
  ∀ e ∈ actives es, elemStalls s loc e = false ∧ s.loadHazard loc e.va e.n = false

/-- A vector store of a group. -/
def vstoreForm (i : Instr) (s : State) : Option VLoad :=
  match i with
  | .vst _ m _ l b a d =>
    some ⟨m, false, l, (s.regs.getX a).toNat, sewNow s / 8, b.toNat, d, [a], if s.regs.sewCode = 0 then b.toNat < 8 else b = 0⟩
  | .vsts _ _ m _ l b a d =>
    some ⟨m, false, l, (s.regs.getX a).toNat, (s.regs.getX b).toNat, 0, d, [a, b], s.regs.sewCode != 0⟩
  | _ => none

/-- The buffered form of one element of whole bytes. -/
def bufferedElem (s : State) (loc : Bool) (e : Elem) (v : Nat) : List Buffered :=
  if loc then [.local e.va (toBytes e.n v) s.regs.pc]
  else
    match windowPieces s s.ctx .write e.va e.n with
    | .ok ps => bufferedOf s.regs.pc e.n ps (toBytes e.n v)
    | .error _ => []

/-- What a vector store adds to the strip's buffer: the active elements in order, at SEW 6 byte by byte. -/
def VLoad.buffered (f : VLoad) (s : State) : List Buffered :=
  let l := (f.elems s).zip (Machine.elems (sewNow s) (groupBits s.regs.v s.cap f.d.toNat (grpNow s)) (vlNow s))
  if sewNow s = 6 then
    bufferedParts s f.loc (joinParts (l.flatMap (fun x => match x.1 with | some e => partsOf 6 e x.2 | none => [])))
  else l.flatMap (fun x => match x.1 with | some e => bufferedElem s f.loc e x.2 | none => [])

/-- The ticket of the CR, if it has one, takes the stores of all active elements (12 R234). -/
abbrev ticketTakes (s : State) (es : List (Option Elem)) : Prop :=
  s.ticket = 0 ∨ ∀ e ∈ actives es, ∀ j, j < e.n → (s.ticketAt s.ticket).outputs (e.va + j) = true

/-- Elements of a queue instruction: all of them, from a base. -/
def queueElemsAt (s : State) (b a : Reg) : List (Option Elem) :=
  (elemsOf (sewNow s) (s.regs.getX a).toNat (sewNow s / 8) b.toNat (vlNow s)).map some

/-- The patterns of loaded elements. -/
def patterns (os : List Out) : List Nat := os.map (fun o => match o with | .put v => v | _ => 0)

end Sys2Proof.Claims

/-- R133, R134, R429, R430: a vector load none of whose active elements fails writes the loaded elements to its group. With FF, a
failure after element 0 lowers vl to its index and the elements before it are loaded; any other failure traps with its cause and
the element's address, and nothing is loaded. -/
def Sys2Proof.Claims.VectorLoadResult : Prop :=
  ∀ (i : Instr) (s : State) (f : VLoad), vloadForm i s = some f → f.ready s →
    (∀ (os : List Out) (u : State), firstFailure s .read f.loc 0 (f.elems s) = none → unhindered s f.loc (f.elems s) →
      loadElems f.loc (sewNow s) (f.elems s) s = .ok (os, u) →
      ∃ t, exec i s = .next t ∧ t.regs = passed i (s.writeGroup f.d (grpNow s) (sewNow s) os true).regs ∧
        t.hart.fills = (s.writeGroup f.d (grpNow s) (sewNow s) os true).hart.fills ∧ t.mem = s.mem ∧ sameTrapState s t) ∧
    (∀ (k va c : Nat), firstFailure s .read f.loc 0 (f.elems s) = some (k, va, c) →
      (f.ff = false ∨ k = 0 → exec i s = .next (takeTrap s c va s.regs.pc false)) ∧
      (∀ (os : List Out) (u : State), f.ff = true → k ≠ 0 → unhindered s f.loc ((f.elems s).take k) →
        loadElems f.loc (sewNow s) ((f.elems s).take k) (mapRegs s (fun r => { r with vl := BitVec.ofNat 16 k })) = .ok (os, u) →
        ∃ t, exec i s = .next t ∧ t.regs.vl = BitVec.ofNat 16 k ∧ t.mem = s.mem ∧ sameTrapState s t ∧
          t.regs = passed i ((mapRegs s (fun r => { r with vl := BitVec.ofNat 16 k })).writeGroup f.d (grpNow s) (sewNow s) os
            true).regs))

/-- R429: an element of whole bytes in global memory reads as the bytes there, where nothing is buffered or waits in a store queue
with its data, the CR has no ticket and no race touches them; one in local memory reads as the scratchpad's bytes. -/
def Sys2Proof.Claims.ElementReadsMemory : Prop :=
  (∀ (s : State) (va n key : Nat) (vis : List Byte), s.hart.buf = [] → s.queuedParts false = [] → s.ticket = 0 →
    noRace s n key → windowPieces s s.ctx .read va n = .ok [⟨va, key, n⟩] → 8 * n ≠ 6 → s.readVisible n ⟨va, key, n⟩ = .ok vis →
    ∃ u, loadElem false (8 * n) ⟨va, n, 0⟩ s = .ok (ofBytes (s.mem.bytes key n), u) ∧ u.mem = s.mem ∧ u.regs = s.regs) ∧
  (∀ (s : State) (a n : Nat), s.hart.buf = [] → s.queuedParts true = [] → 8 * n ≠ 6 →
    ∃ u, loadElem true (8 * n) ⟨a, n, 0⟩ s = .ok (ofBytes (s.core.scratch.bytes a n), u) ∧ u.mem = s.mem ∧ u.regs = s.regs)

/-- R458, R73: in unprivileged mode a vector store whose active elements all translate adds them to the strip's buffer, in order,
and passes; no byte of memory or of a scratchpad and no register but the pc changes until the strip commits. -/
def Sys2Proof.Claims.VectorStoreBuffered : Prop :=
  ∀ (i : Instr) (s : State) (f : VLoad), vstoreForm i s = some f → f.ready s → s.priv = false →
    firstFailure s .write f.loc 0 (f.elems s) = none → (∀ e ∈ actives (f.elems s), elemStalls s f.loc e = false) →
    (f.loc = true ∨ (ticketTakes s (f.elems s) ∧
      ∀ e ∈ actives (f.elems s), ∃ ps, windowPieces s s.ctx .write e.va e.n = .ok ps)) →
    bufferBlocks (s.hart.buf ++ f.buffered s) ≤ 1024 →
    ∃ t, exec i s = .next t ∧ t.hart.buf = s.hart.buf ++ f.buffered s ∧ t.regs = passed i s.regs ∧ sameTrapState s t ∧
      t.mem = s.mem ∧ t.cores = s.cores ∧ t.ctxs = s.ctxs ∧ t.regions = s.regions ∧ t.dev = s.dev ∧
      (f.loc = false → t.order = s.order)

/-- R63-R66, R431, R459: VLDQ, while the queue holds fewer entries than the hart's rad, loads its elements and pushes them, with vl and
SEW, at the tail of a load queue (with vl = 0 the end entry); VSTQ pushes an
address entry at the tail of a store queue, without a store. Both are irrevocable: nothing of the strip stays uncommitted. -/
def Sys2Proof.Claims.QueuePushes : Prop :=
  (∀ (p e l : Bool) (b a : Reg) (n : BitVec 2) (s : State) (os : List Out) (u : State),
    s.isAccess = true → Quiet s → badOffset b s.regs = false → fullX s a →
    (s.front.queueSeen n.toNat).length < min 16 s.regs.rad.toNat →
    firstFailure s .read l 0 (queueElemsAt s b a) = none → unhindered s l (queueElemsAt s b a) →
    loadElems l (sewNow s) (queueElemsAt s b a) (fresh s) = .ok (os, u) →
    ∃ t, exec (.vldq p e l b a n) s = .next t ∧
      t.front.lq.get [] n.toNat = s.front.lq.get [] n.toNat ++
        [{ vl := vlNow s, sew := s.regs.sewCode, stop := vlNow s == 0, bits := packElems (sewNow s) (patterns os) }] ∧
      t.regs = passed (.vldq p e l b a n) s.regs ∧ t.mem = s.mem ∧ sameTrapState s t) ∧
  (∀ (p e l : Bool) (b a : Reg) (n : BitVec 2) (s : State),
    s.isAccess = true → Quiet s → badOffset b s.regs = false → fullX s a →
    (s.front.sqAddr.get [] n.toNat).length < 16 → firstFailure s .write l 0 (queueElemsAt s b a) = none →
    (∀ x ∈ actives (queueElemsAt s b a), elemStalls s l x = false) → (l = true ∨ ticketTakes s (queueElemsAt s b a)) →
    (∀ x, (s.front.sqData.get [] n.toNat)[(s.front.sqAddr.get [] n.toNat).length]? = some x →
      x.vl = vlNow s ∧ x.sew = s.regs.sewCode) →
    ∃ t, exec (.vstq p e l b a n) s = .next t ∧
      t.front.sqAddr.get [] n.toNat = s.front.sqAddr.get [] n.toNat ++
        [{ base := (s.regs.getX a).toNat, loc := l, bo := b.toNat, vl := vlNow s, sew := s.regs.sewCode, time := s.cycle }] ∧
      t.regs = passed (.vstq p e l b a n) s.regs ∧ t.mem = s.mem ∧ sameTrapState s t)

/-- R65: the store of a complete pair takes the pair off its store queue, stores its elements, and frees the loads of the access hart
that waited for it alone (log entry 67); where the CR's harts both live, nothing else ends. One element of whole bytes that translates in one piece, without a race, writes exactly its bytes. -/
def Sys2Proof.Claims.StoreQueueStores : Prop :=
  (∀ (s : State) (f q : Nat) (x : AEntry) (y : QEntry) (ys : List QEntry), s.arg.front = f → f < 256 →
    (s.frontAt f).frozen = false → (s.frontAt f).earliest = some (q, x) → (s.frontAt f).sqData.get [] q = y :: ys →
    (s.frontAt f).e.live = true →
    (let v : State := { s with fid := f, slot := .a }
     let F := v.front
     let es := elemsOf (sewBits x.sew) x.base (sewBits x.sew / 8) x.bo x.vl
     let w := v.setFront { F with
       sqAddr := F.sqAddr.set [] q (F.sqAddr.get [] q).tail, sqData := F.sqData.set [] q ys
       held := F.held.filter (fun h => x.time < h.1) }
     let r := storePair x.loc (sewBits x.sew) w (es.zip (elems (sewBits x.sew) y.bits x.vl))
     es.any (elemStalls v x.loc) = false → r.2 = none → (r.1.frontAt f).e.live = true →
     exec .storeQueueStore s = .next r.1)) ∧
  (∀ (s : State) (va n key v : Nat), s.ticket = 0 → 8 * n ≠ 6 → elemCause s .write false ⟨va, n, 0⟩ = none →
    windowPieces s s.ctx .write va n = .ok [⟨va, key, n⟩] → s.mixed s.ctx s.agent n key n = false → s.poisoned key n = false →
    allLand s n key →
    ∃ t, storeElem s false (8 * n) ⟨va, n, 0⟩ v = .ok t ∧ t.mem.bytes key n = toBytes n v ∧ sameBytesOutside s t key n)

/-! ## WAITV -/

namespace Sys2Proof.Claims

/-- The flags at the active addresses of va (08 R165). -/
def flagElems (s : State) (m : Bool) (a : Reg) : List (Option Elem) :=
  activeElems (s.regs.active m) ((operand s a (grpNow s) 64 (vlNow s)).map (fun va => ({ va := va, n := 8 } : Elem)))

/-- The state in which they are read: the reads observe what was published. -/
def observing (s : State) (es : List (Option Elem)) : State :=
  { s with order := (flagKeys s es).foldl (fun o k => o.acquire s.agent k) s.order }

/-- WAITV's fields, groups and flags are in order, and the flags read as `fs`. -/
abbrev flagsRead (s : State) (m : Bool) (b a d : Reg) (fs : List Nat) (u : State) : Prop :=
  s.isExec = false ∧ s.regs.sewCode = 4 ∧ srcReady s a (grpNow s) 64 ∧ srcReady s b (grpNow s) 64 ∧ dstReady s d (grpNow s) ∧
  (∀ e ∈ actives (flagElems s m a), e.va % 8 = 0) ∧ firstFailure s .read false 0 (flagElems s m a) = none ∧
  readFlags (flagElems s m a) (observing s (flagElems s m a)) = .ok (fs, u)

/-- Which conditions are unmet: flag at least the element of vb, or equal to it where MODE is 0. -/
def unmetOf (s : State) (g : Bool) (b : Reg) (fs : List Nat) : List Bool :=
  (fs.zip (operand s b (grpNow s) 64 (vlNow s))).map (fun x => if g then decide (x.1 < x.2) else x.1 != x.2)

/-- No active condition is unmet. -/
def allMet (s : State) (m g : Bool) (b : Reg) (fs : List Nat) : Bool :=
  !((s.regs.active m).zip (unmetOf s g b fs)).any (fun x => x.1 && x.2)

/-- The registers after a WAITV: vd tells for each active element whether it is unmet. -/
def waitvRegs (s : State) (m g : Bool) (b d : Reg) (fs : List Nat) : Regs :=
  (s.writeGroup d (grpNow s) 64
    (outsOf (s.regs.active m) (fun j => .put (if (unmetOf s g b fs).getD j false then 1 else 0))) true).regs

end Sys2Proof.Claims

/-- R165, R465: WAITV whose active conditions are all met passes, executed or woken; one that has lasted `stallmax` cycles passes
whatever is unmet, and vd tells which. Memory is as before. -/
def Sys2Proof.Claims.WaitVectorResult : Prop :=
  ∀ (p q m g : Bool) (b a d : Reg) (s : State) (fs : List Nat) (u : State), flagsRead s m b a d fs u →
    (allMet s m g b fs = true →
      ∃ t, exec (.waitv p q m g b a d) s = .next t ∧ t.regs = passed (.waitv p q m g b a d) (waitvRegs s m g b d fs) ∧
        t.mem = s.mem ∧ sameTrapState s t) ∧
    (s.hart.wait = .waitv → s.hart.waitInstr = some (.waitv p q m g b a d) →
      (allMet s m g b fs = true →
        ∃ t, exec .waitvWake s = .next t ∧ t.regs = passed (.waitv p q m g b a d) (waitvRegs s m g b d fs) ∧ t.mem = s.mem) ∧
      ((s.ctxAt s.ctx).stallmax ≠ 0 → (s.ctxAt s.ctx).stallmax.toNat ≤ s.cycle - s.hart.waitFrom →
        ∃ t, exec .waitvTimeout s = .next t ∧ t.regs = passed (.waitv p q m g b a d) (waitvRegs s m g b d fs) ∧ t.mem = s.mem))

/-! ## Runs -/

namespace Sys2Proof.Claims

/-- The keys of a run operand with their payloads (06 R105, R107): a run's whole length, or vl elements. -/
def keysOf (s : State) (x : RunArgs) (y : RunSrc) : List Keyed :=
  let w := sewNow s
  let n := if y.isRun then tagLen (s.tagOf y.reg) else vlNow s
  (operand s y.reg (y.size s) w n).zip
    (if x.pays.contains y then elems w (groupBits s.regs.v s.cap (y.reg.toNat + 16) (y.size s)) n else List.replicate n 0)

/-- A run instruction with its operands: the order of its keys, the result, the seam counts, and whether it is tagged. -/
structure RForm where
  x : RunArgs
  order : KeyOrder
  keys : List Keyed
  counts : Option (Nat × Nat) := none
  tagged : Bool := true
  legal : Bool := true

def runForm (i : Instr) (s : State) : Option RForm :=
  match i with
  | .vsort p g k r a d =>
    let x : RunArgs := {
      i := i, d := d, srcs := [.data p a], pays := if g then [.data p a] else [], pay := g, same := true, apart := [.data p a] }
    let o : KeyOrder := ⟨r, k.toNat, sewNow s⟩
    some { x := x, order := o, keys := o.sort (keysOf s x (.data p a)), legal := !badKind k s.regs }
  | .vmerge p q g b a d =>
    let x := twoRuns i p q g true b a d [.run p a, .run q b]
    let o := x.order s
    some { x := x, order := o, keys := o.merge (keysOf s x (.run p a)) (keysOf s x (.run q b)) }
  | .vmergec p q g b a d =>
    let x := twoRuns i p q g true b a d [.run p a, .run q b]
    let o := x.order s
    let as := keysOf s x (.run p a)
    let bs := keysOf s x (.run q b)
    let c := o.seam (as.map (fun e => e.1)) (bs.map (fun e => e.1))
    some { x := x, order := o, keys := o.merge (as.take c.1) (bs.take c.2), counts := some c }
  | .vinter p q g b a d =>
    let x := twoRuns i p q g false b a d [.run p a]
    let o := x.order s
    let as := keysOf s x (.run p a)
    let ks := (keysOf s x (.run q b)).map (fun e => e.1)
    let c := o.seam (as.map (fun e => e.1)) ks
    some { x := x, order := o, keys := (as.take c.1).filter (fun e => ks.contains e.1), counts := some c }
  | .vuniq p g a d =>
    let x : RunArgs := {
      i := i, d := d, srcs := [.run p a], pays := if g then [.run p a] else [], pay := g, same := true, apart := [.run p a] }
    some { x := x, order := x.order s, keys := firsts [] (keysOf s x (.run p a)) }
  | .vpart p q g b a d =>
    let x : RunArgs := {
      i := i, d := d, srcs := [.data p a, .run q b], pays := if g then [.data p a] else [], pay := g,
      apart := [.data p a, .run q b] }
    let o := x.order s
    let ks := (keysOf s x (.run q b)).map (fun e => e.1)
    some { x := x, order := o, tagged := false,
           keys := inBuckets ((keysOf s x (.data p a)).map (fun e => (o.bucket ks e.1, e))) (ks.length + 1) 0 }
  | _ => none

/-- R111 passes: fields, groups, overlaps and tags are in order, sources and destinations full. -/
abbrev runReady (x : RunArgs) (s : State) : Prop :=
  x.illegal s = false ∧ x.overlaps s = false ∧ x.untagged s = false ∧ x.mismatched s = false ∧
  (∀ y ∈ x.srcs, srcFull s y.reg (y.size s) (sewNow s)) ∧
  (∀ y ∈ x.pays, ∀ j, j < y.size s → s.regs.emptyV (y.reg.toNat + 16 + j) = false) ∧
  (∀ j, j < x.group s.regs → s.regs.emptyV (x.d.toNat + j) = false) ∧
  (x.pay = true → ∀ j, j < x.group s.regs → s.regs.emptyV (x.d.toNat + 16 + j) = false)

/-- The state with a result's payloads and keys written. -/
def runWritten (x : RunArgs) (s : State) (l : List Keyed) : State :=
  let n := x.group s.regs
  let w := sewNow s
  let t := popNamed s ((x.srcs.filter (fun y => !y.isRun)).map RunSrc.reg)
  let t := if x.pay then t.writeGroup (x.d + 16) n w (l.map (fun e => .put e.2)) false else t
  t.writeGroup x.d n w (l.map (fun e => .put e.1)) false

/-- At vl = 0 the tail policy alone acts, on elements 0 to VLMAX - 1 of payloads and keys, and a queue is popped (04 R64, R77). -/
def runEmpty (x : RunArgs) (s : State) : State :=
  let t := popNamed s ((x.srcs.filter (fun y => !y.isRun)).map RunSrc.reg)
  let t := if x.pay then t.writeGroup (x.d + 16) (grpNow s) (sewNow s) [] false else t
  t.writeGroup x.d (grpNow s) (sewNow s) [] false

/-- What the result changes in the registers besides: the seam and the tag. -/
def RForm.post (f : RForm) (s : State) (r : Regs) : Regs :=
  let n := f.x.group s.regs
  let r := match f.counts with
    | some c => { r with seam := BitVec.ofNat 32 c.2 ++ BitVec.ofNat 32 c.1 }
    | none => r
  if f.tagged then
    { r with stag := setTag r.stag f.x.d.toNat n (runTag f.order n f.x.pay (f.keys.map (fun e => e.1))) }
  else r

end Sys2Proof.Claims

/-- R111-R120, R428, R434, R440, R456, R461: at vl other than 0, an instruction of the RUN group whose operands are in order and
whose result fits writes its keys and payloads, the seam counts and the tag of the result; at vl 0 the tail policy alone acts, and
writes no seam and no tag. -/
def Obligations.RunResult : Prop :=
  ∀ (i : Instr) (s : State) (f : RForm), runForm i s = some f → f.legal = true → runReady f.x s →
    (s.regs.vl ≠ 0 → f.keys.length ≤ (if f.x.double then 2 * s.vlmax else s.vlmax) →
      exec i s = .next ((mapRegs (runWritten f.x s f.keys) (f.post s)).advance i.size)) ∧
    (s.regs.vl = 0 → exec i s = .next ((runEmpty f.x s).advance i.size))

/-- R114, R115, R118: a sort is a sorted rearrangement of its keys; a merge of two sorted lists is sorted and holds the elements of
both; VUNIQ keeps one element of each key that occurs. -/
def Obligations.SortsAreSorted : Prop :=
  ∀ (o : KeyOrder) (l m : List Keyed),
    o.sorted ((o.sort l).map (fun e => e.1)) = true ∧ (o.sort l).Perm l ∧
    (o.sorted (l.map (fun e => e.1)) = true → o.sorted (m.map (fun e => e.1)) = true →
      o.sorted ((o.merge l m).map (fun e => e.1)) = true) ∧
    (o.merge l m).Perm (l ++ m) ∧
    ((firsts [] l).map (fun e => e.1)).Nodup ∧ (∀ x, x ∈ (firsts [] l).map (fun e => e.1) ↔ x ∈ l.map (fun e => e.1))

namespace Sys2Proof.Claims

/-- The place of a key among the patterns of its kind and width (06 R108): of kind I the signed number and of kind W the unsigned
one; of kind F totalOrder, where the negative patterns lie below the others, the larger magnitudes lower, and -0 just below +0. -/
def keyPlace (o : KeyOrder) (x : Nat) : Int :=
  if o.kt = 0 then (BitVec.ofNat o.kw x).toInt
  else if o.kt = 1 ∨ x < 2 ^ (o.kw - 1) then (x : Int)
  else -((x - 2 ^ (o.kw - 1) : Nat) : Int) - 1

/-- The elements with a key, in their order. -/
def withKey (k : Nat) (l : List Keyed) : List Keyed := l.filter (fun e => e.1 == k)

end Sys2Proof.Claims

/-- R108, R114-R116, R118, R120: a key comes before another where its place does, or after it in a descending run, and two keys
are equal exactly when their patterns are; a sort keeps the index order of equal keys, and a merge puts those of the first run
first; of SeamCounts, one side is consumed whole and nothing that is left comes before what is consumed; VUNIQ keeps the first
element of each key, in order; VPART rearranges its data in ascending bucket order and within a bucket in index order, the
bucket of a key in an ascending run being the number of splitters at or below it. -/
def Obligations.KeysAreOrdered : Prop :=
  (∀ (o : KeyOrder) (x y : Nat), 1 ≤ o.kw → o.kt ≤ 2 → x < 2 ^ o.kw → y < 2 ^ o.kw →
    (o.before x y = decide (if o.desc then keyPlace o y < keyPlace o x else keyPlace o x < keyPlace o y) ∧
     ((o.before x y = false ∧ o.before y x = false) ↔ x = y))) ∧
  (∀ (o : KeyOrder) (l m : List Keyed) (k : Nat),
    withKey k (o.sort l) = withKey k l ∧
    (o.sorted (l.map (fun e => e.1)) = true → o.sorted (m.map (fun e => e.1)) = true →
      withKey k (o.merge l m) = withKey k l ++ withKey k m)) ∧
  (∀ (o : KeyOrder) (a b : List Nat), o.sorted a = true → o.sorted b = true →
    (let c := o.seam a b
     (c.1 = a.length ∨ c.2 = b.length) ∧
     ∀ x ∈ a.take c.1 ++ b.take c.2, ∀ y ∈ a.drop c.1 ++ b.drop c.2, o.before y x = false)) ∧
  (∀ l : List Keyed, (firsts [] l).Sublist l ∧ ∀ e ∈ firsts [] l, l.find? (fun y => y.1 == e.1) = some e) ∧
  (∀ (o : KeyOrder) (ks : List Nat) (l : List Keyed),
    (let r := inBuckets (l.map (fun e => (o.bucket ks e.1, e))) (ks.length + 1) 0
     r.Perm l ∧ (r.map (fun e => o.bucket ks e.1)).Pairwise (fun x y => x ≤ y) ∧
     ∀ k, r.filter (fun e => o.bucket ks e.1 == k) = l.filter (fun e => o.bucket ks e.1 == k))) ∧
  (∀ (o : KeyOrder) (ks : List Nat) (x : Nat), 1 ≤ o.kw → o.kt ≤ 2 → o.desc = false → x < 2 ^ o.kw → (∀ k ∈ ks, k < 2 ^ o.kw) →
    o.bucket ks x = ks.countP (fun k => decide (keyPlace o k ≤ keyPlace o x)))

/-- R105, R112: the tag of a result: S, the direction, kind and width of its keys, U exactly where no two of them are equal, PAY where it
carries payloads, the registers of its group, its length, and zeros. -/
def Sys2Proof.Claims.RunTagFields : Prop :=
  ∀ (o : KeyOrder) (g : Nat) (pay : Bool) (keys : List Nat), o.kw ∈ [8, 16, 32, 64] → g ∈ [1, 2, 4, 8] → o.kt ≤ 2 → keys.length < 2 ^ 16 →
    (let t := runTag o g pay keys
     t.getLsbD 31 = true ∧ t.getLsbD 30 = o.desc ∧ (t.extractLsb' 28 2).toNat = o.kt ∧
     8 * 2 ^ (t.extractLsb' 26 2).toNat = o.kw ∧ t.getLsbD 25 = decide keys.Nodup ∧ t.getLsbD 24 = pay ∧ t.extractLsb' 18 6 = 0 ∧
     2 ^ (t.extractLsb' 16 2).toNat = g ∧ (t.extractLsb' 0 16).toNat = keys.length ∧ t.extractLsb' 32 32 = 0)

/-- R119, R121, R446, R449, R462: VRANK counts for each element of vb the keys before it, and those equal to it where MODE is 1,
saturating at the width, and at vl 0 the tail policy alone acts; VRUN tags a group whose elements are in order and marks any other
unsorted; its read form answers the length of a run, or all ones, as of a queue, whose head it pops; VUNRUN marks a group
unsorted. -/
def Sys2Proof.Claims.RankResult : Prop :=
  (∀ (p q m g : Bool) (b a d : Reg) (s : State),
    (let x : RunArgs := { i := .vrank p q m g b a d, d := d, srcs := [.run p a, .data q b], pays := [], pay := false,
                          apart := [.run p a] }
     let n := grpNow s
     let w := sewNow s
     let ks := (keysOf s x (.run p a)).map (fun e => e.1)
     let bs := operand s b n w (vlNow s)
     let count (y : Nat) : Nat := ks.countP (fun k => (x.order s).before k y || (g && k == y))
     runReady x s →
     (s.regs.vl = 0 →
       exec (.vrank p q m g b a d) s = .next (((popNamed s [b]).writeGroup d n w [] false).advance 4)) ∧
     (s.regs.vl ≠ 0 → exec (.vrank p q m g b a d) s =
       .next ((mapRegs
         ((popNamed s [b]).writeGroup d n w (outsOf (s.regs.active m) (fun j => .put (min (count (bs.getD j 0)) (2 ^ w - 1)))) false)
         (fun r => r.accrue
           (if ((s.regs.active m).zip bs).any (fun y => y.1 && decide (2 ^ w - 1 < count y.2)) then 4 else 0))).advance 4)))) ∧
  (∀ (g : Bool) (k : BitVec 2) (r : Bool) (d : Reg) (s : State),
    (let n := grpNow s
     let keys := elems (sewNow s) (groupBits s.regs.v s.cap d.toNat n) (vlNow s)
     let o : KeyOrder := ⟨r, k.toNat, sewNow s⟩
     s.regs.sewCode ≠ 0 → badKind k s.regs = false → s.isQueue d.toNat = false → dstReady s d n →
     (g = true → s.badPayload d.toNat n = false) →
     exec (.vrun g k r d) s = .next ((mapRegs s (fun y => { y with
       stag := if o.sorted keys then setTag y.stag d.toNat n (runTag o n g keys)
         else y.stag.set 0 d.toNat (unsorted (y.stag.get 0 d.toNat)) })).advance 4))) ∧
  (∀ (p : Bool) (a d : Reg) (s : State), s.regs.sewCode ≠ 0 → (s.isQueue a.toNat = false → s.owns a.toNat 1 = true) →
    srcFull s a 1 (sewNow s) → fullX s d →
    exec (.vrunLen p a d) s = .next ((mapRegs (popNamed s [a]) (fun r => r.setX d
      (if s.isQueue a.toNat = false ∧ tagSorted (s.regs.stag.get 0 a.toNat) = true
       then BitVec.ofNat 64 (tagLen (s.regs.stag.get 0 a.toNat)) else BitVec.allOnes 64))).advance 4)) ∧
  (∀ (d : Reg) (s : State), s.regs.sewCode ≠ 0 → s.isQueue d.toNat = false → s.owns d.toNat 1 = true →
    exec (.vunrun d) s = .next ((mapRegs s (fun r =>
      { r with stag := r.stag.set 0 d.toNat (unsorted (r.stag.get 0 d.toNat)) })).advance 4))

/-- R105, R112, R119, R121, R446, R449, R462: VRANK, and what sets, reads and clears a run tag. (What VRANK's tag is where it writes
nothing is the model's choice, log entry 82.) -/
def Obligations.RankAndTags : Prop :=
  Sys2Proof.Claims.RankResult ∧
  Sys2Proof.Claims.RunTagFields

/-! ## Tiles -/

namespace Sys2Proof.Claims

/-- The instructions that set a tile up: its number in the CR, whether it must not be OFF, and what becomes of it. -/
def tileForm : Instr → Option (Nat × Bool × (Tile → Tile))
  | .tcfg fmt ta => some (ta.toNat, false, fun t => { t with st := .idle, fmt := fmt, int := fmt == 4, cells := 0 })
  | .toff0 => some (0, false, fun t => { t with st := .off, cells := 0 })
  | .toff1 => some (1, false, fun t => { t with st := .off, cells := 0 })
  | .toff2 => some (2, false, fun t => { t with st := .off, cells := 0 })
  | .toff3 => some (3, false, fun t => { t with st := .off, cells := 0 })
  | .toff4 => some (4, false, fun t => { t with st := .off, cells := 0 })
  | .toff5 => some (5, false, fun t => { t with st := .off, cells := 0 })
  | .toff6 => some (6, false, fun t => { t with st := .off, cells := 0 })
  | .toff7 => some (7, false, fun t => { t with st := .off, cells := 0 })
  | .tzero0 => some (0, true, fun t => { t with cells := 0 })
  | .tzero1 => some (1, true, fun t => { t with cells := 0 })
  | .tzero2 => some (2, true, fun t => { t with cells := 0 })
  | .tzero3 => some (3, true, fun t => { t with cells := 0 })
  | .tzero4 => some (4, true, fun t => { t with cells := 0 })
  | .tzero5 => some (5, true, fun t => { t with cells := 0 })
  | .tzero6 => some (6, true, fun t => { t with cells := 0 })
  | .tzero7 => some (7, true, fun t => { t with cells := 0 })
  | _ => none

/-- TPRED's x register. -/
def predForm : Instr → Option Reg
  | .tpred0 => some 0
  | .tpred1 => some 1
  | .tpred2 => some 2
  | .tpred3 => some 3
  | .tpred4 => some 4
  | .tpred5 => some 5
  | .tpred6 => some 6
  | .tpred7 => some 7
  | .tpred8 => some 8
  | .tpred9 => some 9
  | .tpred10 => some 10
  | .tpred11 => some 11
  | .tpred12 => some 12
  | .tpred13 => some 13
  | .tpred14 => some 14
  | .tpred15 => some 15
  | .tpred16 => some 16
  | .tpred17 => some 17
  | .tpred18 => some 18
  | .tpred19 => some 19
  | .tpred20 => some 20
  | .tpred21 => some 21
  | .tpred22 => some 22
  | .tpred23 => some 23
  | .tpred24 => some 24
  | .tpred25 => some 25
  | .tpred26 => some 26
  | .tpred27 => some 27
  | .tpred28 => some 28
  | .tpred29 => some 29
  | .tpred30 => some 30
  | .tpred31 => some 31
  | _ => none

/-- Tile `k` of the CR is the core's tile `c`, no matrix command holds it, it is not retired, and it is not OFF where `on`. -/
abbrev tileFree (s : State) (k c : Nat) (on : Bool) : Prop :=
  s.run.tiles[k]? = some c ∧
  (let t := s.core.tiles.get {} c
   t.st ≠ .busy ∧ t.st ≠ .draining ∧ t.retired = false ∧ (on = true → t.st ≠ .off))

/-- Write a core's tile. -/
def setTile (s : State) (c : Nat) (t : Tile) : State := s.setCore { s.core with tiles := s.core.tiles.set {} c t }

/-- A slice operand of `nb` bits, elements of `w` bits: its group is legal and full, or its queue has a head that suits. -/
abbrev slabReady (s : State) (k : Reg) (nb w : Nat) : Prop :=
  s.badSlab k.toNat nb = false ∧
  (if s.isQueue k.toNat then
     s.hart.popsSpent (k.toNat - 28) = false ∧
       (s.front.lq.get [] (k.toNat - 28)).head?.any (fun e => !e.stop && sewBits e.sew == w) = true
   else ∀ j, j < s.slabs nb → s.regs.emptyV (k.toNat + j) = false)

/-- A slice operand as a bit string. -/
def slab (s : State) (k : Reg) (nb w : Nat) : Nat :=
  if s.isQueue k.toNat then
    match s.front.lq.get [] (k.toNat - 28) with
    | e :: _ => e.bits % 2 ^ (e.vl * w)
    | [] => 0
  else groupBits s.regs.v s.cap k.toNat (s.slabs nb)

/-- Pop each queue that slice operands name, once. -/
def popSlabs (s : State) (ks : List Reg) : State :=
  (((ks.filter (fun k => s.isQueue k.toNat)).map (fun k => k.toNat - 28)).eraseDups).foldl popOne s

/-- TMOVR and TMOVC: column or not, destination, tile, x register, slice. -/
def tileMoveForm : Instr → Option (Bool × Reg × BitVec 3 × Reg × BitVec 8)
  | .tmovr vd ta xa sl => some (false, vd, ta, xa, sl)
  | .tmovc vd ta xa sl => some (true, vd, ta, xa, sl)
  | _ => none

/-- The 128 cells of a row or a column. -/
def tileLine (t : Tile) (col : Bool) (n : Nat) : List Nat :=
  (List.range 128).map (fun k => if col then cellAt t.cells k n else cellAt t.cells n k)

/-- TLD and TST of row `sl`: a SOLO hart, a tile that is free and on, and 512 local bytes at a multiple of 64 in no swatch but READY
ones. -/
abbrev rowReady (s : State) (c : Nat) (ta : BitVec 3) (xa : Reg) (sl : BitVec 8) : Prop :=
  s.pair = false ∧ sl.toNat ≤ 127 ∧ fullX s xa ∧ tileFree s ta.toNat c true ∧ (s.regs.getX xa).toNat % 64 = 0 ∧
  (s.regs.getX xa).toNat + 512 ≤ 1572864 ∧ (s.covering (s.regs.getX xa).toNat 512).all (fun w => w.st == .ready) = true

end Sys2Proof.Claims

/-- R200, R393, R398, R399, R403: TCFG, TOFF and TZERO change the tile that they name as the rules say and pass: TZERO writes every cell 0,
whatever `tpred` holds, and leaves FMT, ACC and the state; a tile that is BUSY or DRAINING is waited for. TPRED writes `tpred`. Every other
tile, every register but `tpred` and the pc, and every byte of memory is as before. -/
def Obligations.TileSetUp : Prop :=
  (∀ (i : Instr) (s : State) (k c : Nat) (on : Bool) (f : Tile → Tile),
    tileForm i = some (k, on, f) → s.isAccess = false → tileFree s k c on →
    exec i s = .next ((setTile s c (f (s.core.tiles.get {} c))).advance i.size)) ∧
  (∀ (i : Instr) (s : State) (k c : Nat) (on : Bool) (f : Tile → Tile),
    tileForm i = some (k, on, f) → s.isAccess = false → s.run.tiles[k]? = some c →
    ((s.core.tiles.get {} c).st = .busy ∨ (s.core.tiles.get {} c).st = .draining) →
    ∃ t, exec i s = .next t ∧ t.hart.wait = .resource ∧ t.regs = s.regs ∧ t.cores = s.cores ∧ t.mem = s.mem ∧ sameTrapState s t) ∧
  (∀ (i : Instr) (a : Reg) (s : State), predForm i = some a → s.isAccess = false → fullX s a →
    badPredicate (s.regs.getX a) = false →
    exec i s = .next ((mapRegs s (fun r => { r with tpred := (s.regs.getX a).extractLsb' 0 16 })).advance i.size))

/-- R96, R201, R202, R366: MOPA adds the products of the operand slices to the tile's cells under `tpred` and raises its flags. -/
def Sys2Proof.Claims.OuterProductResult : Prop :=
  ∀ (fmt ta : BitVec 3) (va vb : Reg) (s : State) (c : Nat), s.isAccess = false → tileFree s ta.toNat c true →
    slabReady s va (sliceBits fmt.toNat) (tileWidth fmt.toNat) → slabReady s vb (sliceBits fmt.toNat) (tileWidth fmt.toNat) →
    (s.core.tiles.get {} c).int = (fmt == 4) →
    (let r := mopaStep fmt.toNat s.regs.predRows s.regs.predCols (slab s va (sliceBits fmt.toNat) (tileWidth fmt.toNat))
       (slab s vb (sliceBits fmt.toNat) (tileWidth fmt.toNat)) (s.core.tiles.get {} c).cells
     exec (.mopa fmt ta va vb) s =
       .next ((mapRegs (setTile (popSlabs s [va, vb]) c { s.core.tiles.get {} c with cells := r.1 })
         (fun g => g.raiseAll r.2)).advance 8))

/-- R204, R401: TSACC adds the scaled partial of the second tile to the first and zeroes the second. -/
def Sys2Proof.Claims.ScaleAccumulateResult : Prop :=
  ∀ (sf : Bool) (ta tb : BitVec 3) (va vb : Reg) (s : State) (c d : Nat), s.isAccess = false → ta ≠ tb → c ≠ d →
    tileFree s ta.toNat c true → tileFree s tb.toNat d true → (s.core.tiles.get {} c).int = false →
    slabReady s va 4096 32 → slabReady s vb 4096 32 →
    (let A := s.core.tiles.get {} c
     let B := s.core.tiles.get {} d
     let r := scaleStep sf s.regs.predRows s.regs.predCols (slab s va 4096 32) (slab s vb 4096 32) B A.cells
     exec (.tsacc sf ta tb va vb) s =
       .next ((mapRegs (setTile (setTile (popSlabs s [va, vb]) c { A with cells := r.1 }) d { B with cells := 0 })
         (fun g => g.raiseAll r.2)).advance 8))

/-- R205, R397: TMOVR and TMOVC write a row or a column of a tile, x[a] + SLICE, to their group, or push it into the store queue that
they name as an entry of 128 elements. -/
def Sys2Proof.Claims.TileMoveResult : Prop :=
  ∀ (i : Instr) (col : Bool) (vd : Reg) (ta : BitVec 3) (xa : Reg) (sl : BitVec 8) (s : State) (c : Nat),
    tileMoveForm i = some (col, vd, ta, xa, sl) → s.isAccess = false → tileFree s ta.toNat c true → fullX s xa →
    (s.regs.getX xa).toNat + sl.toNat ≤ 127 → s.badSlab vd.toNat 4096 = false →
    (let line := tileLine (s.core.tiles.get {} c) col ((s.regs.getX xa).toNat + sl.toNat)
     (s.isQueue vd.toNat = false → (∀ j, j < s.slabs 4096 → s.regs.emptyV (vd.toNat + j) = false) →
       exec i s = .next ((s.writeSlab vd line).advance i.size)) ∧
     (s.isQueue vd.toNat = true → Quiet s → (s.front.sqData.get [] (vd.toNat - 28)).length < 16 →
       (∀ a, (s.front.sqAddr.get [] (vd.toNat - 28))[(s.front.sqData.get [] (vd.toNat - 28)).length]? = some a →
         a.vl = 128 ∧ a.sew = 3) →
       ∃ t, exec i s = .next t ∧
         t.front.sqData.get [] (vd.toNat - 28) =
           s.front.sqData.get [] (vd.toNat - 28) ++ [{ vl := 128, sew := 3, bits := packElems 32 line }] ∧
         t.regs = passed i (s.regs.lastV vd) ∧ t.mem = s.mem ∧ sameTrapState s t))

/-- R205, R396, R402: TLD reads a row of a tile from the 512 local bytes at x[a]; TST stores a row there, into the strip's buffer in
unprivileged mode. -/
def Sys2Proof.Claims.TileRowResult : Prop :=
  ∀ (ta : BitVec 3) (xa : Reg) (sl : BitVec 8) (s : State) (c : Nat), rowReady s c ta xa sl → s.hart.buf = [] →
    (let T := s.core.tiles.get {} c
     (∃ t, exec (.tld ta xa sl) s = .next t ∧
       t.cores = (setTile s c
         { T with cells := withRow T.cells sl.toNat (wordsOf 128 (s.core.scratch.bytes (s.regs.getX xa).toNat 512)) }).cores ∧
       t.regs = passed (.tld ta xa sl) s.regs ∧ t.mem = s.mem ∧ sameTrapState s t) ∧
     (s.priv = false →
       ∃ t, exec (.tst ta xa sl) s = .next t ∧
         t.hart.buf = [.local (s.regs.getX xa).toNat ((tileLine T false sl.toNat).flatMap (toBytes 4)) s.regs.pc] ∧
         t.regs = passed (.tst ta xa sl) s.regs ∧ t.mem = s.mem ∧ t.cores = s.cores ∧ sameTrapState s t))

/-! ## Views -/

namespace Sys2Proof.Claims

/-- An irrevocable instruction of a hart that may run it: not the execute hart, nothing uncommitted, no store-queue store before it
and no ticket. -/
abbrev issueReady (s : State) : Prop := s.isExec = false ∧ Quiet s ∧ queuesClear s ∧ s.ticket = 0

/-- The registers after x[d] takes a value. -/
def xAfter (i : Instr) (s : State) (d : Reg) (v : Word) : Regs := passed i (s.regs.setX d v)

end Sys2Proof.Claims

/-- R142, R143, R425: VIEWNEW of a range that may be covered puts a view into a free entry, answers its handle, adds one to the
coverage count of every patch of the range and zeroes those that had none; it answers 1 where the table is full and 0 where the
pools are short, and then changes nothing. -/
def Sys2Proof.Claims.ViewNewResult : Prop :=
  ∀ (p q : Bool) (b a d : Reg) (s : State), issueReady s → fullX s a → fullX s b → fullX s d → s.late = false →
    (let lo := (s.regs.getX a).toNat
     let hi := lo + (s.regs.getX b).toNat
     let i : Instr := .viewnew p q b a d
     hi ≤ 2 ^ 42 → s.uncoverable lo hi = none →
     (s.nextView = none →
       ∃ t, exec i s = .next t ∧ t.regs = xAfter i s d 1 ∧ t.dev = s.dev ∧ t.mem = s.mem) ∧
     (∀ k, s.nextView = some k →
       (s.poolShort (s.newPatches lo hi) = true →
         ∃ t, exec i s = .next t ∧ t.regs = xAfter i s d 0 ∧ t.dev = s.dev ∧ t.mem = s.mem) ∧
       (s.poolShort (s.newPatches lo hi) = false →
         ∃ t, exec i s = .next t ∧ t.regs = xAfter i s d (handleOf (s.dev.views.get {} k).gen k) ∧
           (let v := t.dev.views.get {} k
            v.live = true ∧ v.lo = lo ∧ v.hi = hi ∧ v.ctx = s.ctx ∧ v.gen = (s.dev.views.get {} k).gen) ∧
           (∀ n, t.dev.patches.get 0 n =
             s.dev.patches.get 0 n + if (patchRange lo hi).1 ≤ n ∧ n < (patchRange lo hi).1 + (patchRange lo hi).2 then 1 else 0) ∧
           (∀ n, n ∈ s.newPatches lo hi → ∀ j, j < 65536 → t.mem.get 0 (coveredKey (65536 * n) + j) = 0) ∧
           (∀ j, j < 2 ^ 40 → t.mem.get 0 j = s.mem.get 0 j) ∧ sameTrapState s t)))

/-- R368, R424, R427, R144: VIEWSPLIT cuts a view at an address between its bounds, NARROW moves its bounds inwards, and VIEWDROP ends
it: its handle names nothing any more. -/
def Sys2Proof.Claims.ViewChangeResult : Prop :=
  (∀ (p q : Bool) (b a d : Reg) (s : State) (w : View) (k : Nat), issueReady s → fullX s a → fullX s b → fullX s d →
    s.liveView (s.regs.getX a) = some w → w.lo ≤ (s.regs.getX b).toNat → (s.regs.getX b).toNat ≤ w.hi → s.nextView = some k →
    ∃ t, exec (.viewsplit p q b a d) s = .next t ∧
      t.regs = xAfter (.viewsplit p q b a d) s d (handleOf (s.dev.views.get {} k).gen k) ∧
      (let u := t.dev.views.get {} (handleIndex (s.regs.getX a))
       let v := t.dev.views.get {} k
       u.lo = w.lo ∧ u.hi = (s.regs.getX b).toNat ∧ v.live = true ∧ v.lo = (s.regs.getX b).toNat ∧ v.hi = w.hi ∧ v.ctx = s.ctx) ∧
      t.mem = s.mem ∧ sameTrapState s t) ∧
  (∀ (p q : Bool) (b a d : Reg) (s : State) (w : View), issueReady s → fullX s a → fullX s b → fullX s d →
    s.liveView (s.regs.getX d) = some w → w.lo ≤ (s.regs.getX a).toNat → (s.regs.getX a).toNat ≤ (s.regs.getX b).toNat →
    (s.regs.getX b).toNat ≤ w.hi →
    ∃ t, exec (.narrow p q b a d) s = .next t ∧ t.regs = passed (.narrow p q b a d) s.regs ∧
      (let u := t.dev.views.get {} (handleIndex (s.regs.getX d))
       u.live = true ∧ u.lo = (s.regs.getX a).toNat ∧ u.hi = (s.regs.getX b).toNat) ∧ t.mem = s.mem ∧ sameTrapState s t) ∧
  (∀ (p : Bool) (a : Reg) (s : State) (w : View), issueReady s → fullX s a → s.liveView (s.regs.getX a) = some w →
    ∃ t, exec (.viewdrop p a) s = .next t ∧ t.regs = passed (.viewdrop p a) s.regs ∧ t.liveView (s.regs.getX a) = none ∧
      t.mem = s.mem ∧ sameTrapState s t)

/-- R426: VIEWQ answers a view's bounds, whether it lives, and how many patches are free; it changes nothing else. -/
def Sys2Proof.Claims.ViewQueryResult : Prop :=
  ∀ (p q : Bool) (b a d : Reg) (s : State), issueReady s → fullX s a → fullX s b → fullX s d → s.late = false →
    (s.regs.getX b).toNat ≤ 3 →
    (let live := s.liveView (s.regs.getX a)
     let v : Word :=
       if s.regs.getX b = 0 then (match live with | some w => BitVec.ofNat 64 w.lo | none => BitVec.allOnes 64)
       else if s.regs.getX b = 1 then (match live with | some w => BitVec.ofNat 64 w.hi | none => BitVec.allOnes 64)
       else if s.regs.getX b = 2 then (if live.isSome then 1 else 0)
       else BitVec.ofNat 64 s.poolFree
     ∃ t, exec (.viewq p q b a d) s = .next t ∧ t.regs = xAfter (.viewq p q b a d) s d v ∧ t.mem = s.mem ∧ t.dev = s.dev ∧
       sameTrapState s t)

/-! ## Tasks -/

namespace Sys2Proof.Claims

/-- The state after an irrevocable instruction that leaves `t` and writes `v` to x[d]. -/
def issued (i : Instr) (t : State) (d : Reg) (v : Word) : State := fresh ((mapRegs t (fun r => r.setX d v)).advance i.size)

/-- The CR that SPAWN makes of an image, with the weight that it gives away. -/
def spawnedCr (s : State) (img : List Byte) (give : Nat) : CR :=
  { resolveCr s.regionNow (CR.ofBytes img) with
    weight := BitVec.ofNat 64 give, region := s.run.cr.region, ticket := s.ticket }

/-- The charge of a SPAWN (03 R34): room on queue 0, and weight `w + drawn` of which `give` is given away. -/
abbrev spawnCharge (s : State) (share drawn give : Nat) : Prop :=
  s.regionNow.failing = false ∧ s.regionNow.charged.get 0 0 + 2 ≤ s.regionNow.reserve.get 0 0 ∧
  drawn = (if s.run.cweight.toNat < 2 then 2 ^ 32 else 0) ∧
  (s.run.cweight.toNat < 2 → s.regionNow.drawn.toNat + 2 ^ 32 ≤ 2 ^ 63) ∧
  give = (if share = 0 then (s.run.cweight.toNat + drawn) / 2 else share) ∧ give < s.run.cweight.toNat + drawn

/-- No region is failing. -/
abbrev noneFailing (s : State) : Prop := ∀ e ∈ s.regions, e.2.failing = false

end Sys2Proof.Claims

/-- R34, R383: SPAWN of a legal image, with its charge paid, leaves the CR the rest of the weight, counts itself, charges one entry, and
puts the new CR at the tail of its region: ready where it has no join counter or the counter reads 0, parked otherwise. -/
def Sys2Proof.Claims.SpawnAnswers : Prop :=
  ∀ (p q : Bool) (b a : Reg) (s u : State) (img : List Byte) (drawn give count : Nat),
    issueReady s → fullX s a → fullX s b → loadBlock (s.regs.getX a).toNat 64 8 (fresh s) = .ok (img, u) →
    imageIllegal s.regionNow img = false → spawnCharge s (s.regs.getX b).toNat drawn give →
    (let c := spawnedCr s img give
     ((c.joinaddr = 0 ∧ count = 0) ∨ (c.joinaddr ≠ 0 ∧ ∃ v, readCounter c.joinaddr.toNat u = .ok (count, v))) →
     ∃ t, exec (.spawn p q b a) s = .next t ∧ t.run.cweight.toNat = s.run.cweight.toNat + drawn - give ∧
       t.run.spawns = (s.run.spawns + 1) % 2 ^ 32 ∧
       t.regionNow.drawn = s.regionNow.drawn + BitVec.ofNat 64 drawn ∧
       t.regionNow.charged.get 0 0 = s.regionNow.charged.get 0 0 + 1 ∧
       (if count = 0 then t.regionNow.ready = s.regionNow.ready ++ [c] ∧ t.regionNow.parked = s.regionNow.parked
        else t.regionNow.ready = s.regionNow.ready ∧ t.regionNow.parked = s.regionNow.parked ++ [c]) ∧
       t.regs = passed (.spawn p q b a) s.regs ∧ sameTrapState s t)

namespace Sys2Proof.Claims

/-- Bytes `n` from offset `off` of an image. -/
def part (img : List Byte) (off n : Nat) : List Byte := (img.drop off).take n

/-- Memory at `key` holds an RCB's fields at their offsets, each of `n` bytes with its value (03 R22). -/
def fieldsAt (t : State) (key : Nat) (l : List (Nat × Nat × Nat)) : Prop :=
  ∀ f ∈ l, t.mem.bytes (key + f.1) f.2.1 = toBytes f.2.1 f.2.2

/-- Every byte of memory is as before, but the fields of an RCB at `key` and the 64 bytes of a ring slot. -/
def sameBut (s t : State) (key slot : Nat) (l : List (Nat × Nat × Nat)) : Prop :=
  ∀ j, (∀ f ∈ l, j < key + f.1 ∨ key + f.1 + f.2.1 ≤ j) → (j < slot ∨ slot + 64 ≤ j) → t.mem.get 0 j = s.mem.get 0 j

/-- The RCB and a ring slot of a region lie in the window, each in one run of memory, and share no byte. -/
def controlAt (s : State) (ctx rcb va key slot : Nat) : Prop :=
  rcb + 256 ≤ 2 ^ 42 ∧ va + 64 ≤ 2 ^ 42 ∧ scalarRange s 256 ctx .write true rcb 256 = .ok [⟨rcb, key, 256⟩] ∧
  scalarRange s 256 ctx .write true va 64 = .ok [⟨va, slot, 64⟩] ∧ (slot + 64 ≤ key ∨ key + 256 ≤ slot)

end Sys2Proof.Claims

/-- R22, R24, R27, R34: the memory that SPAWN changes: the ring slot at the tail holds the image with the weight given, the region, the ticket
and no save area in their places; the tail and the count of queue 0 in the RCB rise by one, and what is drawn by what was drawn;
every other byte is as before. -/
def Sys2Proof.Claims.SpawnMemory : Prop :=
  ∀ (p q : Bool) (b a : Reg) (s u : State) (img : List Byte) (drawn give count key slot : Nat),
    issueReady s → fullX s a → fullX s b → loadBlock (s.regs.getX a).toNat 64 8 (fresh s) = .ok (img, u) →
    imageIllegal s.regionNow img = false → spawnCharge s (s.regs.getX b).toNat drawn give →
    (let c := spawnedCr s img give
     let R := s.regionNow
     ((c.joinaddr = 0 ∧ count = 0) ∨ (c.joinaddr ≠ 0 ∧ ∃ v, readCounter c.joinaddr.toNat u = .ok (count, v))) →
     controlAt s s.ctx R.rcb (R.ring + 64 * (R.tail % max R.ringlen 1)) key slot → R.charged.get 0 0 + 1 < 2 ^ 32 → R.tail < 2 ^ 32 →
     (let l := [(68, 4, (R.tail + 1) % 2 ^ 32), (88, 4, R.charged.get 0 0 + 1)] ++
        if drawn = 0 then [] else [(32, 8, R.drawn.toNat + drawn)]
      ∃ t, exec (.spawn p q b a) s = .next t ∧ fieldsAt t key l ∧ sameBut s t key slot l ∧
        t.mem.bytes slot 64 =
          part img 0 24 ++ toBytes 8 give ++ part img 32 4 ++ toBytes 2 s.run.cr.region ++ part img 38 3 ++ toBytes 1 s.ticket ++
          part img 42 6 ++ toBytes 8 0 ++ part img 56 8))

/-- R27: what makes a CR image ILLEGAL, and the lanes and the kind of a CR: the header's where the image has 0, clamped to the
region's lanes. -/
def Sys2Proof.Claims.ImageChecks : Prop :=
  ∀ (R : Region) (img : List Byte), img.length = 64 →
    (let at' (k : Nat) : Nat := (img.getD k 0).toNat
     let lo := if at' 38 = 0 then R.hmin else at' 38
     let hi := if at' 39 = 0 then R.hmax else at' 39
     let c := resolveCr R (CR.ofBytes img)
     (imageIllegal R img = true ↔
       3 ≤ at' 40 ∨ (∃ k, (42 ≤ k ∧ k < 48 ∨ 56 ≤ k ∧ k < 64) ∧ at' k ≠ 0) ∨ hi < lo ∨ 8 < lo ∨ 8 < hi ∨
         min hi R.lanemax < max lo R.lanemin) ∧
     c.code.toNat = ofBytes (part img 0 8) ∧ c.frame.toNat = ofBytes (part img 8 8) ∧ c.joinaddr.toNat = ofBytes (part img 16 8) ∧
     c.tag.toNat = ofBytes (part img 32 4) ∧ c.lanemin = max lo R.lanemin ∧ c.lanemax = min hi R.lanemax ∧
     c.kind = if at' 40 = 0 then R.hkind else at' 40)

/-- R22, R24, R27, R34, R383: SPAWN: what it answers, the memory that it changes, and how it reads its image. -/
def Obligations.SpawnResult : Prop :=
  Sys2Proof.Claims.SpawnAnswers ∧
  Sys2Proof.Claims.SpawnMemory ∧
  Sys2Proof.Claims.ImageChecks

/-- R35, R359: JOIN takes one from a counter that is not 0, answers what it was, and where it was 1 makes ready every CR of the context
that is parked on its address; a counter at 0 stays. -/
def Sys2Proof.Claims.JoinResult : Prop :=
  ∀ (p : Bool) (a d : Reg) (s : State) (key : Nat), issueReady s → fullX s a → fullX s d → s.late = false →
    atomicReady s (s.regs.getX a).toNat 8 key →
    ∃ t, exec (.join p a d) s = .next t ∧
      (let old := ofBytes (s.mem.bytes key 8)
       t.mem.bytes key 8 = toBytes 8 (old - 1) ∧ sameBytesOutside s t key 8 ∧
       t.regs = xAfter (.join p a d) s d (BitVec.ofNat 64 old) ∧ t.run.joins = (s.run.joins + 1) % 2 ^ 32 ∧
       (∀ k, t.regionAt k =
         if old = 1 ∧ k / 65536 = s.ctx then (s.regionAt k).wake (s.regs.getX a).toNat (s.dev.wakes + 1) else s.regionAt k) ∧
       sameTrapState s t)

/-- No store queue of the front holds a store whose data has come (04 R65). -/
abbrev Sys2Proof.Claims.noPairs (s : State) : Prop :=
  ∀ q, q < 4 → s.front.sqAddr.get [] q = [] ∨ s.front.sqData.get [] q = []

/-- A front whose queue still drains what the CR that exited has issued, and whose last entry may retire: that CR's strip has nothing to
commit, and no ticket, no save area and no failing region stands behind it. -/
def Sys2Proof.Claims.drainReady (s : State) (f : Nat) (x : Drain) : Prop :=
  (s.frontAt f).drain = some x ∧ x.hart.priv = false ∧ x.hart.buf = [] ∧ x.hart.reads = [] ∧ x.run.cr.kind ≠ 2 ∧
  x.run.cr.ticket = 0 ∧ x.run.cr.save = 0 ∧ noneFailing s

/-- R37, R342, R66: EXIT of a SOLO hart ends the CR: the front holds none, and the CR's weight is in its region's returned field, where
neither completion nor a failure follows. EXIT of the access hart of a PAIR pushes an end entry into every load queue and leaves the
execute hart running; EXIT in privileged mode terminates the CR, once the store-queue stores of a PAIR whose data has come are performed
(log entry 61). In a turn that drains late the front holds no CR either, but keeps the
one that exited as the one whose queue drains, and no weight returns yet: which turns are late, and that the EXIT of another
turn retires at once, is the model's account of the vector instruction queue (log entry 51). -/
def Sys2Proof.Claims.ExitResult : Prop :=
  (∀ s : State, s.pair = false → s.priv = false → Quiet s → (s.late = false ∨ s.hart.holds = true) →
    ∃ t, exec .exit s = .next t ∧ t.fid = s.fid ∧ t.front.run = none ∧
      (s.ticket = 0 → s.run.cr.save = 0 → noneFailing s →
        (s.regionNow.returned + s.run.cweight).toNat ≠ 2 ^ 62 + s.regionNow.drawn.toNat →
        (t.regionAt s.regionKeyNow).returned = s.regionNow.returned + s.run.cweight)) ∧
  (∀ s : State, s.pair = false → s.priv = false → s.front.drain = none → s.late = true → s.hart.holds = false →
    ∃ t x, exec .exit s = .next t ∧ t.fid = s.fid ∧ t.front.run = none ∧ t.front.drain = some x ∧ x.run = s.run ∧
      x.hart.regs = s.front.e.regs ∧ x.hart.buf = s.front.e.buf ∧ x.grant = s.front.grant ∧ x.lanes = s.front.lanes ∧
      t.front.grant = s.front.grant ∧ t.front.lanes = s.front.lanes ∧ t.regions = s.regions ∧ t.mem = s.mem) ∧
  (∀ s : State, s.isAccess = true → s.priv = false → Quiet s → s.front.e.live = true →
    (∀ q, q < 4 → (s.front.queueSeen q).length < 16) →
    ∃ t, exec .exit s = .next t ∧ t.front.a.live = false ∧ t.front.e.live = true ∧
      (∀ q, q < 4 → t.front.lq.get [] q = s.front.lq.get [] q ++ [{ vl := 0, stop := true }]) ∧ t.mem = s.mem) ∧
  (∀ s : State, s.priv = true →
    (s.pair = false ∨ noPairs s → ∃ t, exec .exit s = .next t ∧ t.fid = s.fid ∧ t.front.run = none) ∧
    (s.pair = true → ¬ noPairs s →
      ∃ t, exec .exit s = .next t ∧ t.hart.wait = .room ∧ t.front.run = s.front.run ∧ t.regs = s.regs ∧ t.mem = s.mem ∧
        ∀ q, q < 4 → t.front.sqData.get [] q = s.front.sqData.get [] q))

/-- R38: the EXIT that returns the last of a region's weight completes the region: its status is COMPLETE; the region leaves the ACTIVE
ones before `done` is joined on the device's own account, through `JOIN`'s event (R35): the counter there loses one, and where it
was 1 the CRs of that context parked on it are ready. -/
def Sys2Proof.Claims.RegionCompletes : Prop :=
  (∀ s : State, s.pair = false → s.priv = false → Quiet s → (s.late = false ∨ s.hart.holds = true) → s.ticket = 0 →
    s.run.cr.save = 0 → noneFailing s → s.regionNow.status = 1 →
    (s.regionNow.returned + s.run.cweight).toNat = 2 ^ 62 + s.regionNow.drawn.toNat →
    ∃ t, exec .exit s = .next t ∧ t.front.run = none ∧ (t.regionAt s.regionKeyNow).status = 2 ∧
      (t.regionAt s.regionKeyNow).returned = s.regionNow.returned + s.run.cweight) ∧
  (∀ (s : State) (k : Nat),
    (let R := s.regionAt k
     R.status = 1 → R.failing = false → R.returned.toNat = 2 ^ 62 + R.drawn.toNat →
     ∃ u : State, (∀ j, u.regionAt j =
         if j = k then { R with status := 2, failing := false, aging := 0, steps := 0 } else s.regionAt j) ∧
       s.checkComplete k =
         if R.done.toNat = 0 then u
         else match u.joinAt 256 (k / 65536) deviceAgent true R.done.toNat with
           | .ok (_, w) => w
           | .error _ => u)) ∧
  (∀ (s : State) (ctx va key : Nat), va % 8 = 0 → scalarByte s 256 ctx .both true va = .ok key →
    (let c := cacheLeaf s 256 ctx .both true va
     let v := { c with order := c.order.acquire deviceAgent key }
     let old := ofBytes (s.mem.bytes key 8)
     v.mixed ctx deviceAgent 8 key 8 = false → v.poisoned key 8 = false →
     (∀ j, j < 8 → v.stands deviceAgent 8 (key + j) = true ∧ v.lands deviceAgent 8 (key + j) = true) →
     ∃ w, s.joinAt 256 ctx deviceAgent true va = .ok (old, w) ∧ w.mem.bytes key 8 = toBytes 8 (old - 1) ∧
       ∀ k, w.regionAt k = if old = 1 ∧ k / 65536 = ctx then (s.regionAt k).wake va (s.dev.wakes + 1) else s.regionAt k))

/-- R50, R246: EXIT in privileged mode terminates a CR of no ticket: the front holds none, the CR's weight returns to its region,
and, where the region's policy is COUNT, its faults count one more. -/
def Sys2Proof.Claims.CrTerminated : Prop :=
  ∀ s : State, s.priv = true → (s.pair = false ∨ noPairs s) → s.ticket = 0 → s.regionNow.propagate = false → noneFailing s →
    (s.regionNow.returned + s.run.cweight).toNat ≠ 2 ^ 62 + s.regionNow.drawn.toNat →
    ∃ t, exec .exit s = .next t ∧ t.fid = s.fid ∧ t.front.run = none ∧
      (t.regionAt s.regionKeyNow).returned = s.regionNow.returned + s.run.cweight ∧
      (t.regionAt s.regionKeyNow).faults = s.regionNow.faults + 1

/-- R51: where the policy of the region is PROPAGATE, and no CR of it runs elsewhere or is saved, no ticket of it is live or owes weight
and no ACTIVE region names it as its parent, the termination fails the region at once: its status is FAILED, and no CR that
WITHDRAW could remove stays in its FIFO or parked. A region of the host's own reports the failure by one event; otherwise the
termination goes on to the parent, whose faults count one more where its policy is COUNT. -/
def Sys2Proof.Claims.RegionFails : Prop :=
  ∀ s : State, s.priv = true → (s.pair = false ∨ noPairs s) → s.ticket = 0 → s.regionNow.propagate = true →
    s.regionNow.status = 1 → noneFailing s →
    s.childrenOf s.regionKeyNow = [] →
    (∀ e ∈ s.dev.tickets, regionKey e.2.ctx e.2.region = s.regionKeyNow → e.2.live = false ∧ e.2.owing = false) →
    (∀ r ∈ s.running, regionKey r.2.ctx r.2.cr.region = s.regionKeyNow → r.1 = s.fid) →
    (∀ c ∈ s.regionNow.ready, c.started = false) →
    ∃ t, exec .exit s = .next t ∧ t.front.run = none ∧ (t.regionAt s.regionKeyNow).status = 3 ∧
      (∀ c ∈ (t.regionAt s.regionKeyNow).ready ++ (t.regionAt s.regionKeyNow).parked, withdrawable 0 0 c = false) ∧
      (s.regionNow.parent = 0 → t.dev.events.length + t.dev.msix = s.dev.events.length + s.dev.msix + 1) ∧
      (let p := regionKey (s.regionKeyNow / 65536) s.regionNow.parent
       s.regionNow.parent ≠ 0 → p ≠ s.regionKeyNow → (s.regionAt p).status = 1 → (s.regionAt p).propagate = false →
       (t.regionAt p).faults = (s.regionAt p).faults + 1)

/-- R37, R80, R81: when the last queue entry of a CR that exited retires, its weight returns to its region and the CR that runs behind it
stays and may commit. Where an entry of it traps instead, the CR that runs ahead, which has committed nothing, returns to the
head of its region's FIFO with the weight that it holds, the front holds the exiting CR with its grant again, and that CR traps.
(Log entry 51 says when the model takes these steps.) -/
def Sys2Proof.Claims.DrainResult : Prop :=
  (∀ (s : State) (f : Nat) (x : Drain), drainReady s f x →
    (let k := regionKey x.run.ctx x.run.cr.region
     let t := s.drainFront f
     (t.frontAt f).drain = none ∧ (t.frontAt f).run = (s.frontAt f).run ∧
     (((s.regionAt k).returned + x.run.cweight).toNat ≠ 2 ^ 62 + (s.regionAt k).drawn.toNat →
       (t.regionAt k).returned = (s.regionAt k).returned + x.run.cweight) ∧
     ((s.frontAt f).run.isSome = true →
       (t.frontAt f).a = (s.frontAt f).a ∧ (t.frontAt f).e = (s.frontAt f).e ∧ (t.frontAt f).grant = (s.frontAt f).grant))) ∧
  (∀ (s : State) (f : Nat) (x : Drain) (r : Run), (s.frontAt f).drain = some x → (s.frontAt f).run = some r →
    (let k := regionKey r.ctx r.cr.region
     let t := s.undrain f
     (t.frontAt f).drain = none ∧ (t.frontAt f).run = some x.run ∧ (t.frontAt f).e = x.hart ∧ (t.frontAt f).grant = x.grant ∧
     (t.frontAt f).lanes = x.lanes ∧ (t.regionAt k).ready = { r.cr with weight := r.cweight, ran := true } :: (s.regionAt k).ready)) ∧
  (∀ (s : State) (f : Nat) (x : Drain) (c val : Nat) (pc : Word), (s.frontAt f).drain = some x →
    commitStrip ({ s with fid := f, slot := .e }.setFrontAt f
      { s.frontAt f with run := some x.run, drain := none, e := x.hart, image := x.image }) = .error (.trapAt c val pc) →
    s.drainFront f = takeTrap ({ s with fid := f, slot := .e }.undrain f).settled c val pc false)

/-- R39, R360: LAUNCH reads the header and the image and answers its status, with the new region's id above it where it succeeds. (That the id is
the lowest free one is the model's choice, log entry 13; that a failing parent is found before the checks of R39's table is log entry 37.) -/
def Sys2Proof.Claims.LaunchAnswers : Prop :=
  (∀ (p q : Bool) (b a d : Reg) (s u v : State) (hdr img : List Byte), issueReady s → fullX s a → fullX s b → fullX s d →
    s.late = false → loadBlock (s.regs.getX a).toNat 128 128 (fresh s) = .ok (hdr, u) →
    loadBlock (s.regs.getX b).toNat 256 256 u = .ok (img, v) →
    (let r := v.launch s.regionKeyNow ⟨hdr, img, (s.regs.getX b).toNat⟩
     exec (.launch p q b a d) s = .next (issued (.launch p q b a d) r.2 d (BitVec.ofNat 64 r.1)))) ∧
  (∀ (s : State) (parent id : Nat) (x : LaunchArgs), freeRegion s.regions (parent / 65536) 65535 1 = some id →
    launchStatus (s.effective parent) (resolve (s.effective parent) x) (s.childrenOf parent) false x = 0 →
    (let r := s.launch parent x
     let R := r.2.regionAt (regionKey (parent / 65536) id)
     r.1 = 65536 * id ∧ R.status = 1 ∧ R.parent = parent % 65536 ∧
     R.ready = [rootCr (resolve (s.effective parent) x) id x.hdr])) ∧
  (∀ (s : State) (parent n : Nat) (x : LaunchArgs), n ≠ 0 →
    launchStatus (s.effective parent) (resolve (s.effective parent) x) (s.childrenOf parent)
      (freeRegion s.regions (parent / 65536) 65535 1).isNone x = n → s.launch parent x = (n, s))

namespace Sys2Proof.Claims

/-- Bytes of a block from `lo` to `hi - 1` are zero. -/
def zeros (bs : List Byte) (lo hi : Nat) : Bool := ((List.range hi).drop lo).all (fun j => bs.getD j 0 == 0)

/-- A number in a block. -/
def num (bs : List Byte) (off n : Nat) : Nat := ofBytes (part bs off n)

/-- Queue entries that the header of a kernel asks for (03 R29, R39). -/
def occupancy (hdr : List Byte) : Nat := num hdr 32 4 + 1 + num hdr 36 4 + num hdr 40 4 + num hdr 44 4

/-- The lanes of a header are in R29's range. -/
def lanesInRange (hdr : List Byte) : Bool := 1 ≤ num hdr 25 1 && num hdr 25 1 ≤ num hdr 26 1 && num hdr 26 1 ≤ 8

/-- The causes of R39's table in its order, each with its status, of a child `R` under a parent `P` whose children are `kids`. -/
def refusals (P R : Region) (kids : List (Nat × Region)) (full : Bool) (hdr img : List Byte) : List (Nat × Bool) :=
  let own := P.reserve.get 0 0 + P.reserve.get 0 1 + P.reserve.get 0 2 + P.reserve.get 0 3
  [(1, full),
   (2, decide (R.qentries < occupancy hdr) || decide (P.qentries - own - (kids.map (fun e => e.2.qentries)).sum < R.qentries)),
   (3, decide (P.scratch - (kids.map (fun e => e.2.scratch)).sum < R.scratch)),
   (4, decide (P.tiles - (kids.map (fun e => e.2.tiles)).sum < R.tiles) || decide (R.tiles < num hdr 28 1)),
   (5, decide (R.lanemin < 1) || decide (R.lanemax < R.lanemin) || decide (R.lanemin < P.lanemin) || decide (P.lanemax < R.lanemax) ||
     (lanesInRange hdr && (decide (num hdr 26 1 < R.lanemin) || decide (R.lanemax < num hdr 25 1)))),
   (6, num hdr 0 4 != 1 || !(num hdr 24 1 == 1 || num hdr 24 1 == 2) || decide (64 < num hdr 27 1) || !lanesInRange hdr ||
     !zeros hdr 29 32 || !zeros hdr 48 128 || !zeros img 11 12 || !zeros img 21 24 || !zeros img 60 64 || !zeros img 128 256 ||
     decide (2 ^ 9 ≤ num img 4 4) || decide (2 ^ 2 ≤ num img 9 1)),
   (7, decide (P.priority < R.priority) || decide (P.fronts < R.fronts) || R.fronts == 0 || R.share == 0),
   (8, decide (R.ringlen < num hdr 32 4 + 1) || R.ring % 64 != 0)]

/-- What LAUNCH writes into the RCB of its region `R` of an id: the resolved fields and the hardware's, the tail behind the root CR
(03 R22, R23, R39). -/
def launchedFields (R : Region) (parent id : Nat) (hdr : List Byte) : List (Nat × Nat × Nat) :=
  [(0, 2, parent), (2, 2, id), (8, 1, R.priority), (9, 1, (if R.propagate then 1 else 0) + (if R.preemptible then 2 else 0)), (10, 1, 1),
   (12, 4, R.share), (16, 2, R.fronts), (18, 1, R.lanemin), (19, 1, R.lanemax), (20, 1, R.tiles), (24, 4, R.scratch),
   (28, 4, R.qentries), (32, 8, 0), (40, 8, 0), (64, 4, 0), (68, 4, 1), (72, 4, num hdr 32 4 + 1), (76, 4, num hdr 36 4),
   (80, 4, num hdr 40 4), (84, 4, num hdr 44 4), (88, 4, 0), (92, 4, 0), (96, 4, 0), (100, 4, 0), (124, 4, 0)]

end Sys2Proof.Claims

/-- R22, R23, R25, R26, R29, R39: a child's fields, from its image where the override bit is set and else from its parent; the checks of
R39's table in its order, of which the first that fails gives the status, with budgets that the parent has left over from its own
queues and its ACTIVE children; the root CR; and region 0. (That a failing parent is found first is the model's choice, log entry 37; that a
share above 65,535 is no refusal is log entry 59.) -/
def Sys2Proof.Claims.LaunchChecks : Prop :=
  (∀ (P : Region) (x : LaunchArgs), x.hdr.length = 128 → x.img.length = 256 →
    (let R := resolve P x
     let own (k : Nat) : Bool := (num x.img 4 4).testBit k
     R.rcb = x.rcb ∧ R.priority = (if own 0 then num x.img 8 1 else P.priority) ∧
     R.share = (if own 1 then num x.img 12 4 else P.share) ∧ R.fronts = (if own 2 then num x.img 16 2 else P.fronts) ∧
     R.lanemin = (if own 3 then num x.img 18 1 else P.lanemin) ∧ R.lanemax = (if own 3 then num x.img 19 1 else P.lanemax) ∧
     R.scratch = (if own 4 then num x.img 24 4 else P.scratch) ∧ R.tiles = (if own 5 then num x.img 20 1 else P.tiles) ∧
     R.qentries = (if own 6 then num x.img 28 4 else P.qentries) ∧
     R.propagate = (if own 7 then (num x.img 9 1).testBit 0 else P.propagate) ∧
     R.preemptible = (if own 8 then (num x.img 9 1).testBit 1 else P.preemptible) ∧
     R.ring = num x.img 48 8 ∧ R.ringlen = num x.img 56 4 ∧ R.rootframe.toNat = num x.img 104 8 ∧ R.done.toNat = num x.img 112 8 ∧
     R.roottag.toNat = num x.img 120 4 ∧ R.drawn = 0 ∧ R.returned = 0 ∧ R.faults = 0 ∧ R.charged = [] ∧ R.ready = [] ∧ R.parked = [] ∧
     R.reserve.get 0 0 = num x.hdr 32 4 + 1 ∧ R.reserve.get 0 1 = num x.hdr 36 4 ∧ R.reserve.get 0 2 = num x.hdr 40 4 ∧
     R.reserve.get 0 3 = num x.hdr 44 4 ∧
     (∀ (kids : List (Nat × Region)) (full : Bool), P.failing = false →
       launchStatus P R kids full x = (((refusals P R kids full x.hdr x.img).find? (fun c => c.2)).map (fun c => c.1)).getD 0) ∧
     (∀ (kids : List (Nat × Region)) (full : Bool), P.failing = true → launchStatus P R kids full x = 7) ∧
     (∀ id : Nat, (let c := rootCr R id x.hdr
       c.code.toNat = num x.hdr 8 8 ∧ c.frame.toNat = (if R.rootframe = 0 then num x.hdr 16 8 else R.rootframe.toNat) ∧ c.joinaddr = 0 ∧
       c.weight.toNat = 2 ^ 62 ∧ c.tag = R.roottag ∧ c.region = id ∧ c.lanemin = max (num x.hdr 25 1) R.lanemin ∧
       c.lanemax = min (num x.hdr 26 1) R.lanemax ∧ c.kind = num x.hdr 24 1 ∧ c.ticket = 0 ∧ c.save = 0)))) ∧
  (∀ (s : State) (ctx : Nat),
    (let P := s.effective (regionKey ctx 0)
     P.priority = 7 ∧ P.share = 1 ∧ P.fronts = 256 ∧ P.lanemin = 1 ∧ P.lanemax = 8 ∧ P.propagate = false ∧ P.preemptible = true ∧
     P.qentries = (s.ctxAt ctx).qentries.toNat ∧ P.scratch = (s.ctxAt ctx).scratch.toNat ∧ P.tiles = (s.ctxAt ctx).tiles.toNat)) ∧
  (∀ (s : State) (ctx id : Nat), freeRegion s.regions ctx 65535 1 = some id →
    1 ≤ id ∧ id < 65536 ∧ (s.regionAt (regionKey ctx id)).status ≠ 1) ∧
  (∀ (s : State) (ctx : Nat), freeRegion s.regions ctx 65535 1 = none → ∀ id, 1 ≤ id → id < 65536 → (s.regionAt (regionKey ctx id)).status = 1)

/-- R22, R23, R24, R39: the memory that a LAUNCH changes that is accepted: the fields of the RCB, which stays where its image stands, and the
64 bytes of the root CR in the ring's first slot; every other byte is as before. -/
def Sys2Proof.Claims.LaunchMemory : Prop :=
  ∀ (s : State) (parent id key slot : Nat) (x : LaunchArgs), x.hdr.length = 128 → x.img.length = 256 →
    freeRegion s.regions (parent / 65536) 65535 1 = some id →
    (let R := resolve (s.effective parent) x
     let c := rootCr R id x.hdr
     launchStatus (s.effective parent) R (s.childrenOf parent) false x = 0 → controlAt s (parent / 65536) x.rcb R.ring key slot →
     (let t := (s.launch parent x).2
      let l := launchedFields R (parent % 65536) id x.hdr
      fieldsAt t key l ∧ sameBut s t key slot l ∧
      t.mem.bytes slot 64 = toBytes 8 c.code.toNat ++ toBytes 8 c.frame.toNat ++ toBytes 8 0 ++ toBytes 8 (2 ^ 62) ++
        toBytes 4 c.tag.toNat ++ toBytes 2 id ++ toBytes 1 c.lanemin ++ toBytes 1 c.lanemax ++ toBytes 1 c.kind ++ toBytes 23 0))

/-- R22-R26, R29, R39, R360: LAUNCH: what it answers, its checks and what it makes, and the memory that it changes. -/
def Obligations.LaunchResult : Prop :=
  Sys2Proof.Claims.LaunchAnswers ∧
  Sys2Proof.Claims.LaunchChecks ∧
  Sys2Proof.Claims.LaunchMemory

/-- R48, R466: WITHDRAW removes from an ACTIVE region the queued and parked CRs that match, and answers how many; their weight returns. -/
def Sys2Proof.Claims.WithdrawResult : Prop :=
  (∀ (p q : Bool) (b a d : Reg) (s : State), issueReady s → fullX s a → fullX s b → fullX s d → s.late = false →
    (let k := if s.regs.getX a = 0 then s.regionKeyNow else s.regionNamed (s.regs.getX a)
     let r := (fresh s).withdraw k ((s.regs.getX b).extractLsb' 0 32) ((s.regs.getX b).extractLsb' 32 32)
     exec (.withdraw p q b a d) s = .next (issued (.withdraw p q b a d) r.2.settled d (BitVec.ofNat 64 r.1)))) ∧
  (∀ (s : State) (k : Nat) (tag mask : BitVec 32), (s.regionAt k).status = 1 →
    (let out := ((s.regionAt k).ready ++ (s.regionAt k).parked).filter (withdrawable tag mask)
     (s.regionAt k).returned + weightOf out ≠ BitVec.ofNat 64 (2 ^ 62) + (s.regionAt k).drawn →
     (s.regionAt k).drawn.toNat ≤ 2 ^ 63 →
     (s.withdraw k tag mask).1 = out.length ∧
     (let R := (s.withdraw k tag mask).2.regionAt k
      R.ready = (s.regionAt k).ready.filter (fun c => !withdrawable tag mask c) ∧
      R.parked = (s.regionAt k).parked.filter (fun c => !withdrawable tag mask c) ∧
      R.returned = (s.regionAt k).returned + weightOf out)))

/-- R47, R335: CLAIM takes from a block of two words, the next index and the limit, the least of x[b], what is left and VLMAX: it moves
the index on by that, sets vl to it and answers the old index. -/
def Sys2Proof.Claims.ClaimResult : Prop :=
  ∀ (p q : Bool) (b a d : Reg) (s : State) (key : Nat), issueReady s → fullX s a → fullX s b → fullX s d → s.late = false →
    reaches s .both (s.regs.getX a).toNat 16 key → s.mixed s.ctx s.agent 8 key 16 = false → s.poisoned key 16 = false →
    (∀ j, j < 16 → s.stands s.agent 8 (key + j) = true) → (∀ j, j < 8 → s.lands s.agent 8 (key + j) = true) →
    (let next := ofBytes (s.mem.bytes key 8)
     let lim := ofBytes (s.mem.bytes (key + 8) 8)
     let g := min (min (s.regs.getX b).toNat (lim - next)) s.vlmax
     ∃ t, exec (.claim p q b a d) s = .next t ∧ t.mem.bytes key 8 = toBytes 8 (next + g) ∧ sameBytesOutside s t key 8 ∧
       t.regs = passed (.claim p q b a d) ({ s.regs with vl := BitVec.ofNat 16 g }.setX d (BitVec.ofNat 64 next)) ∧
       sameTrapState s t)

/-- R469, R46: YIELD of a SOLO hart saves the CR and puts it at the tail of its region's FIFO; where it cannot be saved, and in privileged
mode, it only passes. -/
def Sys2Proof.Claims.YieldResult : Prop :=
  (∀ s : State, s.pair = false → s.priv = true → exec .yield s = .next (s.advance 4)) ∧
  (∀ s : State, s.pair = false → s.priv = false → Quiet s → s.hart.fills = [] → s.crBusy s.fid = false →
    (let next := checkpoint ((fresh s).advance 4)
     let needs := next.needsOf s.fid
     (next.saveCr s.fid true needs = none → exec .yield s = .next next) ∧
     (∀ c u, next.saveCr s.fid true needs = some (c, u) →
       exec .yield s = .next (u.pushReady (regionKey s.ctx c.region) c c.bytes) ∧ (u.frontAt s.fid).run = none)))

/-- R161, R467: WMPUB raises a watermark to x[b] where it is below, never lowers it, and remembers what it published. -/
def Sys2Proof.Claims.WatermarkPublished : Prop :=
  ∀ (p q : Bool) (b a : Reg) (s : State) (key : Nat), issueReady s → fullX s a → fullX s b →
    atomicReady s (s.regs.getX a).toNat 8 key →
    ∃ t, exec (.wmpub p q b a) s = .next t ∧
      t.mem.bytes key 8 = toBytes 8 (max (ofBytes (s.mem.bytes key 8)) (s.regs.getX b).toNat) ∧ sameBytesOutside s t key 8 ∧
      t.run.wmaddr = s.regs.getX a ∧ t.run.wmval = s.regs.getX b ∧ t.regs = passed (.wmpub p q b a) s.regs ∧ sameTrapState s t

/-- R40, R372: QSYNC sets the charge of a queue to the entries that are still held, and answers them. -/
def Sys2Proof.Claims.QueueSyncResult : Prop :=
  ∀ (p : Bool) (a d : Reg) (s : State), s.isExec = false → fullX s a → fullX s d → s.late = false → (s.regs.getX a).toNat ≤ 3 →
    ∃ t, exec (.qsync p a d) s = .next t ∧
      (let n := s.heldOf s.regionKeyNow (s.regs.getX a).toNat
       t.regs = xAfter (.qsync p a d) s d (BitVec.ofNat 64 n) ∧
       t.regionNow.charged.get 0 (s.regs.getX a).toNat = n ∧ t.regionNow.ready = s.regionNow.ready ∧ sameTrapState s t)

/-- R40, R372: the entries that a region holds: on queue 0 the CRs that run, or whose queue drains, and those that are ready, parked or held,
its root CR aside; on queues 1 to 3 the commands in the chains of one engine selector of all fronts that its CRs have issued and that
have not completed. -/
def Sys2Proof.Claims.EntriesHeld : Prop :=
  ∀ (s : State) (k : Nat),
    (let R := s.regionAt k
     let mine (r : Run) : Bool := decide (regionKey r.ctx r.cr.region = k) && !r.cr.root
     s.heldOf k 0 =
       (s.fronts.map (fun e => (e.2.run.toList.filter mine).length + (e.2.drain.toList.filter (fun x => mine x.run)).length)).sum +
       (R.ready.filter (fun c => !c.root)).length + (R.parked.filter (fun c => !c.root)).length + (R.held.filter (fun c => !c.root)).length ∧
     ∀ sel, sel < 3 → s.heldOf k (sel + 1) =
       (s.fronts.map (fun e => ((e.2.chain.get [] sel).filter (fun c =>
         c.owned && decide (regionKey c.ctx c.region = k ∧ c.launch = R.order))).length)).sum)

/-- R140, R370, R404: PIN writes a retention register of the context with a range; UNPIN clears it. They change nothing else. -/
def Sys2Proof.Claims.RetentionResult : Prop :=
  (∀ (p q : Bool) (b a : Reg) (s : State), s.isExec = false → fullX s a → fullX s b →
    (let u := s.regs.getX a
     let v := s.regs.getX b
     u.getLsbD 6 = false → v ≠ 0 → v.toNat % 128 = 0 → u.toNat / 128 * 128 < 2 ^ 42 → u.toNat / 128 * 128 + v.toNat ≤ 2 ^ 42 →
     ∃ t, exec (.pin p q b a) s = .next t ∧
       (let e := (t.ctxAt s.ctx).retention.get {} (u.toNat % 8)
        e.base = u.toNat / 128 * 128 ∧ e.len = v.toNat ∧ e.ways = (u.toNat / 8) % 8 + 1) ∧
       (∀ j, j ≠ u.toNat % 8 → (t.ctxAt s.ctx).retention.get {} j = (s.ctxAt s.ctx).retention.get {} j) ∧
       t.regs = passed (.pin p q b a) s.regs ∧ t.mem = s.mem ∧ sameTrapState s t)) ∧
  (∀ (p : Bool) (a : Reg) (s : State), s.isExec = false → fullX s a →
    ∃ t, exec (.unpin p a) s = .next t ∧ (t.ctxAt s.ctx).retention.get {} ((s.regs.getX a).toNat % 8) = {} ∧
      t.regs = passed (.unpin p a) s.regs ∧ t.mem = s.mem ∧ sameTrapState s t)

/-! ## Dispatch and pre-emption -/

/-- R53: a hart at dispatch: it runs in unprivileged mode, from `pc`, with x1 holding the frame, no vl, vtype 3, no flags, event counts or
seam, RNE, rad 16, no last destination, and nothing empty; its strip begins there. -/
def Sys2Proof.Claims.hartStarted (h : Hart) (c : CR) (pc : Word) : Prop :=
  h.live = true ∧ h.priv = false ∧ h.regs.pc = pc ∧ h.regs.getX 1 = c.frame ∧ h.regs.vl = 0 ∧ h.regs.vtype = 3 ∧ h.regs.fflags = 0 ∧
  h.regs.vsflags = 0 ∧ h.regs.erc = 0 ∧ h.regs.seam = 0 ∧ h.regs.frm = 0 ∧ h.regs.rad = 16 ∧ h.regs.lastd = 0 ∧
  h.regs.xEmpty = 0 ∧ h.regs.vEmpty = 0 ∧ h.ckpt = h.regs ∧ h.buf = []

/-- R44, R53: front `f` runs CR `c` of region `k` with `g` lanes, from its start: a SOLO hart and the access hart stand at the code address,
the execute hart 4 bytes after it, and instruction fetch reads memory as it stands. -/
def Sys2Proof.Claims.placed (t : State) (f k g : Nat) (c : CR) : Prop :=
  (t.frontAt f).grant = g ∧ (t.frontAt f).run.isSome = true ∧ (t.frontAt f).theRun.cr = c ∧
  (t.frontAt f).theRun.cweight = c.weight ∧ (t.frontAt f).theRun.ctx = k / 65536 ∧ (t.frontAt f).theRun.laneless = false ∧
  hartStarted (t.frontAt f).e c (if c.kind = 2 then c.code + 4 else c.code) ∧ (c.kind = 2 → hartStarted (t.frontAt f).a c c.code) ∧
  (t.frontAt f).image = t.mem

/-- R42: the CR leaves its region's ready FIFO, and no other CR does. -/
def Sys2Proof.Claims.taken (s t : State) (k : Nat) (c : CR) : Prop :=
  ∀ j, (t.regionAt j).ready = if j = k then (s.regionAt k).ready.erase c else (s.regionAt j).ready

/-- R44, R58, R59: the lanes of front `f` are `g` lanes of its own slice under the core's split; none is retired, and the core's other
front holds none of them. -/
def Sys2Proof.Claims.lanesGiven (t : State) (f g : Nat) : Prop :=
  let l := (t.frontAt f).lanes
  let C := t.coreAt (f / 2)
  laneCount l = g ∧ l &&& ~~~(sliceOf C.lpart.toNat (f % 2)) = 0 ∧ l &&& C.lanemap = 0 ∧
  l &&& (t.frontAt (f / 2 * 2 + (1 - f % 2))).lanes = 0

/-- R42-R44, R53, R60, R80, R253, R257: DISPATCH of an idle front that is the first of its die to ask, and that its dispatcher has a CR for,
takes the CR off its region's FIFO, gives the front its lanes, and starts its harts. A CR that runs ahead behind the SOLO CR whose
queue drains there is a SOLO CR of the same context and gets exactly that one's grant, on the same lanes, and the core's split
stays. A CR that lost its lanes goes on where a grant of the healthy lanes serves it. A CR bound to the front that nothing there can
ever serve is terminated with cause ECC. (That a front asks as soon as there is something for it, what the cursor does between
priorities and how the queue is modelled are log entries 70, 56 and 51.) -/
def Sys2Proof.Claims.DispatchResult : Prop :=
  (∀ (s : State) (k g : Nat) (c : CR) (D : Table Nat),
    (let f := s.arg.front % 256
     (s.frontAt f).frozen = false → (s.frontAt f).run = none → (s.frontAt f).drain = none → s.firstOfDie f = true →
     s.stranded f = none → s.decision f = some (k, c, g, D) → c.save = 0 →
     ∃ t, exec .dispatch s = .next t ∧ placed t f k g c ∧ taken s t k c ∧ lanesGiven t f g)) ∧
  (∀ (s : State) (x : Drain) (k g : Nat) (c : CR) (D : Table Nat),
    (let f := s.arg.front % 256
     (s.frontAt f).frozen = false → (s.frontAt f).run = none → (s.frontAt f).drain = some x → s.firstOfDie f = true →
     s.decisionBehind f x = some (k, c, g, D) → c.save = 0 →
     g = x.grant ∧ c.kind = 1 ∧ k / 65536 = x.run.ctx ∧
     ∃ t, exec .dispatch s = .next t ∧ placed t f k x.grant c ∧ taken s t k c ∧ (t.frontAt f).lanes = x.lanes ∧
       (t.frontAt f).drain = some x ∧ (t.coreAt (f / 2)).lpart = (s.coreAt (f / 2)).lpart)) ∧
  (∀ (s : State),
    (let f := s.arg.front % 256
     let r := (s.frontAt f).theRun
     let g := min (r.cr.lanemax * 8) (laneCount (s.freeLanes f).2 / 8 * 8)
     (s.frontAt f).frozen = false → (s.frontAt f).run.isSome = true → r.laneless = true → 8 ≤ g → r.cr.lanemin * 8 ≤ g →
     (∀ x ∈ s.needsOf f, Machine.reaches g x = true) →
     ∃ t, exec .dispatch s = .next t ∧ (t.frontAt f).grant = g ∧ (t.frontAt f).theRun = { r with laneless := false } ∧
       lanesGiven t f g)) ∧
  (∀ (s : State) (k : Nat) (c : CR),
    (let f := s.arg.front % 256
     (s.frontAt f).frozen = false → (s.frontAt f).run = none → (s.frontAt f).drain = none → s.firstOfDie f = true →
     s.stranded f = some (k, c) → exec .dispatch s = .next (s.terminateQueued k c 0x19)))

namespace Sys2Proof.Claims

/-- A region can place a further CR: it is ACTIVE, nothing gates it, and fewer of its CRs run than its fronts field (03 R41). -/
def opened (s : State) (k : Nat) (R : Region) : Prop :=
  R.status = 1 ∧ R.frozen = false ∧
  (s.running.filter (fun r => decide (regionKey r.2.ctx r.2.cr.region = k))).length < R.fronts

/-- The core of front `f` has free the tiles and swatch descriptors that a region's header asks for (03 R41). -/
def stocked (s : State) (f : Nat) (R : Region) : Prop :=
  let C := s.coreAt (f / 2)
  R.htiles ≤ ((List.range 8).filter (fun k =>
    let t := C.tiles.get {} k
    decide (t.front = 256 ∧ t.st = .off ∧ t.retired = false))).length ∧
  R.hswatches ≤ ((List.range 64).filter (fun k => decide ((C.swatches.get {} k).front = 256))).length

/-- The grant that a CR not dispatched before gets of `n` free lanes: the largest multiple of 8 within its maximum (03 R44). -/
def grantFor (c : CR) (n g : Nat) : Prop := g = min (8 * c.lanemax) (8 * (n / 8)) ∧ 8 ≤ g ∧ 8 * c.lanemin ≤ g

/-- Turns that the visits up to visit `n` begin for entry `i` of a round of `m`, whose first turn is under way where `going` (03 R42). -/
def turns (m : Nat) (going : Bool) (i n : Nat) : Nat := (n - i) / m + (if i = 0 ∧ going = true then 0 else 1)

/-- The CR of front `f` is a candidate for a ready CR `c` of region `k` (03 R45): its region is pre-emptible and of a lower effective
priority, R251 does not pass it over, and `c` would be eligible for the freed front, or, where `abort`, for the other front of the
core, with the lanes reclaimed. -/
def candidateFor (s : State) (k : Nat) (c : CR) (f : Nat) (abort : Bool) : Prop :=
  ∃ r, (s.frontAt f).run = some r ∧
    (let V := s.regionAt (regionKey r.ctx r.cr.region)
     V.preemptible = true ∧ V.frozen = false ∧ min 7 (V.priority + V.steps) < min 7 ((s.regionAt k).priority + (s.regionAt k).steps) ∧
     s.passedOver f = false ∧
     if abort then (s.without f).fits f k c = false ∧ (s.without f).fits (f / 2 * 2 + (1 - f % 2)) k c = true
     else (s.without f).fits f k c = true)

/-- The effective priority of the region whose CR front `f` runs (03 R43). -/
def levelOn (s : State) (f : Nat) : Nat :=
  let r := (s.frontAt f).theRun
  let V := s.regionAt (regionKey r.ctx r.cr.region)
  min 7 (V.priority + V.steps)

end Sys2Proof.Claims

/-- R41, R44, R58: which CR is eligible for a front, and with which lanes. The slices of a core's split; the split that gives a front the
most lanes without taking one from the other front; the grant of a CR not dispatched before; and the first eligible CR of a region's
ready FIFO. -/
def Sys2Proof.Claims.Eligibility : Prop :=
  (∀ sp j : Nat, sp < 4 → j < 64 →
    (sliceOf sp 0).getLsbD j = decide (j < 64 - 16 * sp) ∧ (sliceOf sp 1).getLsbD j = decide (64 - 16 * sp ≤ j)) ∧
  (∀ (s : State) (f : Nat),
    (let other := (s.frontAt (f / 2 * 2 + (1 - f % 2))).lanes
     let sp := (s.freeLanes f).1
     (s.freeLanes f).2 = sliceOf sp (f % 2) &&& ~~~other &&& ~~~(s.coreAt (f / 2)).lanemap ∧
     ((∃ q, q < 4 ∧ other &&& sliceOf q (f % 2) = 0) →
       sp < 4 ∧ other &&& sliceOf sp (f % 2) = 0 ∧
       ∀ q, q < 4 → other &&& sliceOf q (f % 2) = 0 → laneCount (sliceOf q (f % 2)) ≤ laneCount (sliceOf sp (f % 2))))) ∧
  (∀ (s : State) (f k g : Nat) (c : CR), c.save = 0 →
    (let R := s.regionAt k
     (s.offer f R c = some g ↔ stocked s f R ∧ grantFor c (laneCount (s.freeLanes f).2) g) ∧
     (s.fits f k c = true ↔
       (s.frontAt f).run = none ∧ (s.frontAt f).drain = none ∧ opened s k R ∧ stocked s f R ∧
       ∃ g, grantFor c (laneCount (s.freeLanes f).2) g))) ∧
  (∀ (s : State) (f k g : Nat) (R : Region) (c : CR),
    s.choiceOf f (k, R) = some (c, g) ↔
      opened s k R ∧ s.offer f R c = some g ∧ ∃ a b, R.ready = a ++ c :: b ∧ ∀ d ∈ a, s.offer f R d = none) ∧
  (∀ (s : State) (f k g : Nat) (R : Region) (c : CR) (x : Drain), s.choiceBehind f x (k, R) = some (c, g) →
    opened s k R ∧ c ∈ R.ready ∧ c.kind = 1 ∧ k / 65536 = x.run.ctx ∧ g = x.grant ∧ 8 * c.lanemin ≤ g ∧ g ≤ 8 * c.lanemax)

/-- R42, R43: a dispatcher's decision. Of what it may choose from, it takes the highest effective priority, and there it visits the
regions in the order of their launches from its cursor: each visit that begins a turn adds the region's share to its deficit, a region
with nothing to place loses its deficit, and the first whose deficit covers the grant over 8 places and pays. With something to choose
and no share of 0 there is a decision. (What the cursor does between priorities is the model's choice, log entry 56.) -/
def Sys2Proof.Claims.DecisionTaken : Prop :=
  (∀ (s : State) (f k g : Nat) (ch : Chooser) (c : CR) (D : Table Nat), Table.wf {} s.regions = true →
    (∀ e, (ch e).isSome = true → e.2.status = 1) → s.decideBy f ch = some (k, c, g, D) →
    (let level (R : Region) : Nat := min 7 (R.priority + R.steps)
     let D0 : Table Nat := s.dev.deficits.get [] (f / 128)
     let cur := s.dev.cursor.get 0 (f / 128)
     ch (k, s.regionAt k) = some (c, g) ∧
     (∀ e ∈ s.regions, (ch e).isSome = true → level e.2 ≤ level (s.regionAt k)) ∧
     ∃ (before after : List (Nat × Region)) (n : Nat),
       (let ring := after ++ before
        let m := ring.length
        let going := ring.any (fun e => decide (e.2.order + 1 = cur))
        let at' (i : Nat) : Nat × Region := ring.getD i (0, {})
        let credit (i n : Nat) : Nat := Table.get 0 D0 (at' i).1 + (at' i).2.share * turns m going i n
        (before ++ after).Perm (s.regions.filter (fun e => decide (e.2.status = 1 ∧ level e.2 = level (s.regionAt k)))) ∧
        (before ++ after).Pairwise (fun x y => x.2.order ≤ y.2.order) ∧
        (∀ e ∈ before, e.2.order + 1 < cur) ∧ (∀ e ∈ after, cur ≤ e.2.order + 1) ∧
        (at' (n % m)).1 = k ∧ g / 8 ≤ credit (n % m) n ∧
        (∀ n' c' g', n' < n → ch (at' (n' % m)) = some (c', g') → credit (n' % m) n' < g' / 8) ∧
        (∀ i, i < m → D.get 0 (at' i).1 =
          if i = n % m then credit i n - g / 8 else if n < i then Table.get 0 D0 (at' i).1
          else if ch (at' i) = none then 0 else credit i n) ∧
        (∀ j, (∀ e ∈ ring, e.1 ≠ j) → D.get 0 j = Table.get 0 D0 j)))) ∧
  (∀ (s : State) (f : Nat) (x : Drain), s.decision f = s.decideBy f (s.choiceOf f) ∧ s.decisionBehind f x = s.decideBy f (s.choiceBehind f x)) ∧
  (∀ (s : State) (f : Nat) (e : Nat × Region), e ∈ s.regions → (s.choiceOf f e).isSome = true → (∀ e ∈ s.regions, e.2.share ≠ 0) →
    (s.decision f).isSome = true) ∧
  (∀ (s : State) (k g : Nat) (c : CR) (D : Table Nat),
    (let f := s.arg.front % 256
     (s.frontAt f).frozen = false → (s.frontAt f).run = none → (s.frontAt f).drain = none → s.firstOfDie f = true →
     s.stranded f = none → s.decision f = some (k, c, g, D) →
     ∃ t, exec .dispatch s = .next t ∧ t.dev.deficits = s.dev.deficits.set [] (f / 128) D ∧
       t.dev.cursor = s.dev.cursor.set 0 (f / 128) ((s.regionAt k).order + 1) ∧
       (∀ j, (t.regionAt j).priority = (s.regionAt j).priority ∧
         if j = k then (t.regionAt j).aging = 0 ∧ (t.regionAt j).steps = 0
         else if (s.choiceOf f (j, s.regionAt j)).isSome = true then
           (if (s.regionAt j).aging + 1 < 65536 then
              (t.regionAt j).aging = (s.regionAt j).aging + 1 ∧ (t.regionAt j).steps = (s.regionAt j).steps
            else (t.regionAt j).aging = 0 ∧ (t.regionAt j).steps = (s.regionAt j).steps + 1)
         else (t.regionAt j).aging = (s.regionAt j).aging ∧ (t.regionAt j).steps = (s.regionAt j).steps)))

/-- R45, R251: the victim is a candidate for a ready CR that no idle front of either die can take; no candidate for that CR has a lower
effective priority, and none of the same was dispatched later. (For which of several waiting CRs one is chosen is the model's choice,
log entry 57.) -/
def Sys2Proof.Claims.VictimIsLowest : Prop :=
  ∀ (s : State) (f : Nat) (abort : Bool), Table.wf {} s.fronts = true → Table.wf {} s.regions = true → s.victim = some (f, abort) →
    ∃ k c, c ∈ (s.regionAt k).ready ∧ (s.regionAt k).status = 1 ∧ (s.regionAt k).frozen = false ∧ (∀ g, g < 256 → s.fits g k c = false) ∧
      candidateFor s k c f abort ∧
      ∀ g b, candidateFor s k c g b →
        levelOn s f < levelOn s g ∨ (levelOn s f = levelOn s g ∧ (s.frontAt g).theRun.since ≤ (s.frontAt f).theRun.since)

namespace Sys2Proof.Claims

/-- The CR of front `f` has left it, saved: its front holds none, it stands at the head of its region's FIFO with its weight, and its save
area records a cause. -/
def savedAway (s t : State) (f cause : Nat) : Prop :=
  let r := (s.frontAt f).theRun
  let k := regionKey r.ctx r.cr.region
  (t.frontAt f).run = none ∧
  ∃ id, id ≠ 0 ∧ (t.regionAt k).ready = { r.cr with weight := r.cweight, save := id } :: (s.regionAt k).ready ∧
    (t.dev.saves.get {} id).cause = cause ∧ (t.dev.saves.get {} id).front = f

/-- A live hart of front `f` has nothing to commit. -/
abbrev nothingPending (s : State) (f : Nat) : Prop :=
  ∀ sl : Slot, ((s.frontAt f).hart sl).live = true → ((s.frontAt f).hart sl).buf = [] ∧ ((s.frontAt f).hart sl).reads = []

/-- The front's CR can be pre-empted by an abort: it runs, no hart is in privileged mode, and nothing gates or drains there. -/
abbrev abortable (s : State) (f : Nat) : Prop :=
  (s.frontAt f).run.isSome = true ∧ (s.frontAt f).anyPriv = false ∧ (s.frontAt f).frozen = false ∧ (s.frontAt f).drain = none

end Sys2Proof.Claims

/-- R45, R251, R252, R256: BOUNDARY_PREEMPTION of the dispatcher's victim, with no hart in privileged mode, no value on its way, no VLOOP
iteration under way, nothing left to commit and room in the save pool, saves the CR where its harts stand and returns it to the head
of its region's FIFO. (Which of several waiting CRs is served is the model's choice, log entry 57.) -/
def Sys2Proof.Claims.BoundaryPreemptionResult : Prop :=
  ∀ s : State,
    (let f := s.arg.front % 256
     s.victim = some (f, false) → (s.frontAt f).anyPriv = false → (s.frontAt f).a.fills = [] → (s.frontAt f).e.fills = [] →
     (s.frontAt f).midLoop = false → (s.frontAt f).drain = none → nothingPending s f → (s.saveArea f true []).isSome = true →
     ∃ t, exec .boundaryPreemption s = .next t ∧ savedAway s t f 0 ∧
       (∀ id, (t.regionAt (regionKey (s.frontAt f).theRun.ctx (s.frontAt f).theRun.cr.region)).ready.head?.map (fun c => c.save) = some id →
         (t.dev.saves.get {} id).e.regs.pc = (s.frontAt f).e.regs.pc ∧ (t.dev.saves.get {} id).e.regs.x = (s.frontAt f).e.regs.x ∧
         (t.dev.saves.get {} id).a.regs.pc = (s.frontAt f).a.regs.pc))

/-- R45, R60, R208, R253, R256: ABORT_PREEMPTION of the dispatcher's victim, or of a CR whose grant has lost a lane, rolls the harts' strips
back and saves the CR with cause PREEMPT, returning it to the head of its region's FIFO. A CR that has lost a lane is terminated
where its checkpoint copy is uncorrectable, or where it is bound to the front and no grant there can serve it; where it cannot be
saved, it keeps its front and holds no lanes. (That one whose tile or swatch a command uses stays so is log entry 69.) A front of
which neither is true is left as it is. -/
def Sys2Proof.Claims.AbortPreemptionResult : Prop :=
  ∀ s : State,
    (let f := s.arg.front % 256
     let t := s.abortHarts f
     let r := (s.frontAt f).theRun
     let hopeless := decide (r.bound = true ∧ t.hopeless f r.cr (t.needsOf f) = true)
     let room := (t.saveArea f false []).isSome
     (abortable s f → s.laneLost f = false → s.victim = some (f, true) →
       (room = true → ∃ w, exec .abortPreemption s = .next w ∧ savedAway s w f 0x1C) ∧
       (room = false → exec .abortPreemption s = .next s)) ∧
     (abortable s f → s.laneLost f = true → s.arg.flag = false →
       (hopeless = true → ∃ w, exec .abortPreemption s = .next w ∧ (w.frontAt f).run = none) ∧
       (hopeless = false → t.crBusy f = false → room = true →
         ∃ w, exec .abortPreemption s = .next w ∧ savedAway s w f 0x1C) ∧
       (hopeless = false → t.crBusy f = true ∨ room = false →
         ∃ w, exec .abortPreemption s = .next w ∧ (w.frontAt f).run = some { r with laneless := true } ∧
           (w.frontAt f).grant = 0 ∧ (w.frontAt f).lanes = 0 ∧ w.regions = s.regions ∧ w.dev = s.dev ∧ w.mem = s.mem)) ∧
     (abortable s f → s.laneLost f = true → s.arg.flag = true →
       ∃ w, exec .abortPreemption s = .next w ∧ (w.frontAt f).run = none) ∧
     (s.laneLost f = false → s.victim ≠ some (f, true) → exec .abortPreemption s = .next s))

/-! ## Speculation -/

namespace Sys2Proof.Claims

/-- A window range translates. -/
def rangeOk (s : State) (acc : Acc) (x : Nat × Nat) : Prop := ∃ ps, windowPieces s s.ctx acc x.1 x.2 = .ok ps

/-- SPECB's operands: its request block, the version descriptor of a FIDDLE request, and a legal CR image without a join counter, read
one after the other from `s`; `u` is the state after the reads. -/
def specOperands (s : State) (a b : Reg) (blk desc img : List Byte) (u : State) : Prop :=
  ∃ t v, loadBlock (s.regs.getX a).toNat 64 64 (fresh s) = .ok (blk, t) ∧
    (if (Request.ofBytes blk).mode = 0 then loadBlock (Request.ofBytes blk).first 64 64 t = .ok (desc, v) else desc = [] ∧ v = t) ∧
    loadBlock (s.regs.getX b).toNat 64 8 v = .ok (img, u) ∧ imageIllegal s.regionNow img = false ∧ (CR.ofBytes img).joinaddr = 0

/-- The ranges that SPECB probes translate (12 R231, step 3). -/
def specProbes (u : State) (r : Request) (d : VersionDesc) : Prop :=
  (∀ x ∈ r.loads d, rangeOk u .read x) ∧ (∀ x ∈ r.outs, x.2 ≤ 65536 → rangeOk u .write x) ∧
  (r.rejoin = 0 ∨ (r.rejoin % 8 = 0 ∧ ∃ k, scalarByte u u.fid u.ctx .read u.priv r.rejoin = .ok k))

/-- The state once SPECB's charge stands in the region and its RCB (12 R231, step 4): the memory in which its event finds the history. -/
def charged (s : State) (drawn : Nat) : State :=
  s.putRegion s.regionKeyNow { s.regionNow with
    drawn := s.regionNow.drawn + BitVec.ofNat 64 drawn
    charged := s.regionNow.charged.set 0 0 (s.regionNow.charged.get 0 0 + 1) }

/-- The CR of a ticket `n` that an image makes, with the weight that it is given. -/
def ticketCr (s : State) (img : List Byte) (give n : Nat) : CR := { spawnedCr s img give with ticket := n }

/-- The ticket that the handle in x[a] names. -/
def named (s : State) (a : Reg) : Option Nat := s.namedTicket (s.regs.getX a)

/-- What SPECQ answers. -/
def ticketAnswer (s : State) (a : Reg) : Word :=
  match named s a with
  | none => 0xFF
  | some n => (s.ticketAt n).word

end Sys2Proof.Claims

/-- R231, R384: SPECB whose operands can be read, whose ranges translate and whose charge is paid. A request that is refused leaves x[d] with
its status and changes no charge and no ticket, but a draw stands. One that is accepted opens the lowest free ticket with a new generation,
its request's fields and its prediction, answers its handle, gives it the weight, and puts its CR at the tail of the region, or holds it while its parent is not DONE. (That the
number is the lowest free one is log entry 13; where its dead ticket's weight is still to be gathered, what is left of that ticket
goes on under a number `m` of the model's own, log entry 40.) -/
def Sys2Proof.Claims.SpeculationBegins : Prop :=
  ∀ (p q : Bool) (b a d : Reg) (s u : State) (blk desc img : List Byte) (drawn give : Nat),
    issueReady s → fullX s a → fullX s b → fullX s d → s.late = false → specOperands s a b blk desc img u →
    s.regionNow.rcb + 256 ≤ 2 ^ 42 →
    (let r := Request.ofBytes blk
     let D := VersionDesc.ofBytes desc
     let st := s.specStatus r D
     let n := s.freeTicket
     let i : Instr := .specb p q b a d
     specProbes u r D → spawnCharge s 0 drawn give →
     (st ≠ 0 →
       ∃ t, exec i s = .next t ∧ t.regs = xAfter i s d (BitVec.ofNat 64 st) ∧
         t.run.cweight = s.run.cweight + BitVec.ofNat 64 drawn ∧
         t.regionNow.charged.get 0 0 = s.regionNow.charged.get 0 0 ∧
         t.regionNow.drawn = s.regionNow.drawn + BitVec.ofNat 64 drawn ∧ t.dev.tickets = s.dev.tickets ∧ sameTrapState s t) ∧
     (st = 0 → n ≠ 0 →
       ∃ t m, exec i s = .next t ∧ ((s.ticketAt n).owing = false → m = n) ∧
         ((s.ticketAt n).owing = true → n < m ∧ m % 256 = n % 256 ∧ t.ticketAt m = s.ticketAt n) ∧
         t.regs = xAfter i s d (BitVec.ofNat 64 (((s.ticketAt n).gen + 1) * 256 + n)) ∧
         t.run.cweight.toNat = s.run.cweight.toNat + drawn - give ∧
         t.regionNow.charged.get 0 0 = s.regionNow.charged.get 0 0 + 1 ∧
         (let T := t.ticketAt n
          T.st = .opened ∧ T.gen = (s.ticketAt n).gen + 1 ∧ T.ctx = s.ctx ∧ T.region = s.run.cr.region ∧ T.outs = r.outs ∧
          T.total = BitVec.ofNat 64 give ∧ T.pool = 0 ∧ T.rejoin = BitVec.ofNat 64 r.rejoin ∧ T.verdict = none ∧
          T.chain = decide (r.mode ≠ 0) ∧ T.image = ticketCr s img give n ∧
          (r.mode = 0 → T.desc = r.first ∧ T.buf = D.buf ∧ T.count = D.count ∧ T.fmt = D.fmt ∧ T.wm = D.wm ∧
            T.target = BitVec.ofNat 64 r.second ∧ T.tauAbs.toNat = r.third % 2 ^ 32 ∧ T.tauRel.toNat = r.third / 2 ^ 32 % 2 ^ 32 ∧
            T.pred = Table.setBytes [] D.buf (((charged s drawn).prediction r D).flatMap (toBytes (if D.fmt = 0 then 4 else 2)))) ∧
          (r.mode ≠ 0 → some T.parent = s.chainParent r ∧ T.inBase = r.second ∧ T.inLen = r.third)) ∧
         (if r.mode ≠ 0 ∧ (s.ticketAt ((s.chainParent r).getD 0)).st ≠ .done then
            t.regionNow.held = s.regionNow.held.map (CR.renumber n m) ++ [ticketCr s img give n] ∧
              t.regionNow.ready = s.regionNow.ready.map (CR.renumber n m)
          else t.regionNow.ready = s.regionNow.ready.map (CR.renumber n m) ++ [ticketCr s img give n] ∧
            t.regionNow.held = s.regionNow.held.map (CR.renumber n m)) ∧
         sameTrapState s t))

/-- R239, R385: SPECQ answers the word of the ticket that its handle names, or 0xFF for none; with x[b] = 0 it waits while the ticket is
live, and a hart that waits in it passes once the ticket has ended. -/
def Sys2Proof.Claims.TicketAnswers : Prop :=
  ∀ (p q : Bool) (b a d : Reg) (s : State),
    (let i : Instr := .specq p q b a d
     let live := match named s a with | none => false | some n => (s.ticketAt n).live
     s.isExec = false → s.ticket = 0 → fullX s a → fullX s b → fullX s d → s.late = false → (s.regs.getX b).toNat ≤ 1 →
     (live = false ∨ s.regs.getX b = 1 →
       ∃ t, exec i s = .next t ∧ t.regs = xAfter i s d (ticketAnswer s a) ∧ t.mem = s.mem ∧ t.dev = s.dev ∧ sameTrapState s t) ∧
     (live = true → s.regs.getX b = 0 →
       ∃ t, exec i s = .next t ∧ t.hart.wait = .specq ∧ t.regs = s.regs ∧ t.mem = s.mem ∧ t.dev = s.dev ∧ sameTrapState s t) ∧
     (s.hart.wait = .specq → s.hart.waitInstr = some i → live = false →
       ∃ t, exec .specqReturn s = .next t ∧ t.regs = xAfter i s d (ticketAnswer s a) ∧ t.mem = s.mem ∧ t.dev = s.dev))

/-- R240, R386: SPECX abandons the live ticket that its handle names, with its shadows and its log; it changes no register, and no ticket
where the handle names no live one. -/
def Sys2Proof.Claims.TicketAbandoned : Prop :=
  ∀ (p : Bool) (a : Reg) (s : State), issueReady s → fullX s a →
    (s.liveTicket (s.regs.getX a) = none →
      ∃ t, exec (.specx p a) s = .next t ∧ t.regs = passed (.specx p a) s.regs ∧ t.dev = s.dev ∧ t.mem = s.mem) ∧
    (∀ n, s.liveTicket (s.regs.getX a) = some n →
      ∃ t, exec (.specx p a) s = .next t ∧ t.regs = passed (.specx p a) s.regs ∧
        (let T := t.ticketAt n
         T.live = false ∧ T.shadow = [] ∧ T.pred = [] ∧ T.log = [] ∧
         (n ≤ 64 → T.st = .abandoned ∧ T.cause = 0xFD)) ∧ sameTrapState s t)

/-- R235: the check of a ticket whose watermark has reached its target, on the real version as it stood right after the event that
published it (or, where the check itself reads it, as it stands), passes it where every element of the real version is within its
tolerance of the prediction, and squashes it with the lowest index that is not; a version that cannot be read squashes it with the
cause of the failure. -/
def Sys2Proof.Claims.GaugeJudges : Prop :=
  ∀ (s : State) (n : Nat), s.arg.ticket = n → s.checkDue (s.ticketAt n) = true →
    (let T := s.ticketAt n
     let w := fmtBytes T.fmt
     (∀ bs, T.real = some (0, bs) ∨ (T.real = none ∧ s.peekWindow T.ctx T.buf (T.count * w) = .ok bs) →
       ∃ t, exec .gaugeCheck s = .next t ∧
         (match firstMiss T.fmt T.tauAbs T.tauRel 0
            ((versionElems w T.count bs).zip (versionElems w T.count (T.pred.bytes T.buf (T.count * w)))) with
          | none => (t.ticketAt n).verdict = some true
          | some i => (t.ticketAt n).st = .squashed ∧ (t.ticketAt n).first = BitVec.ofNat 32 i ∧ (t.ticketAt n).cause = 0)) ∧
     (∀ c l, c ≠ 0 → T.real = some (c, l) ∨ (T.real = none ∧ s.peekWindow T.ctx T.buf (T.count * w) = .error c) →
       ∃ t, exec .gaugeCheck s = .next t ∧ (t.ticketAt n).st = .squashed ∧ (t.ticketAt n).cause = BitVec.ofNat 8 c))

/-- R236, R232: a ticket that is DONE and has passed commits: it is COMMITTED, nothing of it is shadowed or logged any more, and its live
CHAIN children have passed. Before its logged effects are performed, memory holds its shadow: every byte that its CRs have
written, at the place that the window gives it, where it is not the hardware's own (log entry 72), and no other byte has changed. The
logged effects follow as the commit's own agent's. Its weight then returns to its region. -/
def Sys2Proof.Claims.TicketCommits : Prop :=
  (∀ (s : State) (n : Nat), s.arg.ticket = n → s.commitDue (s.ticketAt n) = true →
    ∃ t, exec .ticketCommit s = .next t ∧
      (let T := t.ticketAt n
       T.st = .committed ∧ T.shadow = [] ∧ T.written = [] ∧ T.pred = [] ∧ T.log = [] ∧ T.pool = 0) ∧
      (∀ m, m ≠ n → (s.ticketAt m).live = true → (s.ticketAt m).chain = true → (s.ticketAt m).parent = n →
        (t.ticketAt m).verdict = some true)) ∧
  (∀ (s : State) (n : Nat), s.arg.ticket = n → s.commitDue (s.ticketAt n) = true → controlInWindow s →
    (let T := s.ticketAt n
     let k := regionKey T.ctx T.region
     let place (va : Nat) : Except Nat Nat := vectorByte s T.ctx .write va
     ∃ (u : State) (r : State × Option Nat),
       (∀ va ∈ T.written, ∀ key, place va = .ok key → (∀ y ∈ T.written, place y = .ok key → y = va) → s.hardwareOwned key = false →
         u.mem.get 0 key = T.shadow.get 0 va) ∧
       (∀ j, (∀ va ∈ T.written, place va ≠ .ok j) → u.mem.get 0 j = s.mem.get 0 j) ∧
       (u.ticketAt n).st = .committed ∧ r = u.performLog T.ctx (ticketKey n) T.log ∧
       exec .ticketCommit s =
         .next (((r.1.setTicketAt n { r.1.ticketAt n with cause := BitVec.ofNat 8 (r.2.getD 0) }).giveWeight k T.pool).checkComplete
           k).settled))

/-- R237: what is left of a dead ticket is stopped; once its pool holds all its weight, and no region is failing, the weight is delivered:
the CR of a squashed ticket without a rejoin address enters its region again at the tail, without ticket and with the whole pool. -/
def Sys2Proof.Claims.TicketRequeues : Prop :=
  ∀ (s : State) (n : Nat), s.arg.ticket = n → (s.ticketAt n).owing = true → (s.ticketAt n).live = false →
    s.frozenTicket (s.ticketAt n) = false → noneFailing s →
    (let u := s.sweepTicket n
     let T := u.ticketAt n
     let k := regionKey T.ctx T.region
     (T.gathered = false → exec .squashRequeue s = .next u) ∧
     (T.gathered = true →
       ∃ t, exec .squashRequeue s = .next t ∧ (t.ticketAt n).owing = false ∧ (t.ticketAt n).pool = 0 ∧
         (u.noRequeue T = false → T.rejoin = 0 →
           (t.regionAt k).ready =
             (u.regionAt k).ready ++ [{ T.image with ticket := 0, weight := T.pool, joinaddr := T.rejoin }])))

/-! ## Engines -/

namespace Sys2Proof.Claims

/-- The records of an EISSUE with their indices: the active ones of vl ÷ 8. -/
def issuedRecords (s : State) (m : Bool) (b : Reg) : List (Nat × BitVec 512) :=
  activeRecords s.regs m (recordsOf (s.regs.vl.toNat / 8) (operand s b (grpNow s) 64 (8 * (s.regs.vl.toNat / 8))))

/-- EWAIT and EPUB: the target of the engine that x[a] names is reached. -/
abbrev targetReached (s : State) (a b : Reg) : Prop :=
  (s.regs.getX b).toNat ≤ (s.seqOf (s.regs.getX a).toNat).toNat

/-- The bytes that an EPUB publishes: context, window address, byte. -/
def duePublished (s : State) (sel : Nat) (target : Word) : List (Nat × Nat × Byte) :=
  shadowBytes ((s.front.shadows.get [] sel).filter (fun c => decide (c.label ≤ target.toNat)))

end Sys2Proof.Claims

/-- R170, R171, R338: EISSUE whose records pass their checks admits them in order up to the first refusal; the mask register tells which
were accepted, the front's chain holds them, and an accepted one binds the CR to its front. A copy record without follow-on is admitted
where its queue has room and its swatches may be taken: it is appended to the chain and charged. -/
def Sys2Proof.Claims.RecordsIssued : Prop :=
  (∀ (p q m : Bool) (b a : Reg) (k : BitVec 3) (s : State), issueReady s → fullX s a → s.regs.sewCode = 4 →
    s.regs.vl.toNat % 8 = 0 → srcReady s b (grpNow s) 64 → (s.regs.getX a).toNat ≤ 2 →
    (let sel := (s.regs.getX a).toNat
     let r := acceptAll (fresh s) sel (issuedRecords s m b)
     let i : Instr := .eissue p q m b a k
     checkRecords sel (issuedRecords s m b) (fresh s) = .ok ((), fresh s) →
     ∃ t, exec i s = .next t ∧ (∀ j, t.regs.mbit k.toNat j = (r.1.contains j && decide (j < 32768))) ∧
       t.regs = passed i { s.regs with m := t.regs.m } ∧ (∀ l, l ≠ k.toNat → t.regs.m.get 0 l = s.regs.m.get 0 l) ∧
       t.front.chain = r.2.front.chain ∧ (r.1 ≠ [] → t.run.bound = true) ∧ (r.1 = [] → t.run.bound = s.run.bound) ∧
       sameTrapState s t)) ∧
  (∀ (s : State) (r : BitVec 512), copyFol r = false →
    (if s.regionNow.queueFull 1 = true ∨ s.swatchesFree (s.copySwatches r) = false then s.accept 0 r = none
     else ∃ t c, s.accept 0 r = some t ∧ c.raw = r ∧ c.serial = s.run.serial ∧ c.ctx = s.ctx ∧ c.slot = s.slot ∧
       c.phase = .waiting ∧ c.seq = (s.front.seq.get 0 0).toNat + (s.front.chain.get [] 0).length + 1 ∧
       t.front.chain.get [] 0 = s.front.chain.get [] 0 ++ [c] ∧
       t.regionNow.charged.get 0 1 = s.regionNow.charged.get 0 1 + 1))

/-- R172, R340, R341: ESEQ writes x[d] with the current sequence number of its front on engine x[a]. EWAIT passes where that number is at least
x[b], compared unsigned, when it is executed or when the number rises while it waits, and otherwise waits with every register as it was. The
number is the front's; in a context that RESTORE has rebuilt it goes on from the image's (log entry 71). -/
def Obligations.EngineSequence : Prop :=
  (∀ (p : Bool) (a d : Reg) (s : State), s.isExec = false → fullX s a → fullX s d → s.late = false → (s.regs.getX a).toNat ≤ 2 →
    ∃ t, exec (.eseq p a d) s = .next t ∧ t.regs = xAfter (.eseq p a d) s d (s.seqOf (s.regs.getX a).toNat) ∧
      t.mem = s.mem ∧ t.dev = s.dev ∧ t.front.chain = s.front.chain ∧ sameTrapState s t) ∧
  (∀ (s : State) (sel : Nat),
    (s.front.own.get none (3 * s.ctx + sel) = none → s.seqOf sel = s.front.seq.get 0 sel) ∧
    (∀ v, s.front.own.get none (3 * s.ctx + sel) = some v → s.seqOf sel = v)) ∧
  (∀ (p q : Bool) (b a : Reg) (s : State), s.isExec = false → fullX s a → fullX s b → (s.regs.getX a).toNat ≤ 2 →
    (targetReached s a b →
      (∃ t, exec (.ewait p q b a) s = .next t ∧ t.regs = passed (.ewait p q b a) s.regs ∧ t.mem = s.mem ∧ t.dev = s.dev ∧
        sameTrapState s t) ∧
      (s.hart.wait = .ewait → s.hart.waitInstr = some (.ewait p q b a) →
        ∃ t, exec .ewaitReached s = .next t ∧ t.regs = passed (.ewait p q b a) s.regs ∧ t.mem = s.mem ∧ t.dev = s.dev)) ∧
    (¬ targetReached s a b →
      ∃ t, exec (.ewait p q b a) s = .next t ∧ t.hart.wait = .ewait ∧ t.regs = s.regs ∧ t.mem = s.mem ∧ t.dev = s.dev ∧
        sameTrapState s t))

/-- R159, R160, R173, R339: EPUB outside a ticket, executed or woken, publishes the shadows of the commands up to its target once the number
has reached it: their bytes are written where the window takes them then, but where they are the hardware's own, and they are shadowed no
more. (That a byte is translated as it is published, and what becomes of one that does not translate, is log entry 77; the
hardware's bytes are log entry 72.) Under a ticket it is logged and publishes nothing. -/
def Sys2Proof.Claims.ShadowsPublished : Prop :=
  (∀ (p q : Bool) (b a : Reg) (s : State), issueReady s → fullX s a → fullX s b → (s.regs.getX a).toNat ≤ 2 → targetReached s a b →
    (let sel := (s.regs.getX a).toNat
     let bytes := duePublished s sel (s.regs.getX b)
     let done (t : State) : Prop :=
       t.regs = passed (.epub p q b a) s.regs ∧ t.mem = (s.writeShadows s.agent bytes.length bytes).mem ∧
       t.front.shadows.get [] sel =
         (s.front.shadows.get [] sel).filter (fun c => !decide (c.label ≤ (s.regs.getX b).toNat)) ∧ sameTrapState s t
     (∃ t, exec (.epub p q b a) s = .next t ∧ done t) ∧
     (s.hart.wait = .epub → s.hart.waitInstr = some (.epub p q b a) → ∃ t, exec .epubPublish s = .next t ∧ done t))) ∧
  (∀ (p q : Bool) (b a : Reg) (s : State), s.isExec = false → Quiet s → queuesClear s → fullX s a → fullX s b →
    (s.regs.getX a).toNat ≤ 2 → s.ticket ≠ 0 → (s.ticketAt s.ticket).log.length < 16 →
    ∃ t, exec (.epub p q b a) s = .next t ∧ t.regs = passed (.epub p q b a) s.regs ∧ t.mem = s.mem ∧
      (t.ticketAt s.ticket).log = (s.ticketAt s.ticket).log ++ [.epub s.fid (s.regs.getX a).toNat (s.regs.getX b)]) ∧
  (∀ (s : State) (g n : Nat) (l : List (Nat × Nat × Byte)), controlInWindow s →
    (let place (x : Nat × Nat × Byte) : Except Nat Nat := vectorByte s x.1 .write x.2.1
     (∀ x ∈ l, ∀ key, place x = .ok key → (∀ y ∈ l, place y = .ok key → y = x) → s.hardwareOwned key = false →
       (s.writeShadows g n l).mem.get 0 key = x.2.2) ∧
     ∀ j, (∀ x ∈ l, place x ≠ .ok j) → (s.writeShadows g n l).mem.get 0 j = s.mem.get 0 j))

/-! ## Work on commands -/

namespace Sys2Proof.Claims

/-- Command `c` stands at `e`, may work, is running, and no other command of its front is. -/
def working (s : State) (e : Site) (c : Cmd) : Prop :=
  s.arg.front = e.f ∧ e.f < 256 ∧ s.arg.n = 1 ∧ s.cmdAt e.f e.sel e.k = some c ∧ e.seq = c.seq ∧ s.mayWork e.f e.sel e.k c = true ∧
  c.phase = .running ∧
  ∀ sel k x, sel ≤ 2 → s.cmdAt e.f sel k = some x → x.running = true → sel = e.sel ∧ k = e.k

/-- A copy command without skip-and-return, direct, that has read its list, has no bytes of another device, and is not at its end. -/
abbrev plainCommand (c : Cmd) : Prop :=
  copySkip c.raw = false ∧ copyShd c.raw = false ∧ (copyListed c.raw = false ∨ c.loaded = true) ∧ c.payload = none ∧ c.kept = none ∧
  c.pos < copyDstBytes c.raw

/-- The step of an operation of the copy engine. -/
def copyStepOf : Instr → Option Nat
  | .copy => some 0
  | .fill => some 1
  | .cvt => some 2
  | .rot => some 3
  | _ => none

/-- Element `i` of the source of the unit at position `p`, as the engine reads it: the bytes that hold it, at accesses of its own size. -/
def unitElem (s : State) (e : Site) (c : Cmd) (p i : Nat) : Except (Nat × Nat) Nat :=
  let r := c.raw
  let w := codeWidth (copySfmt r)
  let lo := i * w / 8
  match s.engineRead e c false (copySrc r + (p / dstUnit r * srcUnit r + lo)) (accessBytes (copySfmt r)) (((i + 1) * w + 7) / 8 - lo) with
  | .ok bs => .ok (ofBytes bs / 2 ^ (i * w - 8 * lo) % 2 ^ w)
  | .error x => .error x

/-- What the command's next destination access writes: its size, its bytes and its flags. A COPY and a FILL write an aligned word, a CVT and a
ROT the elements of one unit, from its first on (09 R177-R180). -/
def unitWrites (s : State) (e : Site) (c : Cmd) : Option (Nat × List Byte × Flags) :=
  let r := c.raw
  let p := c.pos
  match copyOp r with
  | 0 =>
    if (copyDst r + p) % 8 = 0 ∧ c.source p % 8 = 0 ∧ p + 8 ≤ (c.sourceRange p).2 ∧ p + 8 ≤ copyDstBytes r then
      match s.engineRead e c (copyListed r) (c.source p) 8 8 with
      | .ok bs => some (8, bs, 0)
      | .error _ => none
    else none
  | 1 =>
    if (copyDst r + p) % 8 = 0 ∧ p + 8 ≤ copyDstBytes r then
      some (8, (List.range 8).map (fun j => BitVec.ofNat 8 (copyParam r / 2 ^ (8 * ((p + j) % 8)))), 0)
    else none
  | 2 =>
    match (List.range (unitElems r)).mapM (unitElem s e c p) with
    | .ok vs =>
      let outs := vs.map (fun v => ((cvtSrc (copySfmt r)).getD (.float f32)).convert (codeDst (copyDfmt r)) (copyRm r) v)
      if p % dstUnit r = 0 then
        some (accessBytes (copyDfmt r), toBytes (dstUnit r) (packElems (codeWidth (copyDfmt r)) (outs.map (fun o => o.1))),
          outs.foldl (fun f o => f ||| o.2) 0)
      else none
    | .error _ => none
  | _ =>
    let t := p / dstUnit r % rotPeriod r
    match unitElem s e c p 0, unitElem s e c p 1, s.engineRead e c true (rotTable r + 8 * t) 4 8 with
    | .ok v0, .ok v1, .ok tb =>
      let f := versionFmt (copySfmt r)
      let x := f.decode v0
      let y := f.decode v1
      let co := f32.decode (ofBytes (tb.take 4))
      let si := f32.decode (ofBytes (tb.drop 4))
      let u := rotate f true x co y si
      let v := rotate f false x si y co
      if p % dstUnit r = 0 then
        some (accessBytes (copyDfmt r), toBytes (dstUnit r) (packElems (codeWidth (copyDfmt r)) [u.1, v.1]), u.2 ||| v.2)
      else none
    | _, _, _ => none

/-- The command's next destination bytes meet none of its own operands. -/
abbrev undisturbed (s : State) (e : Site) (c : Cmd) (n : Nat) : Prop :=
  let a := copyDst c.raw + c.pos
  ∀ j, j < n → (s.cmdReads e.f e.sel c).any (inRange (isLocal a) ((if isLocal a then localAddr a else a) + j)) = false

/-- How a command of the copy engine stands after one access of `n` bytes. -/
abbrev copyAdvanced (c c' : Cmd) (n : Nat) (fl : Flags) : Prop :=
  c'.pos = c.pos + n ∧ c'.done = c.pos + n ∧ c'.flags = c.flags ||| fl ∧ c'.raw = c.raw ∧ c'.seq = c.seq ∧
  c'.phase = (if copyDstBytes c.raw ≤ c.pos + n then .finished else .running) ∧
  (copyDstBytes c.raw ≤ c.pos + n → c'.status = 0)

end Sys2Proof.Claims

/-- R178-R180: one access of a running copy command. To global memory it writes the bytes of the unit at its destination and changes no other
byte; to local memory it writes the core's scratchpad there; either way the command has moved on, and is finished at its end. What an engine
reads of one piece of memory, without a race, is what memory holds. -/
def Sys2Proof.Claims.CopyWork : Prop :=
  (∀ (i : Instr) (s : State) (e : Site) (c : Cmd) (size : Nat) (bs : List Byte) (fl : Flags),
    copyStepOf i = some (copyOp c.raw) → e.sel = 0 → s.arg.k = e.k → working s e c → plainCommand c →
    unitWrites s e c = some (size, bs, fl) → undisturbed s e c bs.length →
    (let a := copyDst c.raw + c.pos
     (∀ key, isLocal a = false → windowPieces s c.ctx .write a bs.length = .ok [⟨a, key, bs.length⟩] →
       s.mixed c.ctx e.agent size key bs.length = false → (∀ j, j < bs.length → s.lands e.agent size (key + j) = true) →
       (copyOp c.raw < 2 ∨ controlInWindow s) →
       ∃ t c', exec i s = .next t ∧ t.mem.bytes key bs.length = bs ∧ sameBytesOutside s t key bs.length ∧ t.cores = s.cores ∧
         t.cmdAt e.f 0 e.k = some c' ∧ copyAdvanced c c' bs.length fl) ∧
     (isLocal a = true →
       ∃ t c', exec i s = .next t ∧ (t.coreAt (e.f / 2)).scratch.bytes (localAddr a) bs.length = bs ∧ t.mem = s.mem ∧
         t.cmdAt e.f 0 e.k = some c' ∧ copyAdvanced c c' bs.length fl))) ∧
  (∀ (s : State) (e : Site) (c : Cmd) (win : Bool) (a size n key : Nat), (win = true ∨ isLocal a = false) →
    windowPieces s c.ctx .read a n = .ok [⟨a, key, n⟩] → s.mixed c.ctx e.agent size key n = false → s.poisoned key n = false →
    (∀ j, j < n → s.stands e.agent size (key + j) = true) → s.engineRead e c win a size n = .ok (s.mem.bytes key n))

namespace Sys2Proof.Claims

/-- How a command of the matrix engine stands after one step or row. -/
def matAdvanced (c : Cmd) (fl : Flags) : Cmd :=
  { c with pos := c.pos + 1, done := c.pos + 1, flags := c.flags ||| fl,
           phase := if matCount c.raw ≤ c.pos + 1 then .finished else .running,
           status := if matCount c.raw ≤ c.pos + 1 then 0 else c.status }

/-- Local bytes of step or row `c.pos` in a swatch of a core. -/
def matBytes (C : Core) (c : Cmd) (k off : Nat) : List Byte :=
  C.scratch.bytes ((C.swatches.get {} k).base.toNat + off + c.pos * matUnit c.raw) (matUnit c.raw)

end Sys2Proof.Claims

/-- R212, R187: one K-step of a MACC adds the products of the two slices to the cells of its tile, one row of an MLOAD reads it from its
swatch, and one row of an MSTORE writes it there; the command has moved on. A follow-on at the head of its chain runs once its copy has
completed whole, and is finished with status 0x40 where it is dropped. Memory is as before. -/
def Sys2Proof.Claims.MatrixWork : Prop :=
  (∀ (s : State) (e : Site) (c : Cmd), e.sel = 1 → e.k = 0 → working s e c →
    (let C := s.coreAt (e.f / 2)
     let T := C.tileFor c
     T.retired = false → c.pos < matCount c.raw →
     (matOp c.raw = 0 →
       (let x := mopaStep (matFmt c.raw) (matRows c.raw) (matCols c.raw) (ofBytes (matBytes C c (c.srcs.getD 0 64) (matAoff c.raw)))
          (ofBytes (matBytes C c (c.srcs.getD 1 64) (matBoff c.raw))) T.cells
        ∃ t, exec .macc s = .next t ∧ (t.coreAt (e.f / 2)).tileFor c = { T with cells := x.1 } ∧ t.mem = s.mem ∧
          t.cmdAt e.f 1 0 = some (matAdvanced c (orFlags x.2)))) ∧
     (matOp c.raw = 1 →
       ∃ t, exec .mload s = .next t ∧
         (t.coreAt (e.f / 2)).tileFor c =
           { T with cells := withRow T.cells c.pos (wordsOf 128 (matBytes C c (c.srcs.getD 0 64) (matAoff c.raw))) } ∧
         t.mem = s.mem ∧ t.cmdAt e.f 1 0 = some (matAdvanced c 0)) ∧
     (matOp c.raw = 2 →
       ∃ t, exec .mstore s = .next t ∧ (t.coreAt (e.f / 2)).tileFor c = T ∧
         matBytes (t.coreAt (e.f / 2)) c (c.dsts.getD 0 64) (matAoff c.raw) =
           (List.range 128).flatMap (fun j => toBytes 4 (cellAt T.cells c.pos j)) ∧
         t.mem = s.mem ∧ t.cmdAt e.f 1 0 = some (matAdvanced c 0)))) ∧
  (∀ (s : State) (f : Nat) (c : Cmd), s.arg.front = f → f < 256 → s.cmdAt f 1 0 = some c → c.follow = true → c.phase = .waiting →
    s.frozenCmd c = false → c.away = false →
    (c.dropped = true → exec .followOnStart s = .next (s.putCmd f 1 0 { c with phase := .finished, status := 0x40 })) ∧
    (c.dropped = false → c.started = true →
      ∃ t, exec .followOnStart s = .next t ∧ t.cmdAt f 1 0 = some { c with phase := .running }))

/-- R215, R216, R214: one block of a MATVEC. Where its bytes of the matrix and of the vector can be read, the vector's now or as the engine has
kept them, the block's partial sum is written to its word of y, and no other byte changes; the command has moved on by one block, DONE
counts the bytes of y in whole rows, and it is finished after the last block. What an engine reads is stated at CopyWork. (That the
engine works block by block is the model's choice, log entry 22.) -/
def Sys2Proof.Claims.MatvecWork : Prop :=
  ∀ (s : State) (e : Site) (c : Cmd) (xb wb : List Byte) (key : Nat), e.sel = 2 → s.arg.k = e.k → working s e c →
    c.pos < rhizM c.raw * rhizBlocks c.raw →
    (let r := c.raw
     let n := rhizSize r
     let v := c.pos % rhizBlocks r
     let out := blockSum (rhizFmt r) (elems (8 * n) (ofBytes wb) 32) (elems (8 * n) (ofBytes xb) 32)
     let y := rhizY r + 4 * c.pos
     (s.stackFault c.ctx (rhizStack r) (rhizW r + c.pos * (32 * n)) (32 * n)).all (fun x => x.1 != Cause.engine) = true →
     ((c.kept = none ∧ s.engineRead e c true (rhizX r + v * (32 * n)) n (32 * n) = .ok xb) ∨
       (∃ a bs, c.kept = some (a, bs) ∧ a ≤ rhizX r + v * (32 * n) ∧ rhizX r + (v + 1) * (32 * n) ≤ a + bs.length ∧
         xb = (bs.drop (rhizX r + v * (32 * n) - a)).take (32 * n))) →
     s.engineRead e c true (rhizW r + c.pos * (32 * n)) n (32 * n) = .ok wb → isLocal y = false →
     windowPieces s c.ctx .write y 4 = .ok [⟨y, key, 4⟩] → s.mixed c.ctx e.agent 4 key 4 = false →
     (∀ j, j < 4 → s.lands e.agent 4 (key + j) = true) →
     ∃ t c', exec .matvec s = .next t ∧ t.mem.bytes key 4 = toBytes 4 out.1 ∧ sameBytesOutside s t key 4 ∧
       t.cmdAt e.f 2 e.k = some c' ∧ c'.pos = c.pos + 1 ∧ c'.done = (c.pos + 1) / rhizBlocks r * rhizBlocks r * 4 ∧
       c'.flags = c.flags ||| out.2 ∧
       c'.phase = (if rhizM r * rhizBlocks r ≤ c.pos + 1 then .finished else .running))

namespace Sys2Proof.Claims

/-- No byte of memory has two addresses in a context's window. -/
def oneAddress (s : State) (ctx : Nat) : Prop :=
  ∀ x y k, vectorByte s ctx .read x = .ok k ∨ vectorByte s ctx .write x = .ok k →
    vectorByte s ctx .read y = .ok k ∨ vectorByte s ctx .write y = .ok k → x = y

/-- The `n` bytes of a segment whose destination starts at position `lo`, and their flags: the source's of a COPY, from one piece of memory or
from the scratchpad, the pattern of a FILL, and of a CVT or a ROT its units one after the other. -/
def segmentBytes (s : State) (e : Site) (c : Cmd) (lo n : Nat) : Option (List Byte × Flags) :=
  let r := c.raw
  match copyOp r with
  | 0 =>
    if isLocal (c.source lo) ∧ copyListed r = false then some ((s.coreAt (e.f / 2)).scratch.bytes (localAddr (c.source lo)) n, 0)
    else
      match windowPieces s c.ctx .read (c.source lo) n with
      | .ok [p] => some (s.mem.bytes p.key n, 0)
      | _ => none
  | 1 => some ((List.range n).map (fun j => BitVec.ofNat 8 (copyParam r / 2 ^ (8 * ((lo + j) % 8)))), 0)
  | _ =>
    ((List.range (n / dstUnit r)).mapM (fun j => unitWrites s e { c with pos := lo + j * dstUnit r })).map
      (fun l => (l.flatMap (fun x => x.2.1), l.foldl (fun f x => f ||| x.2.2) 0))

/-- Nothing that an engine reads or writes in a context meets a race, a trap for one, an uncorrectable word or the hardware's own bytes. -/
def calm (s : State) (ctx g : Nat) : Prop :=
  (s.ctxAt ctx).mixtrap = false ∧ s.dev.poison = [] ∧ controlInWindow s ∧ oneAddress s ctx ∧
  (∀ size va key, vectorByte s ctx .read va = .ok key → s.stands g size key = true) ∧
  (∀ size va key, vectorByte s ctx .write va = .ok key → s.lands g size key = true)

/-- The command has moved on by a delivered segment of `n` bytes. -/
abbrev segmentDone (c c' : Cmd) (n : Nat) (fl : Flags) : Prop :=
  c'.delivered = c.delivered + 1 ∧ c'.done = c.done + n ∧ c'.flags = c.flags ||| fl ∧ c'.pos = c.pos ∧ c'.skipped = c.skipped ∧
  c'.status = c.status ∧ c'.skipTrap = c.skipTrap ∧ c'.raw = c.raw

end Sys2Proof.Claims

/-- R185, R186: a segment of skip-and-return. Where all its bytes translate, and nothing disturbs them, it is delivered: its bytes stand at its
destination, then DEL and then NDEL in the completion record, and no other byte changes. One that does not translate at its destination,
or at its source of a COPY, fails with the lowest failing address. -/
def Sys2Proof.Claims.SegmentWork : Prop :=
  ∀ (s : State) (e : Site) (c : Cmd) (k : Nat), e.sel = 0 → copySkip c.raw = true → copyShd c.raw = false → c.payload = none →
    (let lo := (segSpan c.raw k).1
     let n := (segSpan c.raw k).2 - lo
     let a := copyDst c.raw + lo
     let rec' := copyComp c.raw
     0 < n →
     (∀ (bs : List Byte) (fl : Flags) (r1 r2 : Nat), calm s c.ctx e.agent → segmentBytes s e c lo n = some (bs, fl) →
       (∀ sel j x, sel ≤ 2 → s.cmdAt e.f sel j = some x → x.running = true → sel = e.sel ∧ j = e.k) →
       (∀ j, j < n → (s.cmdReads e.f 0 c).any (inRange (isLocal a) ((if isLocal a then localAddr a else a) + j)) = false) →
       isLocal rec' = false → (rec' + 24 + 8 * (c.delivered + 1) ≤ a ∨ a + n ≤ rec' ∨ isLocal a = true) →
       windowPieces s c.ctx .write (rec' + 24 + 8 * c.delivered) 8 = .ok [⟨rec' + 24 + 8 * c.delivered, r1, 8⟩] →
       windowPieces s c.ctx .write (rec' + 16) 8 = .ok [⟨rec' + 16, r2, 8⟩] →
       (∀ key, isLocal a = false → windowPieces s c.ctx .write a n = .ok [⟨a, key, n⟩] →
         ∃ t c', s.segment e c k = .ok (t, c') ∧ segmentDone c c' n fl ∧ t.mem.bytes key n = bs ∧ t.mem.bytes r1 8 = toBytes 8 k ∧
           t.mem.bytes r2 8 = toBytes 8 (c.delivered + 1) ∧
           ∀ j, (j < key ∨ key + n ≤ j) → (j < r1 ∨ r1 + 8 ≤ j) → (j < r2 ∨ r2 + 8 ≤ j) → t.mem.get 0 j = s.mem.get 0 j) ∧
       (isLocal a = true → localAddr (copyDst c.raw) + copyDstBytes c.raw ≤ 2 ^ 21 →
         (isLocal (copySrc c.raw) = false ∨ localAddr (copySrc c.raw) + copySrcBytes c.raw ≤ 2 ^ 21) →
         ∃ t c', s.segment e c k = .ok (t, c') ∧ segmentDone c c' n fl ∧
           (t.coreAt (e.f / 2)).scratch.bytes (localAddr a) n = bs ∧ t.mem.bytes r1 8 = toBytes 8 k ∧
           t.mem.bytes r2 8 = toBytes 8 (c.delivered + 1) ∧
           ∀ j, (j < r1 ∨ r1 + 8 ≤ j) → (j < r2 ∨ r2 + 8 ≤ j) → t.mem.get 0 j = s.mem.get 0 j)) ∧
     (∀ x, isLocal a = false → windowPieces s c.ctx .write a n = .error x → s.segment e c k = .error x) ∧
     (∀ x, (isLocal a = true ∨ ∃ ps, windowPieces s c.ctx .write a n = .ok ps) → copyOp c.raw = 0 →
       (copyListed c.raw = true ∨ isLocal (c.source lo) = false) → windowPieces s c.ctx .read (c.source lo) n = .error x →
       s.segment e c k = .error x))

/-- R185: the passes of skip-and-return, segment by segment. The first takes the segments in order; one that fails is left for later with nothing
changed, and the first of them raises the command's one trap, or none where no hart is there to take it. Once every segment has been
tried and the trap is over, the retry takes those left in order; one that fails again gives STATUS the first such cause. The command is
finished when none is left. -/
def Sys2Proof.Claims.SkipWork : Prop :=
  (∀ (i : Instr) (s : State) (e : Site) (c : Cmd), copyStepOf i = some (copyOp c.raw) → e.sel = 0 → s.arg.k = e.k → working s e c →
    copySkip c.raw = true → c.loaded = true → c.pos < segCount c.raw →
    (∀ t c', s.segment e c c.pos = .ok (t, c') →
      exec i s = .next (t.putCmd e.f 0 e.k (let d : Cmd := { c' with pos := c.pos + 1 }
        if segCount c.raw ≤ c.pos + 1 ∧ c.skipped = [] then { d with phase := .finished } else d))) ∧
    (∀ x a, s.segment e c c.pos = .error (x, a) →
      exec i s = .next (s.putCmd e.f 0 e.k (let d : Cmd := { c with pos := c.pos + 1, skipped := c.skipped ++ [c.pos] }
        if c.skipTrap = .waiting then
          { d with skipTrap := if c.gone then .retry else .faulted, failAddr := BitVec.ofNat 64 a, failCause := x }
        else d)))) ∧
  (∀ (s : State) (e : Site) (c : Cmd) (k : Nat) (ks : List Nat), s.arg.front = e.f → s.arg.sel = e.sel → s.arg.k = e.k → e.f < 256 →
    e.sel = 0 → s.arg.n = 1 → s.cmdAt e.f 0 e.k = some c → e.seq = c.seq → s.frozenCmd c = false → c.away = false → c.phase = .running →
    copySkip c.raw = true → segCount c.raw ≤ c.pos → c.skipTrap = .retry → c.skipped = k :: ks →
    (let ended (d : Cmd) : Cmd := if ks = [] then { d with phase := .finished } else d
     (∀ t c', s.segment e c k = .ok (t, c') → exec .engineRetry s = .next (t.putCmd e.f 0 e.k (ended { c' with skipped := ks }))) ∧
     (∀ x a, s.segment e c k = .error (x, a) →
       exec .engineRetry s =
         .next (s.putCmd e.f 0 e.k (ended { c with
           skipped := ks, status := if c.status = 0 then BitVec.ofNat 8 x else c.status })))))

/-! ## The end of commands -/

namespace Sys2Proof.Claims

/-- The chain at `e` after its command has completed, and how many commands leave at its head. -/
def chainAfter (s : State) (e : Site) (c : Cmd) : List Cmd := ((s.frontAt e.f).chain.get [] e.sel).set e.k { c with complete := true }

/-- A finished command of a front that FREEZE does not stop. -/
abbrev ending (s : State) (e : Site) (c : Cmd) : Prop :=
  s.arg.front = e.f ∧ s.arg.sel = e.sel ∧ s.arg.k = e.k ∧ e.f < 256 ∧ e.sel ≤ 2 ∧ s.cmdAt e.f e.sel e.k = some c ∧
  e.seq = c.seq ∧ c.phase = .finished ∧ c.complete = false ∧ s.frozenCmd c = false ∧ c.away = false

/-- The front's numbers and chain after a completion. -/
abbrev risen (s t : State) (e : Site) (c : Cmd) : Prop :=
  let n := (headDone (chainAfter s e c)).length
  (t.frontAt e.f).seq.get 0 e.sel = (s.frontAt e.f).seq.get 0 e.sel + BitVec.ofNat 64 n ∧
  (t.frontAt e.f).chain.get [] e.sel = (chainAfter s e c).drop n

end Sys2Proof.Claims

/-- R181: a finished command without a completion record completes, and the front's number rises over the completed commands at the head of its
chain. With a record outside a ticket, in one piece without a race, its two words are written first: result, then the sequence number;
no other byte changes. -/
def Sys2Proof.Claims.CommandCompletes : Prop :=
  ∀ (s : State) (e : Site) (c : Cmd), ending s e c → c.recordFailed = false →
    (let a := c.compAt e.sel
     (a = 0 → ∃ t, exec .commandComplete s = .next t ∧ risen s t e c ∧ t.mem = s.mem) ∧
     (∀ key, a ≠ 0 → isLocal a = false → c.ticket = 0 → (copySkip c.raw = false ∨ e.sel ≠ 0) →
       windowPieces s c.ctx .write a 8 = .ok [⟨a, key, 8⟩] → windowPieces s c.ctx .write (a + 8) 8 = .ok [⟨a + 8, key + 8, 8⟩] →
       s.mixed c.ctx e.agent 8 key 16 = false → (∀ j, j < 16 → s.lands e.agent 8 (key + j) = true) → controlInWindow s →
       ∃ t, exec .commandComplete s = .next t ∧ risen s t e c ∧ t.mem.bytes key 8 = toBytes 8 c.result ∧
         t.mem.bytes (key + 8) 8 = toBytes 8 c.label ∧ sameBytesOutside s t key 16))

/-- R183, R185: a command whose handler has returned works on: it writes its record again, goes on from where it failed, or retries the
segments that it skipped. -/
def Sys2Proof.Claims.CommandRetries : Prop :=
  ∀ (s : State) (e : Site) (c : Cmd), s.arg.front = e.f → s.arg.sel = e.sel → s.arg.k = e.k → e.f < 256 → e.sel ≤ 2 →
    s.cmdAt e.f e.sel e.k = some c → e.seq = c.seq → s.frozenCmd c = false → c.away = false →
    (c.phase = .retry →
      (c.recordFailed = true → exec .engineRetry s = .next (s.putCmd e.f e.sel e.k { c with phase := .finished })) ∧
      (c.recordFailed = false → e.sel = 0 → exec .engineRetry s = .next (s.workCopy e { c with phase := .running } s.arg.n)) ∧
      (c.recordFailed = false → e.sel ≠ 0 → exec .engineRetry s = .next (s.matvecBlocks e { c with phase := .running } s.arg.n))) ∧
    (e.sel = 0 → c.phase = .running → copySkip c.raw = true → segCount c.raw ≤ c.pos → c.skipTrap = .retry →
      (let r := s.skipRetry e c s.arg.n
       exec .engineRetry s = .next (r.1.putCmd e.f e.sel e.k r.2.skipOver)))

/-- R248, R183, 04 R65: an asynchronous trap that waits for a hart is taken: the oldest of its store queues' first, and otherwise the ENGINE
trap of the first command that has failed, whose trap is then delivered; both trap at the hart's pc with ASYNC set. (That a store
queue's trap goes before an engine's is the model's choice, log entry 68.) -/
def Sys2Proof.Claims.AsyncTrapTaken : Prop :=
  ∀ (s : State) (f : Nat) (sl : Slot), s.arg.front = f → f < 256 → s.arg.slot = sl → s.asyncDue f sl = true →
    (let u : State := { s with fid := f, slot := sl }
     (∀ p ps, u.hart.pend = p :: ps →
       exec .asyncTrapDelivery s =
         .next (takeTrap (u.setHart { u.hart with pend := ps }) p.cause p.val.toNat u.regs.pc true)) ∧
     (∀ sel k c, u.hart.pend = [] → u.nextFault f sl = some (sel, k) → u.cmdAt f sel k = some c →
       exec .asyncTrapDelivery s =
         .next (takeTrapWith (u.putCmd f sel k c.delivers) 0x1B c.failAddr.toNat u.regs.pc true (c.compAt sel) c.label)))

/-! ## The Sorus engine -/

namespace Sys2Proof.Claims

/-- SGATH and SSCAT: scatter, add, mask, index group, base and descriptor registers. -/
def sorusForm : Instr → Option (Bool × Bool × Bool × Reg × Reg × Reg)
  | .sgath _ _ m b a d => some (false, false, m, b, a, d)
  | .sscat _ _ m g b a d => some (true, g, m, b, a, d)
  | _ => none

/-- The state in which a Sorus command works. -/
abbrev sorusAt (s : State) (core k : Nat) (c : Sorus) (scatter : Bool) : Prop :=
  s.arg.core = core ∧ s.arg.k = k ∧ (s.coreAt core).sorus.get none k = some c ∧ c.scatter = scatter ∧ c.frozen s = false

/-- After a command: the swatch in its new state, no command for it, and the fault bitmap behind its elements. -/
def sorusEnded (s t : State) (core k : Nat) (c : Sorus) (st : SwSt) : Prop :=
  let w := (s.coreAt core).swatches.get {} k
  let es := c.elements s
  (w.serial ≠ 0 → ((t.coreAt core).swatches.get {} k) = { w with st := st }) ∧ (t.coreAt core).sorus.get none k = none ∧
  (t.coreAt core).scratch.bytes (w.base.toNat + bitmapAt es.length c.size) (bitmapLen es.length) =
    toBytes (bitmapLen es.length) (faultBits es)

end Sys2Proof.Claims

/-- R189, R190, R380, R388: SGATH and SSCAT with a legal descriptor and vl other than 0, on a swatch that may be taken and is long enough, hand
the captured command to the engine: the swatch fills or drains, and the front's record names it. With vl 0 they only pass. -/
def Sys2Proof.Claims.SorusIssued : Prop :=
  ∀ (i : Instr) (scatter add m : Bool) (b a d : Reg) (s : State), sorusForm i = some (scatter, add, m, b, a, d) →
    issueReady s → fullX s d → s.regs.sewCode = 3 → s.badGroup b.toNat (grpNow s) = false →
    (let v := s.regs.getX d
     let n := s.regs.vl.toNat
     let k := s.run.swatches.getD (sorusSw v) 0
     badDescriptor scatter add s.run.swatches.length v = false →
     (n = 0 → exec i s = .next (fresh ((fresh s).advance i.size))) ∧
     (n ≠ 0 → fullX s a → srcReady s b (grpNow s) 32 →
       swatchBad scatter ((fresh s).swatchSeen k) (bitmapAt n (2 ^ sorusEsz v) + bitmapLen n) = false →
       ∃ t, exec i s = .next t ∧ t.regs = passed i s.regs ∧ t.run.gather = 2 ^ 31 + sorusSw v ∧
         (t.core.swatches.get {} k) =
           { s.core.swatches.get {} k with
             st := if scatter then .draining else .filling, engine := sorusAgent s.coreNo k s.cycle } ∧
         (∃ c, t.core.sorus.get none k = some c ∧ c.agent = sorusAgent s.coreNo k s.cycle ∧ c.region = s.run.cr.region ∧ c.scatter = scatter ∧ c.add = add ∧ c.fp = sorusFp v ∧
           c.signed = sorusSigned v ∧ c.size = 2 ^ sorusEsz v ∧ c.base = s.regs.getX a ∧ c.idx = operand s b (grpNow s) 32 n ∧
           c.act = s.regs.active m ∧ c.ctx = s.ctx ∧ c.front = s.fid) ∧
         t.mem = s.mem ∧ sameTrapState s t))

/-- R191, R192: a gather lands its elements in the swatch, 0 for those that are inactive or fault, and leaves it READY; a scatter leaves it
EMPTY; the bitmap tells which elements faulted. A plain scatter of one element writes its bytes, a scatter-add of one integer adds to the
word, and no other byte changes. -/
def Sys2Proof.Claims.SorusCompletes : Prop :=
  (∀ (s : State) (core k : Nat) (c : Sorus), sorusAt s core k c false →
    ∃ t, exec .sgathComplete s = .next t ∧ sorusEnded s t core k c .ready ∧ t.mem = s.mem ∧
      (let base := ((s.coreAt core).swatches.get {} k).base.toNat
       (t.coreAt core).scratch.bytes base ((c.elements s).length * c.size) = c.landing s (c.elements s))) ∧
  (∀ (s : State) (core k : Nat) (c : Sorus), sorusAt s core k c true →
    ∃ t, exec .sscatComplete s = .next t ∧ sorusEnded s t core k c .empty ∧
      (∀ x va key, c.act = [true] → c.idx = [x] → c.piecesOf s x = some [⟨va, key, c.size⟩] →
        (∀ j, j < c.size → s.lands c.agent c.size (key + j) = true) →
        (c.add = true → ∀ j, j < c.size → s.stands c.agent c.size (key + j) = true) →
        (let bs := (s.coreAt core).scratch.bytes ((s.coreAt core).swatches.get {} k).base.toNat c.size
         sameBytesOutside s t key c.size ∧
         (c.add = false → t.mem.bytes key c.size = bs) ∧
         (c.add = true → c.fp = false →
           t.mem.bytes key c.size =
             toBytes c.size ((ofBytes (s.mem.bytes key c.size) + ofBytes bs) % 2 ^ (8 * c.size))))))

/-! ## The host -/

namespace Sys2Proof.Claims

/-- The `n` bytes at `va` of the host's context translate to keys. -/
abbrev hostReaches (s : State) (acc : Acc) (va n : Nat) (key : Nat → Nat) : Prop :=
  ∀ j, j < n → vectorByte s s.dev.hctx.toNat acc (va + j) = .ok (key j)

/-- Only these parts of the device's host side differ. -/
abbrev sameHarts (s t : State) : Prop := t.fronts = s.fronts ∧ t.cores = s.cores ∧ t.regions = s.regions

end Sys2Proof.Claims

/-- R263: a host read whose bytes translate, without an uncorrectable byte and without a race, returns what memory holds, and poison where one
byte does not translate; it changes nothing else. (Poison for the whole read, and the size of a host's events, are log entries 29
and 33.) A host write whose bytes translate in one run writes exactly its bytes; a byte that does not translate is dropped and
reported. -/
def Sys2Proof.Claims.HostAccess : Prop :=
  (∀ (s : State) (key : Nat → Nat), s.arg.flag = false →
    (let n := s.arg.size
     let size := hostSize s.arg.off n
     (hostReaches s .read s.arg.off n key → (∀ j, j < n → s.stands hostAgent size (key j) = true) →
       (∀ j, j < n → s.poisoned (key j) 1 = false) →
       exec .hostRead s =
         .next { s with dev := { s.dev with answer := some ((List.range n).map (fun j => s.mem.get 0 (key j))) } }) ∧
     ((∃ j c, j < n ∧ vectorByte s s.dev.hctx.toNat .read (s.arg.off + j) = .error c) →
       exec .hostRead s = .next { s with dev := { s.dev with answer := none } }))) ∧
  (∀ (s : State) (key : Nat),
    (let n := s.arg.data.length
     hostReaches s .write s.arg.off n (fun j => key + j) →
     (∀ j, j < n → s.lands hostAgent (hostSize s.arg.off n) (key + j) = true) → controlInWindow s →
     ∃ t, exec .hostWrite s = .next t ∧ t.mem.bytes key n = s.arg.data ∧ sameBytesOutside s t key n ∧
       t.dev.events = s.dev.events ∧ t.dev.mailbox = s.dev.mailbox ∧ sameHarts s t)) ∧
  (∀ (s : State) (b : Byte) (c : Nat), s.arg.data = [b] → vectorByte s s.dev.hctx.toNat .write s.arg.off = .error c →
    exec .hostWrite s = .next (s.post 0x83 s.dev.hctx.toNat 0 (BitVec.ofNat 64 s.arg.off) 1))

/-- R266, R267: a host read of 8 bytes of BAR0 returns the slot's words, HCTX, a window's base and limit, or a context's RBQ and RBT; the
doorbell, and what R267 does not list below 0x800, read 0. It changes nothing else. -/
def Sys2Proof.Claims.RegisterReads : Prop :=
  ∀ s : State, s.arg.flag = true → s.arg.size = 8 → s.arg.off % 8 = 0 →
    (let off := s.arg.off
     let answers (v : Word) : Prop :=
       exec .hostRead s = .next { s with dev := { s.dev with answer := some (toBytes 8 v.toNat) } }
     (∀ k d, k < 16 → d < 8 → off = 64 * k + 8 * d → answers ((s.dev.mailbox.get 0 k).extractLsb' (64 * d) 64)) ∧
     (off = 0x400 → answers 0) ∧ (off = 0x408 → answers (s.dev.hctx.setWidth 64)) ∧
     (∀ w, w < 8 → off = 0x500 + 16 * w → answers (s.dev.hwbase.get 0 w)) ∧
     (∀ w, w < 8 → off = 0x508 + 16 * w → answers (s.dev.hwlim.get 0 w)) ∧
     (∀ k, k < 16 → off = 0x600 + 16 * k →
       answers (BitVec.ofNat 64 ((s.ctxAt k).scratch.toNat * 2 ^ 32 + (s.ctxAt k).qentries.toNat))) ∧
     (∀ k, k < 16 → off = 0x608 + 16 * k → answers (BitVec.ofNat 64 (s.ctxAt k).tiles.toNat)) ∧
     ((0x410 ≤ off ∧ off < 0x500) ∨ (0x580 ≤ off ∧ off < 0x600) ∨ (0x700 ≤ off ∧ off < 0x800) → answers 0))

/-- R266, R267, R269, 03 R26: RBQ and RBT take a budget that covers what the context's root regions carve, and ignore any other; HCTX, the windows,
the doorbell and the words of the mailbox are written at their offsets, and an offset that is not listed ignores it. An event slot that the
host frees is free, or holds the oldest event that waits. -/
def Sys2Proof.Claims.HostRegisters : Prop :=
  (∀ (s : State) (i : Instr) (k : Nat), k < 16 → (i = .rbqWrite ∧ s.arg.k = k) ∨ (i = .hostRegisterWrite ∧ s.arg.off = 0x600 + 16 * k) →
    (let C := s.ctxAt k
     let q := s.arg.val.extractLsb' 0 32
     let m := s.arg.val.extractLsb' 32 32
     (s.rootCarved k Region.qentries ≤ q.toNat → s.rootCarved k Region.scratch ≤ m.toNat →
       exec i s = .next (s.setCtxAt k { C with qentries := q, scratch := m })) ∧
     (q.toNat < s.rootCarved k Region.qentries ∨ m.toNat < s.rootCarved k Region.scratch → exec i s = .next s))) ∧
  (∀ (s : State) (i : Instr) (k : Nat), k < 16 → (i = .rbtWrite ∧ s.arg.k = k) ∨ (i = .hostRegisterWrite ∧ s.arg.off = 0x608 + 16 * k) →
    (let t := min (s.arg.val.extractLsb' 0 4).toNat 8
     (s.rootCarved k Region.tiles ≤ t → exec i s = .next (s.setCtxAt k { s.ctxAt k with tiles := BitVec.ofNat 4 t })) ∧
     (t < s.rootCarved k Region.tiles → exec i s = .next s))) ∧
  (∀ (s : State),
    (s.arg.off = 0x408 →
      exec .hostRegisterWrite s = .next { s with dev := { s.dev with hctx := s.arg.val.extractLsb' 0 4 } }) ∧
    (∀ w, w < 8 → s.arg.off = 0x500 + 16 * w → ∃ t, exec .hostRegisterWrite s = .next t ∧
      t.dev.hwbase.get 0 w = s.arg.val &&& 0xFFFFFFFFFFFFF001 ∧ t.mem = s.mem ∧ sameHarts s t) ∧
    (∀ w, w < 8 → s.arg.off = 0x508 + 16 * w → ∃ t, exec .hostRegisterWrite s = .next t ∧
      t.dev.hwlim.get 0 w = s.arg.val &&& 0xFFFFFFFFFFFFF000 ∧ t.mem = s.mem ∧ sameHarts s t) ∧
    (s.arg.off = 0x400 → (s.arg.val.extractLsb' 0 4).toNat < 12 →
      ∃ t, exec .hostRegisterWrite s = .next t ∧ t.dev.doorbells = s.dev.doorbells ++ [(s.arg.val.extractLsb' 0 4).toNat] ∧
        t.dev.mailbox = s.dev.mailbox ∧ t.mem = s.mem ∧ sameHarts s t) ∧
    (s.arg.off = 0x400 → 12 ≤ (s.arg.val.extractLsb' 0 4).toNat → exec .hostRegisterWrite s = .next s) ∧
    (∀ k d, k < 16 → d < 8 → s.arg.off = 64 * k + 8 * d → k < 12 ∨ s.dev.events = [] →
      ∃ t, exec .hostRegisterWrite s = .next t ∧ (t.dev.mailbox.get 0 k).extractLsb' (64 * d) 64 = s.arg.val ∧
        (∀ c, c < 8 → c ≠ d → (t.dev.mailbox.get 0 k).extractLsb' (64 * c) 64 = (s.dev.mailbox.get 0 k).extractLsb' (64 * c) 64) ∧
        (∀ j, j ≠ k → j < 12 ∨ s.dev.events = [] → t.dev.mailbox.get 0 j = s.dev.mailbox.get 0 j) ∧ t.mem = s.mem ∧ sameHarts s t) ∧
    (s.arg.off % 8 ≠ 0 ∨ (0x410 ≤ s.arg.off ∧ s.arg.off < 0x500) ∨ (0x580 ≤ s.arg.off ∧ s.arg.off < 0x600) ∨
      (0x700 ≤ s.arg.off ∧ s.arg.off < 0x800) → exec .hostRegisterWrite s = .next s)) ∧
  (∀ (s : State), s.arg.mslot < 4 →
    (let k := 12 + s.arg.mslot
     (s.dev.events = [] → ∃ t, exec .eventSlotFree s = .next t ∧ slotStatus (t.dev.mailbox.get 0 k) = 0 ∧ t.mem = s.mem ∧
       sameHarts s t) ∧
     (∀ op ctx region a0 a1 es, s.dev.events = (op, ctx, region, a0, a1) :: es →
       (∀ j, 12 ≤ j → j < 16 → j ≠ k → slotStatus (s.dev.mailbox.get 0 j) ≠ 0) →
       slotStatus (eventSlot op ctx region a0 a1) ≠ 0 →
       ∃ t, exec .eventSlotFree s = .next t ∧ t.dev.mailbox.get 0 k = eventSlot op ctx region a0 a1 ∧ t.dev.events = es ∧
         t.dev.msix = s.dev.msix + 1 ∧ t.mem = s.mem ∧ sameHarts s t)))

namespace Sys2Proof.Claims

/-- The request at the head of the doorbells: slot, words, OP. -/
abbrev asked (s : State) (k : Nat) (v : BitVec 512) (op : Nat) : Prop := s.nextRequest = some (k, v) ∧ s.requestOf v = op

/-- What the request's slot holds after the step. -/
abbrev replied (t : State) (k status result : Nat) : Prop :=
  slotStatus (t.dev.mailbox.get 0 k) = status ∧ ((t.dev.mailbox.get 0 k).extractLsb' 192 64).toNat = result

/-- Bytes of a CR image that a request reads, with the value of its join counter, 0 for none. -/
def pushRead (s : State) (v : BitVec 512) (img : List Byte) (count : Nat) : Prop :=
  s.requestRead (slotCtx v) (slotA0 v).toNat 64 8 = .ok img ∧
  ((CR.ofBytes img).joinaddr = 0 ∧ count = 0 ∨
    (CR.ofBytes img).joinaddr ≠ 0 ∧
      ∃ bs, s.requestRead (slotCtx v) (CR.ofBytes img).joinaddr.toNat 8 8 = .ok bs ∧ count = ofBytes bs)

end Sys2Proof.Claims

/-- R266, R268: the request at the head of the doorbells is performed, and its slot holds STATUS and RESULT. LAUNCH and WITHDRAW act as the
instructions do, under the root budget of the context, LAUNCH with STATUS 4 and no effect where its RCB cannot be written; FREEZE and THAW act on the job; PUSH puts a CR of weight 2^32, drawn from its
region, at the region's tail, ready where its join counter reads 0 and parked otherwise; any other OP gives STATUS 3. -/
def Sys2Proof.Claims.HostRequests : Prop :=
  ∀ (s : State) (k : Nat) (v : BitVec 512),
    (let ctx := slotCtx v
     let u := s.taken
     let job := regionKey ctx (slotRegion v)
     (∀ hdr img, asked s k v 1 → u.requestReads ctx (slotA0 v).toNat 128 (slotA1 v).toNat 256 = .ok (hdr, img) →
       (let r := u.launch (regionKey ctx 0) ⟨hdr, img, (slotA1 v).toNat⟩
        (r.1 % 256 ≠ 0 → exec .hostLaunch s = .next (u.reply k 2 r.1)) ∧
        (∀ c, r.1 % 256 = 0 → u.rcbFailure ctx (slotA1 v).toNat = some c → exec .hostLaunch s = .next (u.reply k 4 c)) ∧
        (r.1 % 256 = 0 → u.rcbFailure ctx (slotA1 v).toNat = none → exec .hostLaunch s = .next (r.2.reply k 1 r.1)))) ∧
     (∀ img count, asked s k v 2 → slotRegion v ≠ 0 → (s.regionAt job).status = 1 → pushRead u v img count →
       imageIllegal (s.regionAt job) img = false →
       (let R := s.regionAt job
        let c : CR := { resolveCr R (CR.ofBytes img) with weight := BitVec.ofNat 64 (2 ^ 32), region := slotRegion v }
        R.failing = false → R.charged.get 0 0 + 2 ≤ R.reserve.get 0 0 → R.drawn.toNat + 2 ^ 32 ≤ 2 ^ 63 →
        ∃ t, exec .push s = .next t ∧ replied t k 1 0 ∧
          (let T := t.regionAt job
           T.charged.get 0 0 = R.charged.get 0 0 + 1 ∧ T.drawn = R.drawn + BitVec.ofNat 64 (2 ^ 32) ∧
           (if count = 0 then T.ready = R.ready ++ [c] ∧ T.parked = R.parked
            else T.parked = R.parked ++ [c] ∧ T.ready = R.ready)))) ∧
     (asked s k v 3 →
       (let ks := if slotRegion v = 0 then u.activeOf ctx else [job]
        let r := u.withdrawEach ((slotA0 v).extractLsb' 0 32) ((slotA0 v).extractLsb' 32 32) ks
        exec .hostWithdraw s = .next (r.2.reply k 1 r.1))) ∧
     (asked s k v 4 → exec .hostFreeze s = .next ((u.freezeJob job).reply k 1 0)) ∧
     (asked s k v 5 → exec .hostThaw s = .next ((u.thawJob job).reply k 1 0)) ∧
     (asked s k v 0 →
       ∃ t, exec .badop s = .next t ∧ replied t k 3 0 ∧ t.dev.doorbells = s.dev.doorbells.tail ∧ t.mem = s.mem ∧ sameHarts s t))

/-- R270, R276: PEERCOPY sends a record with the bytes of its source where the other device takes it, and gives STATUS 2 where it does not; a
record that arrives, and that is not refused, joins the chain of its front. ATTEST writes its report to memory of the context, in one
run without a race. (The context of a record that arrives, and what refuses it, are the model's choices, log entry 27.) -/
def Sys2Proof.Claims.HostTransfers : Prop :=
  ∀ (s : State) (k : Nat) (v : BitVec 512),
    (let ctx := slotCtx v
     let u := s.taken
     (∀ bs data, asked s k v 7 → u.requestRead ctx (slotA0 v).toNat 64 8 = .ok bs →
       (let r := BitVec.ofNat 512 (ofBytes bs)
        let port := ((slotA1 v).extractLsb' 0 4).toNat
        copyMalformed r = false → port < 12 → u.peerSource ctx r = .ok data →
        (Config.peerAccepts u.cycle port = true →
          ∃ t, exec .peercopy s = .next t ∧ replied t k 1 0 ∧
            t.dev.sent = s.dev.sent ++ [⟨port, ((slotA1 v).extractLsb' 4 8).toNat, ctx, r, data⟩] ∧ t.mem = s.mem ∧ sameHarts s t) ∧
        (Config.peerAccepts u.cycle port = false →
          ∃ t, exec .peercopy s = .next t ∧ replied t k 2 0 ∧ t.dev.sent = s.dev.sent ∧ t.mem = s.mem ∧ sameHarts s t))) ∧
     (∀ nonce key, asked s k v 8 → u.requestRead ctx (slotA0 v).toNat 32 1 = .ok nonce →
       (let bs := Config.attestReport s.dev.measurement s.dev.secVersion Config.fusedMinimum Config.serialNumber nonce
        windowPieces u ctx .write (slotA1 v).toNat bs.length = .ok [⟨(slotA1 v).toNat, key, bs.length⟩] →
        (∀ j, j < bs.length → vectorByte u ctx .write ((slotA1 v).toNat + j) = .ok (key + j) ∧
          u.lands hostAgent 8 (key + j) = true) → controlInWindow s →
        ∃ t, exec .attest s = .next t ∧ replied t k 1 0 ∧ t.mem.bytes key bs.length = bs ∧ sameBytesOutside s t key bs.length)) ∧
     (∀ f, s.arg.front = f → f < 256 → s.peerRefused (s.arg.sel % 16) s.arg.record = false →
       ∃ t c, exec .peercopyReceive s = .next t ∧
         (t.frontAt f).chain.get [] 0 = (s.frontAt f).chain.get [] 0 ++ [c] ∧ c.raw = s.arg.record ∧ c.owned = false ∧
         c.payload = some s.arg.data ∧ c.ctx = s.arg.sel % 16 ∧ t.mem = s.mem))

/-- R271, R273: CHECKPOINT under a good port mask freezes the job's regions and streams its image as it stands, and gives STATUS 2 under another;
its acknowledgement leaves the image with the safe tier, under its base, and STATUS 1. RESTORE gives STATUS 2 with RESULT 1 where the safe
tier holds no image there, with the first failure of its table, or rebuilds the image in its context with STATUS 1. -/
def Sys2Proof.Claims.CheckpointAndRestore : Prop :=
  ∀ (s : State) (k : Nat) (v : BitVec 512),
    (let ctx := slotCtx v
     let u := s.taken
     let ks := u.jobKeys ctx (slotRegion v)
     (asked s k v 6 → goodPorts (slotA0 v) = true →
       ∃ t, exec .checkpoint s = .next t ∧ (u.drainsIn ks = [] → t.mem = s.mem) ∧
         t.dev.streaming = some ⟨k, (slotA1 v).toNat, (u.freezeKeys ks).imageOf ctx (slotRegion v), s.cycle⟩ ∧
         (∀ j, j ∈ ks → (s.regionAt j).status = 1 → (t.regionAt j).frozen = true)) ∧
     (asked s k v 6 → goodPorts (slotA0 v) = false →
       ∃ t, exec .checkpoint s = .next t ∧ replied t k 2 0 ∧ t.dev.streaming = s.dev.streaming ∧ t.mem = s.mem ∧ sameHarts s t) ∧
     (∀ x, s.dev.streaming = some x →
       ∃ t, exec .checkpointAcknowledged s = .next t ∧ t.dev.streaming = none ∧ slotStatus (t.dev.mailbox.get 0 x.slot) = 1 ∧
         (∃ i, t.dev.images.find? (fun e => e.1 == x.base) = some (x.base, i) ∧ i.regions = x.image.regions ∧
           i.fronts = x.image.fronts ∧ i.granules = x.image.granules.map (s.disturbed x.since)) ∧
         t.mem = s.mem ∧ sameHarts s t) ∧
     (asked s k v 10 → s.dev.images.find? (fun e => e.1 == (slotA1 v).toNat) = none →
       ∃ t, exec .restore s = .next t ∧ replied t k 2 1 ∧ t.mem = s.mem ∧ sameHarts s t) ∧
     (∀ b i, asked s k v 10 → s.dev.images.find? (fun e => e.1 == (slotA1 v).toNat) = some (b, i) →
       (∀ r, u.restoreFailure ctx (slotA0 v) i = some r → exec .restore s = .next (u.reply k 2 r)) ∧
       (u.restoreFailure ctx (slotA0 v) i = none → exec .restore s = .next ((u.rebuild ctx i).reply k 1 0))))

namespace Sys2Proof.Claims

/-- Where byte 0 of granule `n` of a Vector Page Map entry stands in memory (07 R125, R142). -/
def granuleAt (n : Nat) (e : Word) : Nat :=
  if e.getLsbD 22 then 2 ^ 40 + n * 2 ^ 26 else (e.extractLsb' 14 3).toNat * 2 ^ 37 + (e.extractLsb' 0 11).toNat * 2 ^ 26

/-- The regions of an image stand in its own context, each id once. -/
def oneContext (i : Image) : Prop := (∀ e ∈ i.regions, e.1 / 65536 = i.ctx) ∧ (i.regions.map (fun e => e.1)).Nodup

/-- An ACTIVE region of an image is a root of it: no ACTIVE region of the image is its parent. -/
def rootOf (i : Image) (e : Nat × Region) : Bool :=
  e.2.status == 1 && (e.2.parent == 0 || i.regions.all (fun x => x.2.status != 1 || x.1 % 65536 != e.2.parent))

/-- A port mask names four ports of each die (02 R20). -/
def fourEach (mask : Word) : Bool :=
  decide (mask.toNat < 4096) && ((List.range 6).filter (fun j => mask.getLsbD j)).length == 4 &&
    ((List.range 6).filter (fun j => mask.getLsbD (6 + j))).length == 4

/-- A granule of an image cannot be placed beside those before it: its frame is taken or lies in a pool, or its patches exceed what its
stack's pool has left (14 R273, row 3). -/
def noPlace (s : State) (before : List Granule) (g : Granule) : Prop :=
  let stack := g.entry.extractLsb' 14 3
  let frame := g.entry.extractLsb' 0 11
  if g.entry.getLsbD 22 then
    1024 * s.dev.pool < s.stackUsed stack.toNat + g.patches.length +
      ((before.filter (fun b => b.entry.getLsbD 22 && b.entry.extractLsb' 14 3 == stack)).map (fun b => b.patches.length)).sum
  else
    1430 ≤ frame.toNat + s.dev.pool + s.dev.savePool ∨
    ∃ e ∈ s.dev.vpm, e.2.getLsbD 23 = true ∧ e.2.getLsbD 22 = false ∧ e.2.extractLsb' 14 3 = stack ∧ e.2.extractLsb' 0 11 = frame

/-- Units of the save pool of a die that the saved CRs of the device and those of an image take. -/
def unitsWith (s : State) (i : Image) (unit : Save → Nat) : Nat :=
  (s.dev.saves.map (fun e => unit e.2)).sum + ((i.fronts ++ i.saves).map (fun e => unit e.2)).sum

/-- The failures of R273's table in its order, each with its RESULT, for an image whose digest matches. -/
def restoreFailures (s : State) (ctx : Nat) (mask : Word) (i : Image) : List (Nat × Bool) :=
  let roots := i.regions.filter (rootOf i)
  let C := s.ctxAt ctx
  let units := 4 * 1024 * s.dev.savePool
  [(2, decide ((∃ e ∈ s.regions, e.2.status = 1 ∧ e.1 / 65536 = ctx) ∨ (∃ v ∈ s.dev.views, v.2.live = true ∧ v.2.ctx = ctx) ∨
     ∃ t ∈ s.dev.tickets, t.2.live = true ∧ t.2.ctx = ctx)),
   (3 + 65536 * (s.firstTaken [] i.granules).getD 0, (s.firstTaken [] i.granules).isSome),
   (4, decide (units < unitsWith s i Save.units0 ∨ units < unitsWith s i Save.units1 ∨
     4096 < s.dev.saves.length + i.fronts.length + i.saves.length)),
   (5, decide (C.qentries.toNat < (roots.map (fun e => e.2.qentries)).sum ∨ C.scratch.toNat < (roots.map (fun e => e.2.scratch)).sum ∨
     C.tiles.toNat < (roots.map (fun e => e.2.tiles)).sum)),
   (6, !fourEach mask)]

end Sys2Proof.Claims

/-- R272: the image's header, and how its records begin: numbers and offsets in their places, the digest over all that follows the header,
records of whole 4,096 bytes; a front or save-area record begins with its length and its CR, a granule record with its index and its entry,
with the granule's 64 MiB behind them, or a bitmap of the allocated patches and those. -/
def Sys2Proof.Claims.ImageLayout : Prop :=
  ∀ i : Image, i.ctx < 16 → i.region < 65536 →
    (let b := i.bytes
     let word (off x : Nat) : Prop := num b off 8 = x % 2 ^ 64
     let size (l : List (List Byte)) : Nat := (l.map List.length).sum
     let fronts := i.fronts.map (fun f => f.2.record)
     let saves := i.saves.map (fun f => f.2.record)
     let grans := i.granules.map Granule.record
     let dev := 4096 + size fronts + size saves
     let len := (Config.deviceLayout i).length
     let gran := (dev + len + 4095) / 4096 * 4096
     num b 0 4 = 1 ∧ num b 4 1 = i.ctx ∧ num b 5 1 = 0 ∧ num b 6 2 = i.region ∧ word 8 i.fronts.length ∧ word 16 i.saves.length ∧
     word 24 i.granules.length ∧ word 32 4096 ∧ word 40 (4096 + size fronts) ∧ word 48 dev ∧ word 56 len ∧ word 64 gran ∧
     part b 72 32 = (toBytes 32 (sha256 (b.drop 4096)).toNat).reverse ∧ zeros b 104 4096 = true ∧
     part b 4096 (size fronts) = fronts.flatten ∧ part b (4096 + size fronts) (size saves) = saves.flatten ∧
     part b dev len = Config.deviceLayout i ∧ b.drop gran = grans.flatten ∧
     (∀ A : Save, num A.record 0 8 = (8 + 64 + (Config.crLayout A).length) % 2 ^ 64 ∧
       part A.record 8 64 = A.run.cr.bytes ∧ A.run.cr.bytes.length = 64 ∧ A.record.length % 4096 = 0) ∧
     (∀ g : Granule, g.index < 65536 →
       num g.record 0 8 = g.index ∧ num g.record 8 8 = g.entry.toNat ∧ g.record.length % 4096 = 0 ∧
       (g.entry.getLsbD 22 = false → part g.record 16 (2 ^ 26) = g.data.bytes 0 (2 ^ 26)) ∧
       (g.entry.getLsbD 22 = true → g.patches.Nodup → (∀ p ∈ g.patches, p < 1024) →
         (∀ p, p < 1024 → ((num g.record 16 128).testBit p = true ↔ p ∈ g.patches)) ∧
         part g.record 144 (65536 * g.patches.length) = g.patches.flatMap (fun p => g.data.bytes (65536 * p) 65536))))

/-- R271, R272: what the image of a job holds: the regions of the job (one, with its ACTIVE descendants, or every ACTIVE region of the device);
a front record of every front that runs a CR of it; the save areas of its saved CRs, its tickets, the context's live views and registers;
the commands of its CRs with the sequence numbers that the context sees; and every granule whose CTXMASK holds the context, with
its bytes as memory holds them. -/
def Sys2Proof.Claims.ImageHolds : Prop :=
  ∀ (s : State) (ctx region : Nat), Table.wf {} s.regions = true → ctx < 16 →
    (let ks := s.jobKeys ctx region
     let i := s.imageOf ctx region
     let K := regionKey ctx region
     (region = 0 → ∀ k, k ∈ ks ↔ (s.regionAt k).status = 1) ∧
     (region ≠ 0 → (s.regionAt K).status = 1 → ∀ k, k ∈ ks ↔ inJob s K k) ∧
     (region ≠ 0 → (s.regionAt K).status ≠ 1 → ks = []) ∧
     i.ctx = ctx ∧ i.region = region ∧ i.regs = s.ctxAt ctx ∧
     (∀ e, e ∈ i.regions ↔ e ∈ s.regions ∧ e.1 ∈ ks) ∧
     (∀ f A, (f, A) ∈ i.fronts ↔ A = s.frontRecord f ∧ ∃ r, (f, r) ∈ s.running ∧ regionKey r.ctx r.cr.region ∈ ks) ∧
     (∀ e, e ∈ i.saves ↔ e ∈ s.dev.saves ∧ regionKey e.2.run.ctx e.2.run.cr.region ∈ ks ∧
       ∃ c ∈ (s.regionAt (regionKey e.2.run.ctx e.2.run.cr.region)).ready, c.save = e.1) ∧
     (∀ e, e ∈ i.tickets ↔ e ∈ s.dev.tickets ∧ regionKey e.2.ctx e.2.region ∈ ks) ∧
     (∀ e, e ∈ i.views ↔ e ∈ s.dev.views ∧ e.2.live = true ∧ e.2.ctx = ctx) ∧
     (∀ f x, (f, x) ∈ i.chains → ∀ sel, sel < 3 → x.seq.get 0 sel = (s.frontAt f).seqFor ctx sel ∧
       ∀ c, c ∈ x.chain.get [] sel ↔ c ∈ (s.frontAt f).chain.get [] sel ∧ c.owned = true ∧ regionKey c.ctx c.region ∈ ks) ∧
     (∀ f sel c, c ∈ (s.frontAt f).chain.get [] sel → c.owned = true → regionKey c.ctx c.region ∈ ks → ∃ x, (f, x) ∈ i.chains) ∧
     (∀ g ∈ i.granules, (g.index, g.entry) ∈ s.dev.vpm ∧ g.entry.getLsbD (48 + ctx) = true ∧
       (∀ o, o < 2 ^ 26 → g.data.get 0 o = s.mem.get 0 (granuleAt g.index g.entry + o)) ∧
       (g.entry.getLsbD 22 = true → ∀ p, p ∈ g.patches ↔ p < 1024 ∧ ∃ n, (1024 * g.index + p, n) ∈ s.dev.patches)) ∧
     (∀ n e, (n, e) ∈ s.dev.vpm → e.getLsbD (48 + ctx) = true → ∃ g ∈ i.granules, g.index = n ∧ g.entry = e))

/-- R271, R253, R254: a front record holds what an abort pre-emption would save: the CR with its weight and no save area, and the registers of its
hart at the strip's checkpoint, in unprivileged mode. -/
def Sys2Proof.Claims.FrontRecords : Prop :=
  ∀ (s : State) (f : Nat) (r : Run),
    (let F := s.frontAt f
     let A := s.frontRecord f
     F.run = some r → F.drain = none → F.a.live = true → F.a.fills = [] → F.a.priv = false →
     A.run.cr = { r.cr with weight := r.cweight, save := 0 } ∧ A.run.ctx = r.ctx ∧ A.front = f ∧ A.grant = F.grant ∧ A.cause = 0x1C ∧
     A.a.priv = false ∧ A.a.regs.pc = F.a.ckpt.pc ∧ A.a.regs.vl = F.a.ckpt.vl ∧ (∀ k, A.a.regs.getX k = F.a.ckpt.getX k))

/-- R273, R26: RESTORE's checks: the RESULT is that of the first failure of the table, none where every check passes; and the granule named is the
first that has no place. -/
def Sys2Proof.Claims.RestoreChecks : Prop :=
  (∀ (s : State) (ctx : Nat) (mask : Word) (i : Image), oneContext i →
    s.restoreFailure ctx mask i = ((restoreFailures s ctx mask i).find? (fun c => c.2)).map (fun c => c.1)) ∧
  (∀ (s : State) (gs : List Granule),
    (s.firstTaken [] gs = none ↔ ∀ k g, gs[k]? = some g → ¬ noPlace s (gs.take k) g) ∧
    (∀ x, s.firstTaken [] gs = some x ↔
      ∃ k g, gs[k]? = some g ∧ x = g.index ∧ noPlace s (gs.take k) g ∧ ∀ j h, j < k → gs[j]? = some h → ¬ noPlace s (gs.take j) h))

/-- R273, R26, R261: what RESTORE rebuilds of an image in a context: every region under its id, frozen, as it stood, a root of the image as a root
region, with the CRs of the front records at the head of its FIFO before those that were ready; tickets and views under their handles, where
no other context's stand at their numbers; the granules' entries with CTXMASK holding the context alone, and their bytes; coverage; the
context's registers with its own budget; and the commands behind those of their fronts, with the sequence numbers that the image
holds. (What comes back where numbers clash, or of several contexts' regions, is log entry 71.) -/
def Sys2Proof.Claims.Rebuilt : Prop :=
  ∀ (s : State) (ctx : Nat) (i : Image), ctx < 16 → oneContext i →
    (let t := s.rebuild ctx i
     let held (c reg : Nat) : Prop := ∃ e ∈ i.regions, e.1 = regionKey c reg
     (∀ e ∈ i.regions, (let R := t.regionAt (regionKey ctx (e.1 % 65536))
       R.frozen = true ∧ R.status = e.2.status ∧ R.rcb = e.2.rcb ∧ R.ring = e.2.ring ∧ R.ringlen = e.2.ringlen ∧ R.tail = e.2.tail ∧
       R.priority = e.2.priority ∧ R.share = e.2.share ∧ R.drawn = e.2.drawn ∧ R.returned = e.2.returned ∧ R.charged = e.2.charged ∧
       R.reserve = e.2.reserve ∧ R.faults = e.2.faults ∧ R.qentries = e.2.qentries ∧ R.scratch = e.2.scratch ∧ R.tiles = e.2.tiles ∧
       R.parent = (if rootOf i e then 0 else e.2.parent) ∧
       ((∀ x ∈ i.fronts, x.2.run.ctx = i.ctx) →
         R.ready.map (fun c => c.code) =
           (i.fronts.filter (fun x => x.2.run.cr.region == e.1 % 65536)).map (fun x => x.2.run.cr.code) ++ e.2.ready.map (fun c => c.code)) ∧
       R.parked.map (fun c => c.code) = e.2.parked.map (fun c => c.code))) ∧
     ((i.tickets.map (fun x => x.1)).Nodup → (∀ x ∈ i.tickets, (s.ticketAt x.1).live = false ∧ (s.ticketAt x.1).owing = false) →
       ∀ x ∈ i.tickets, held x.2.ctx x.2.region → (let T := t.ticketAt x.1
         T.ctx = ctx ∧ T.st = x.2.st ∧ T.gen = x.2.gen ∧ T.shadow = x.2.shadow ∧ T.written = x.2.written ∧ T.pred = x.2.pred ∧
         T.log = x.2.log ∧ T.pool = x.2.pool ∧ T.total = x.2.total ∧ T.outs = x.2.outs)) ∧
     ((i.views.map (fun x => x.1)).Nodup → (∀ x ∈ i.views, (s.dev.views.get {} x.1).live = false) →
       ∀ x ∈ i.views, t.dev.views.get {} x.1 = { x.2 with ctx := ctx }) ∧
     ((i.granules.map (fun g => g.index)).Nodup → ∀ g ∈ i.granules, (let e := t.dev.vpm.get 0 g.index
       (∀ j, j < 48 → e.getLsbD j = g.entry.getLsbD j) ∧ (∀ j, j < 16 → e.getLsbD (48 + j) = decide (j = ctx)))) ∧
     ((i.granules.map (fun g => granuleAt g.index g.entry)).Pairwise (fun a b => a + 2 ^ 26 ≤ b ∨ b + 2 ^ 26 ≤ a) →
       (∀ g ∈ i.granules, Table.wf 0 g.data = true ∧ ∀ e ∈ g.data, e.1 < 2 ^ 26) → i.fronts = [] → (∀ e ∈ i.regions, rootOf i e = true → e.2.parent = 0) →
       (∀ g ∈ i.granules, ∀ o, o < 2 ^ 26 → t.mem.get 0 (granuleAt g.index g.entry + o) = g.data.get 0 o) ∧
       (∀ j, (∀ g ∈ i.granules, j < granuleAt g.index g.entry ∨ granuleAt g.index g.entry + 2 ^ 26 ≤ j) → t.mem.get 0 j = s.mem.get 0 j)) ∧
     (Table.wf 0 i.patches = true → ∀ p, t.dev.patches.get 0 p = s.dev.patches.get 0 p + i.patches.get 0 p) ∧
     t.ctxAt ctx = { i.regs with
       qentries := (s.ctxAt ctx).qentries, scratch := (s.ctxAt ctx).scratch, tiles := (s.ctxAt ctx).tiles } ∧
     ((i.chains.map (fun x => x.1)).Nodup → ∀ x ∈ i.chains, ∀ sel, sel < 3 →
       (let old := (s.frontAt x.1).chain.get [] sel
        let new := (t.frontAt x.1).chain.get [] sel
        let mine := (x.2.chain.get [] sel).filter (fun c => i.regions.any (fun e => e.1 == regionKey c.ctx c.region))
        (t.frontAt x.1).seqFor ctx sel = x.2.seq.get 0 sel ∧ new.take old.length = old ∧
        (new.drop old.length).map (fun c => (c.raw, c.region, c.pos, c.done, c.label)) =
          mine.map (fun c => (c.raw, c.region, c.pos, c.done, c.label)) ∧
        ∀ c ∈ new.drop old.length, c.ctx = ctx)))

/-! ## The module -/

namespace Sys2Proof.Claims

/-- The state after module reset: no CR, no region, no translation, no listed memory; its clocks run. -/
def cold (s t : State) : Prop :=
  t.mem = [] ∧ t.fronts = [] ∧ t.cores = [] ∧ t.ctxs = [] ∧ t.regions = [] ∧ t.dev.vpm = [] ∧ t.dev.tickets = [] ∧ t.dev.views = [] ∧
  t.dev.saves = [] ∧ t.dev.pool = 0 ∧ t.dev.savePool = 0 ∧ t.dev.clockStopped = false ∧ t.dev.images = s.dev.images

end Sys2Proof.Claims

/-- R274, R275: module reset returns every state to its reset value but the flash; the boot ROM starts an image that it accepts, with its
measurement, the SHA-256 of the image, and otherwise enters recovery, in which RECOVER of an accepted image from a host window writes it
to flash and resets, and of another gives STATUS 2. (That status, that memory comes back empty and that the safe tier's images
outlast the reset are log entries 34, 35 and 3.) -/
def Sys2Proof.Claims.ModuleStarts : Prop :=
  (∀ (s : State),
    ∃ t, exec .moduleReset s = .next t ∧ cold s t ∧ t.dev.flash = s.dev.flash ∧
      (accepted s.dev.flash = true → t.dev.recovery = false ∧ t.dev.measurement = sha256 s.dev.flash ∧
        t.dev.secVersion = Config.imageVersion s.dev.flash) ∧
      (accepted s.dev.flash = false → t.dev.recovery = true)) ∧
  (∀ (s : State) (k : Nat) (v : BitVec 512), asked s k v 9 →
    (let image := s.arg.data.take (slotA1 v).toNat
     s.hostRange (slotA0 v).toNat (slotA1 v).toNat = true →
     (accepted image = true →
       ∃ t, exec .recover s = .next t ∧ cold s t ∧ t.dev.flash = image ∧ t.dev.recovery = false) ∧
     (accepted image = false →
       ∃ t, exec .recover s = .next t ∧ replied t k 2 0 ∧ t.dev.flash = s.dev.flash ∧ t.mem = s.mem ∧ sameHarts s t)))

/-- R277, R278, 04 R59, 10 R209: the thermal trip stops the clocks and is reported; the power cap lowers them and releases them. An
uncorrectable error, and a second correction at one word within 2^30 cycles, retires the lane or the tile, once, and is reported; a first
correction is counted. An uncorrectable byte of an HBM stack is poisoned. (The cycles are the model's own steps: log entry 14.) -/
def Sys2Proof.Claims.ModuleLimits : Prop :=
  (∀ (s : State),
    ∃ t, exec .thermalTrip s = .next t ∧ t.dev.clockStopped = true ∧ t.mem = s.mem ∧ sameHarts s t ∧
      t.dev.events.length + t.dev.msix = s.dev.events.length + s.dev.msix + 1) ∧
  (∀ (s : State), exec .powerCap s = .next { s with dev := { s.dev with clockLowered := s.arg.flag } }) ∧
  (∀ (s : State) (core lane word : Nat), s.arg.unit = .lane core lane word → core < 128 → lane < 64 → word < 2 ^ 24 →
    ∃ t, exec .sramError s = .next t ∧ t.mem = s.mem ∧ t.fronts = s.fronts ∧
      (let C := s.coreAt core
       let D := t.coreAt core
       D.lanemap = (if C.persistent s.cycle lane word s.arg.flag then C.lanemap ||| (1#64 <<< lane) else C.lanemap) ∧
       D.corrected.get 0 lane = C.corrected.get 0 lane + (if s.arg.flag then 0 else 1) ∧ D.tiles = C.tiles ∧
       D.lastError = if s.arg.flag then C.lastError else (C.correct s.cycle lane word).lastError)) ∧
  (∀ (s : State) (core tile word : Nat), s.arg.unit = .tile core tile word → core < 128 → tile < 8 → word < 2 ^ 24 →
    ∃ t, exec .sramError s = .next t ∧ t.mem = s.mem ∧ t.fronts = s.fronts ∧
      (let C := s.coreAt core
       let T := C.tiles.get {} tile
       let U := (t.coreAt core).tiles.get {} tile
       U.retired = (T.retired || C.persistent s.cycle (64 + tile) word s.arg.flag) ∧
       (T.retired = false → U.retired = true → U.cells = 0 ∧ U.st = .off) ∧ (U.retired = false → U = T) ∧
       (t.coreAt core).lanemap = C.lanemap ∧
       (t.coreAt core).lastError = if s.arg.flag then C.lastError else (C.correct s.cycle (64 + tile) word).lastError)) ∧
  (∀ (s : State) (addr : Nat), s.arg.unit = .hbm addr →
    ∃ t, exec .sramError s = .next t ∧ t.mem = s.mem ∧ sameHarts s t ∧
      (s.arg.flag = true → t.poisoned addr 1 = true) ∧
      (s.arg.flag = false →
        t.dev.corrected.get 0 (Config.hbmRow addr) = s.dev.corrected.get 0 (Config.hbmRow addr) + 1 ∧ t.dev.poison = s.dev.poison))

/-- R278: which error of a slice or tile is persistent: an uncorrectable one, and a correction at a word whose last correction, of the same slice
and word, lies at most 2^30 cycles back. (The cycles are the model's own steps: log entry 14.) -/
def Sys2Proof.Claims.PersistentErrors : Prop :=
  ∀ (C : Core) (now slice word : Nat), word < 2 ^ 24 →
    C.persistent now slice word true = true ∧
    (C.lastError.get 0 (2 ^ 24 * slice + word) = 0 → C.persistent now slice word false = false) ∧
    (∀ later, now ≤ later → ((C.correct now slice word).persistent later slice word false = true ↔ later - now ≤ 2 ^ 30)) ∧
    (∀ later other w fatal, w < 2 ^ 24 → (other ≠ slice ∨ w ≠ word) →
      (C.correct now slice word).persistent later other w fatal = C.persistent later other w fatal)

/-! ## Writes of state registers -/

namespace Sys2Proof.Claims

/-- SWR and the steps that write a state register: the state number and the value written. -/
def writerForm (i : Instr) (s : State) : Option (Nat × Word) :=
  match i with
  | .swr n a d => if s.regs.emptyX a || s.regs.emptyX d then none else some (n.toNat, s.regs.getX a)
  | .lanemapWrite => some (0x105, s.arg.val)
  | .lpartWrite => some (0x106, s.arg.val)
  | .vpmctlWrite => some (0x109, s.arg.val)
  | .swdWrite => some (0x80 + s.arg.sel % 64, s.arg.val)
  | .radWrite => some (0x009, s.arg.val)
  | .frmWrite => some (0x005, s.arg.val)
  | .kvblkWrite => some (0x00F, s.arg.val)
  | .ctxRootWrite => some (0x107, s.arg.val)
  | .contextRegisterWrite => if [0x100, 0x108, 0x10A, 0x10B].contains s.arg.sel then some (s.arg.sel, s.arg.val) else none
  | .stateRegisterWrite => if [0x004, 0x006, 0x007, 0x00A, 0x014, 0x015].contains s.arg.sel then some (s.arg.sel, s.arg.val) else none
  | _ => none

end Sys2Proof.Claims

/-- R58, R59, R66, R90, R126, R129, R137, R217, R242, R296: what a write of each state register leaves, by SWR or as a step of its own. A plain
register reads as the writable bits of the value. `rad` takes 1 to 16, and 16 for any other value; `frm` keeps its value where the new one is
110 or 111; a set bit of `lanemap` stays; `lpart` keeps its value where the new split would take a lane that a front holds; `vpmctl` keeps
its values where a guard refuses the new ones; a descriptor keeps its value where the write is refused.
(That every hart slot has a `rad` that reads back is the model's choice, log entry 64.) -/
def Obligations.StateWriteRules : Prop :=
  ∀ (i : Instr) (s : State) (n : Nat) (v old : Word), writerForm i s = some (n, v) → mayRead s n old → s.hart.buf = [] →
    ∃ t, exec i s = .next t ∧ t.mem = s.mem ∧ t.hart.priv = s.hart.priv ∧
      (∀ k, plainMask n = some k → t.readState n = some (v &&& k)) ∧
      (n = 0x005 → t.regs.frm = if v.extractLsb' 0 3 = 6 ∨ v.extractLsb' 0 3 = 7 then s.regs.frm else v.extractLsb' 0 3) ∧
      (n = 0x009 →
        t.regs.rad.toNat =
          if 1 ≤ (v.extractLsb' 0 5).toNat ∧ (v.extractLsb' 0 5).toNat ≤ 16 then (v.extractLsb' 0 5).toNat else 16) ∧
      (n = 0x105 → t.core.lanemap = s.core.lanemap ||| v) ∧
      (n = 0x106 → t.core.lpart = if s.splitKeeps s.coreNo (v.extractLsb' 0 2).toNat then v.extractLsb' 0 2 else s.core.lpart) ∧
      (n = 0x107 → (t.ctxAt s.ctx).root = v.extractLsb' 12 28) ∧
      (n = 0x109 →
        (t.dev.pool, t.dev.savePool) =
          if s.vpmctlMay (v.extractLsb' 0 11).toNat (v.extractLsb' 11 11).toNat then
            ((v.extractLsb' 0 11).toNat, (v.extractLsb' 11 11).toNat)
          else (s.dev.pool, s.dev.savePool)) ∧
      (∀ k, 0x80 ≤ n → n < 0xC0 → s.run.swatches[n - 0x80]? = some k →
        t.swatchSeen k = if swatchRefused (s.swatchSeen k) v then s.swatchSeen k else (s.swatchSeen k).ofWord v)

/-! ## Decoding -/

/-- R280, R283-R304: every well-formed instruction that has an encoding is what its bytes decode to, whatever follows them. -/
def Obligations.EncodingRoundTrip : Prop :=
  ∀ (i : Instr) (rest : List Byte), i.wf = true → (encodeBits i).isSome = true → decode (encode i ++ rest) = .ok (i, rest)

/-- The words that the spec's entries write out decode to their instructions, one of each family, and a halfword of zeros and a reserved
major opcode decode to none. -/
def Obligations.WordsDecode : Prop :=
  let reads (n : Nat) (w : Word) (i : Instr) : Prop := decode (bytesOf n w) = .ok (i, [])
  let none_ (n : Nat) (w : Word) : Prop := decode (bytesOf n w) = .error (.notAnInstruction w)
  reads 4 0x05188805 (.min false false 6 4 8) ∧ reads 4 0x029CC509 (.rem false false 7 6 5) ∧
  reads 4 0x0004C515 (.ori 1 6 5) ∧ reads 4 0x020C3835 (.st 8 false 3 1 24) ∧ reads 4 0x302CCA3D (.cas false false true 11 6 10) ∧
  reads 4 0x0218A961 (.idle false false 6 5 9) ∧ reads 4 0x403CC065 (.swr 0x00F 6 0) ∧ reads 4 0x0080C069 (.join false 6 0) ∧
  reads 4 0x0180A46D (.vloop false 5 4) ∧ reads 4 0x000C0071 (.setvt 3) ∧ reads 4 0x00104975 (.waitv false false false false 4 2 9) ∧
  reads 4 0x0180A079 (.viewdrop false 5) ∧ reads 4 0x001CC87D (.specb false false 7 6 8) ∧
  reads 4 0x0011ACC5 (.sgath false false false 4 13 12) ∧ reads 4 0x0000A1B5 (.vldq false false false 0 5 1) ∧
  reads 4 0x02A90CBD (.vrank false false false false 10 8 12) ∧ reads 4 0x05802A91 (.vpopc false 1 10) ∧
  reads 4 0x02082399 (.vfmaVr false false false 2 1 3) ∧ reads 4 0x0108208D (.vcmp false false false 2 2 1 0) ∧
  reads 8 0x0000000509000123 (.tld 1 9 5) ∧ reads 8 0x000000000000000B .tzero0 ∧ reads 2 0x08A4 (.cVmul 1 2) ∧
  none_ 2 0x0000 ∧ none_ 4 0xFFFFFFFD

/-! ## The whole machine -/

/-- Every instruction and every step of the device answers a next state from every state, and so does every step of the machine: there is no
fault and no refusal. (The machine's own turn when its agenda is empty is the model's choice, log entry 4.) -/
def Obligations.EverythingAnswers : Prop :=
  (∀ (i : Instr) (s : State), Answers (exec i s)) ∧ (∀ s : State, Answers (step s))

/-- Every step keeps global memory in its canonical form. -/
def Obligations.StepKeepsMemory : Prop :=
  ∀ s t : State, s.MemOk → step s = .next t → t.MemOk

/-- What R26, R53, R58, R59, R126, R129, R168, R242 and R267 give for module reset: no budgets, no retired lane, no covered pool and no save
pool, no translation, no handler, no sequence number and no window in force; memory is canonical and no CR runs. (That an
unlisted byte reads 0 is the model's choice, log entry 3.) -/
def Obligations.ResetState : Prop :=
  (let s := State.reset
   s.MemOk ∧ (∀ k, s.mem.get 0 k = 0) ∧
   (∀ f, (s.frontAt f).run = none ∧ (∀ e, (s.frontAt f).seq.get 0 e = 0)) ∧
   (∀ c, (s.coreAt c).lanemap = 0) ∧
   (∀ c, let C := s.ctxAt c
     C.tvec = 0 ∧ C.mixtrap = false ∧ C.stallmax = 0 ∧ C.frec = 0 ∧ C.root = 0 ∧ C.qentries = 0 ∧ C.scratch = 0 ∧ C.tiles = 0) ∧
   (∀ g, (s.dev.vpm.get 0 g).getLsbD 23 = false) ∧ s.dev.pool = 0 ∧ s.dev.savePool = 0 ∧ s.poolFree = 0 ∧ s.dev.hctx = 0 ∧
   (∀ w, (s.dev.hwbase.get 0 w).getLsbD 0 = false) ∧ s.regions = [] ∧ s.dev.views = [] ∧ s.dev.tickets = [])

namespace Sys2Proof.Claims

/-- The next step is a turn of the hart of front `f` and slot `sl`, which nothing keeps from its next instruction: `b` is the state at the
beginning of the turn, and `u` the state in which the hart performs it. -/
def nextTurn (s : State) (f : Nat) (sl : Slot) (late : Bool) (ahead : List Coming) (b u : State) : Prop :=
  s.dev.clockStopped = false ∧ f < 256 ∧ ({ s with cycle := s.cycle + 1 } : State).urgent = none ∧
  (∃ ts, s.agenda = .hart f sl late ahead :: ts ∧ b = { s with cycle := s.cycle + 1, agenda := ts }) ∧
  u = { b.looking ahead with fid := f, slot := sl, late := late } ∧
  u.stopDue f = false ∧ u.abortDue f = false ∧ u.asyncDue f sl = false ∧ u.ready f sl = true

/-- No other hart's leases, and no store that waits in another front's store queue, stand in the way of the turn of a hart that leads
from `b` to `t` (04 R65, R75). -/
abbrev unopposed (b t : State) (f : Nat) (sl : Slot) : Prop := b.obstacle t (fun g => g == hartAgent f sl) = none

end Sys2Proof.Claims

/-- R281, R304, R280: what the hart's fetch finds: the instruction that the halfwords at its pc decode to; where they decode to none the hart
traps ILLEGAL with their bits, and where a halfword cannot be fetched it traps with the cause and that halfword's address, at the
instruction. A step in which it is the hart's turn performs what it fetched, and then what every step brings about of itself. -/
def Obligations.StepRunsDecoded : Prop :=
  (∀ (s : State) (b bs rest : List Byte) (i : Instr), s.fetchHalves 1 s.regs.pc.toNat = .ok b →
    s.fetchHalves (halvesOf (b.headD 0)) s.regs.pc.toNat = .ok bs → decode bs = .ok (i, rest) → s.fetch = .instr i) ∧
  (∀ (s b u t : State) (f : Nat) (sl : Slot) (late : Bool) (ahead : List Coming) (i : Instr), nextTurn s f sl late ahead b u → u.fetch = .instr i →
    exec i u = .next t → unopposed b (afterStep t) f sl → step s = .next (afterStep t)) ∧
  (∀ (u : State),
    (∀ bits, u.fetch = .bad bits →
      exec .notAnInstruction u = .next (takeTrap u 0x01 bits.toNat u.regs.pc false)) ∧
    (∀ c va, u.fetch = .fault c va → exec .fetchFault u = .next (takeTrap u c va u.regs.pc false))) ∧
  (∀ (s b u t : State) (f : Nat) (sl : Slot) (late : Bool) (ahead : List Coming) (bits : Word), nextTurn s f sl late ahead b u → u.fetch = .bad bits →
    exec .notAnInstruction u = .next t → unopposed b (afterStep t) f sl → step s = .next (afterStep t)) ∧
  (∀ (s b u t : State) (f : Nat) (sl : Slot) (late : Bool) (ahead : List Coming) (c va : Nat), nextTurn s f sl late ahead b u → u.fetch = .fault c va →
    exec .fetchFault u = .next t → unopposed b (afterStep t) f sl → step s = .next (afterStep t))

/-! ## Floating-point and tapered arithmetic -/

namespace Sys2Proof.Claims

/-- The number that a value is; a NaN and an infinity are none. -/
def valueOf : Fp → Option ℚ
  | .fin n m e => some ((if n then -1 else 1) * m * 2 ^ e)
  | _ => none

/-- The four binary formats (05 R82, R84): width, fraction bits, exponent bias, canonical quiet NaN. -/
def formats : List (Fmt × Nat × Nat × Int × Nat) :=
  [(f64, 64, 52, 1023, 0x7FF8000000000000), (f32, 32, 23, 127, 0x7FC00000), (f16, 16, 10, 15, 0x7E00), (bf16, 16, 7, 127, 0x7FC0)]

/-- A binary format of the machine. -/
abbrev isFormat (f : Fmt) : Prop := f = f64 ∨ f = f32 ∨ f = f16 ∨ f = bf16

/-- What a rounding mode asks of a magnitude: the nearer neighbour, a tie going to the even pattern or away from zero; or the neighbour on
one side (05 R90). -/
inductive Side where
  | tieEven | tieAway | toZero | fromZero
  deriving DecidableEq, Repr

/-- A rounding mode, at a number of a sign. -/
def side (rm : Nat) (neg : Bool) : Side :=
  match rm with
  | 0 => .tieEven
  | 1 => .toZero
  | 2 => if neg then .fromZero else .toZero
  | 3 => if neg then .toZero else .fromZero
  | _ => .tieAway

/-- Of the magnitudes that are there, `y` is what magnitude `a` rounds to; `even` says that the pattern of `y` is. -/
def Nearest (sd : Side) (there : ℚ → Prop) (a y : ℚ) (even : Prop) : Prop :=
  there y ∧
  match sd with
  | .tieEven => ∀ z, there z → z = y ∨ |a - y| < |a - z| ∨ (|a - y| = |a - z| ∧ even)
  | .tieAway => ∀ z, there z → z = y ∨ |a - y| < |a - z| ∨ (|a - y| = |a - z| ∧ z < y)
  | .toZero => y ≤ a ∧ ∀ z, there z → z ≤ a → z ≤ y
  | .fromZero => a ≤ y ∧ ∀ z, there z → a ≤ z → y ≤ z

/-- Rounded to the format's precision with no bound on the exponent, a magnitude exceeds every finite value (IEEE 754 overflow). -/
def Overflows (f : Fmt) (sd : Side) (a : ℚ) : Prop :=
  match sd with
  | .toZero => 2 ^ (f.bias + 1) ≤ a
  | .fromZero => (2 ^ (f.mb + 1) - 1) * 2 ^ (f.bias - f.mb) < a
  | _ => (2 ^ (f.mb + 2) - 1) * 2 ^ (f.bias - f.mb - 1) ≤ a

/-- Rounded so, a magnitude is below the least normal value: tininess after rounding (05 R84). -/
def Tiny (f : Fmt) (sd : Side) (a : ℚ) : Prop :=
  match sd with
  | .toZero => a < 2 ^ (1 - f.bias)
  | .fromZero => a ≤ 2 ^ (1 - f.bias) - 2 ^ (-f.bias - f.mb)
  | _ => a < 2 ^ (1 - f.bias) - 2 ^ (-f.bias - f.mb - 1)

/-- The sign bit of a pattern. -/
def signOf (w : Nat) (neg : Bool) : Nat := if neg then 2 ^ (w - 1) else 0

/-- The pattern of an infinity. -/
def infOf (f : Fmt) (neg : Bool) : Nat := signOf f.width neg + (2 ^ f.eb - 1) * 2 ^ f.mb

/-- A pattern and its flags are the exact number `v` rounded once (05 R84, R89, R94): zero takes the sign given for it and raises nothing;
an overflow gives the infinity or the greatest finite value, with OF and NX; any other result is the neighbour that the mode
asks for, with NX where it is not `v`, and UF where it is tiny too. -/
def Rounded (f : Fmt) (rm : Nat) (neg : Bool) (v : ℚ) (r : Nat × Flags) : Prop :=
  let sd := side rm (decide (v < 0))
  let a := |v|
  let sign := signOf f.width (decide (v < 0))
  (v = 0 → r = (signOf f.width neg, 0)) ∧
  (v ≠ 0 → Overflows f sd a →
    r = (sign + ((2 ^ f.eb - 1) * 2 ^ f.mb - if sd = .toZero then 1 else 0), 5)) ∧
  (v ≠ 0 → ¬ Overflows f sd a →
    ∃ (p : Nat) (y : ℚ), p < 2 ^ (f.width - 1) ∧ valueOf (f.decode p) = some y ∧ r.1 = sign + p ∧
      Nearest sd (fun z => ∃ q, q < 2 ^ (f.width - 1) ∧ valueOf (f.decode q) = some z) a y (p % 2 = 0) ∧
      (y = a → r.2 = 0) ∧ (y ≠ a → Tiny f sd a → r.2 = 3) ∧ (y ≠ a → ¬ Tiny f sd a → r.2 = 1))

/-- The sign of an exact zero sum: that of both terms, or, where they differ, minus under RDN alone (17 R344). -/
def zeroSign (rm : Nat) (n1 n2 : Bool) : Bool := if n1 = n2 then n1 else rm == 2

/-- The flags of operands of which some are NaNs: NV for a signalling one. -/
def nanFlags (l : List Fp) : Flags := if l.contains (.nan true) then 16 else 0

/-- R82, R84: what a pattern of a binary format is. -/
def PatternsRead : Prop :=
  ∀ row ∈ formats, ∀ p : Nat, p < 2 ^ row.2.1 →
    (let f := row.1; let w := row.2.1; let t := row.2.2.1; let b := row.2.2.2.1
     let E := p / 2 ^ t % 2 ^ (w - 1 - t); let T := p % 2 ^ t; let neg := decide (2 ^ (w - 1) ≤ p)
     f.width = w ∧ f.mb = t ∧ f.bias = b ∧ f.canon = row.2.2.2.2 ∧
     (E = 2 ^ (w - 1 - t) - 1 → f.decode p = if T = 0 then .inf neg else .nan (decide (T < 2 ^ (t - 1)))) ∧
     (E ≠ 2 ^ (w - 1 - t) - 1 →
       ∃ m e, f.decode p = .fin neg m e ∧
         (m : ℚ) * 2 ^ e = if E = 0 then (T : ℚ) * 2 ^ (1 - b - t) else (2 ^ t + T : ℚ) * 2 ^ (E - b - t)))

/-- R84, R344, R349, R350, R352, R354: sums, products, quotients, square roots and multiply-adds of numbers are the exact results rounded
once. -/
def FiniteArithmetic : Prop :=
  ∀ (f : Fmt) (rm x y z : Nat) (n1 n2 n3 : Bool) (m1 m2 m3 : Nat) (e1 e2 e3 : Int) (u v w : ℚ), isFormat f → rm ≤ 4 →
    f.decode x = .fin n1 m1 e1 → f.decode y = .fin n2 m2 e2 → f.decode z = .fin n3 m3 e3 →
    valueOf (f.decode x) = some u → valueOf (f.decode y) = some v → valueOf (f.decode z) = some w →
    Rounded f rm (zeroSign rm n1 n2) (u + v) (f.add rm x y) ∧
    Rounded f rm (zeroSign rm n1 (!n2)) (u - v) (f.sub rm x y) ∧
    Rounded f rm (n1 != n2) (u * v) (f.mul rm x y) ∧
    Rounded f rm (zeroSign rm (n1 != n2) n3) (u * v + w) (f.fma rm x y z) ∧
    (v ≠ 0 → Rounded f rm (n1 != n2) (u / v) (f.div rm x y)) ∧
    (v = 0 → f.div rm x y = if u = 0 then (f.canon, 16) else (infOf f (n1 != n2), 8)) ∧
    (u = 0 → f.sqrt rm x = (signOf f.width n1, 0)) ∧
    (u < 0 → f.sqrt rm x = (f.canon, 16)) ∧
    (0 < u → ∃ q r, f.decode (f.sqrt rm x).1 = .fin false q r ∧ (f.sqrt rm x).1 < 2 ^ (f.width - 1) ∧
      (let a : ℚ := q * 2 ^ r
       (a * a = u → (f.sqrt rm x).2 = 0) ∧ (a * a ≠ u → (f.sqrt rm x).2 = 1) ∧
       ∀ (p : Nat) (b : ℚ), p < 2 ^ (f.width - 1) → valueOf (f.decode p) = some b →
         match side rm false with
         | .toZero => a * a ≤ u ∧ (b * b ≤ u → b ≤ a)
         | .fromZero => u ≤ a * a ∧ (u ≤ b * b → a ≤ b)
         | _ => (b < a → (a + b) / 2 * ((a + b) / 2) ≤ u) ∧ (a < b → u ≤ (a + b) / 2 * ((a + b) / 2))))

/-- R84, R344, R350, R352: NaNs and infinities in sums, products and multiply-adds. -/
def SpecialArithmetic : Prop :=
  ∀ (f : Fmt) (rm x y z : Nat), isFormat f → rm ≤ 4 →
    (let a := f.decode x; let b := f.decode y; let c := f.decode z
     let product (n k : Bool) : Prop :=
       f.mul rm x y = (infOf f (n != k), 0) ∧
       f.fma rm x y z = match c with
         | .nan s => (f.canon, if s then 16 else 0)
         | .inf j => if j = (n != k) then (infOf f j, 0) else (f.canon, 16)
         | .fin .. => (infOf f (n != k), 0)
     let invalid : Prop := f.mul rm x y = (f.canon, 16) ∧ f.fma rm x y z = (f.canon, 16)
     (a.isNan = true ∨ b.isNan = true →
       f.add rm x y = (f.canon, nanFlags [a, b]) ∧ f.mul rm x y = (f.canon, nanFlags [a, b]) ∧
       f.fma rm x y z = (f.canon, nanFlags [a, b, c])) ∧
     (∀ n k, a = .inf n → b = .inf k →
       f.add rm x y = (if n = k then (infOf f n, 0) else (f.canon, 16)) ∧ product n k) ∧
     (∀ n k m e, a = .inf n → b = .fin k m e → f.add rm x y = (infOf f n, 0) ∧ if m = 0 then invalid else product n k) ∧
     (∀ n k m e, a = .fin k m e → b = .inf n → f.add rm x y = (infOf f n, 0) ∧ if m = 0 then invalid else product k n) ∧
     (∀ n k m1 e1 m2 e2, a = .fin n m1 e1 → b = .fin k m2 e2 →
       (∀ s, c = .nan s → f.fma rm x y z = (f.canon, if s then 16 else 0)) ∧
       (∀ j, c = .inf j → f.fma rm x y z = (infOf f j, 0))))

/-- R84, R346, R351: comparisons, and the smaller and the greater of two operands. -/
def OrderArithmetic : Prop :=
  ∀ (f : Fmt) (x y : Nat), isFormat f → x < 2 ^ f.width → y < 2 ^ f.width →
    (let a := f.decode x; let b := f.decode y
     (a.isNan = true ∨ b.isNan = true →
       f.cmp 0 x y = (false, nanFlags [a, b]) ∧ f.cmp 1 x y = (false, 16) ∧ f.cmp 2 x y = (false, 16) ∧
       f.cmp 3 x y = (true, nanFlags [a, b])) ∧
     (∀ u v, valueOf a = some u → valueOf b = some v →
       f.cmp 0 x y = (decide (u = v), 0) ∧ f.cmp 1 x y = (decide (u < v), 0) ∧ f.cmp 2 x y = (decide (u ≤ v), 0) ∧
       f.cmp 3 x y = (false, 0) ∧
       (u < v → f.minMax false x y = (x, 0) ∧ f.minMax false y x = (x, 0) ∧ f.minMax true x y = (y, 0) ∧
         f.minMax true y x = (y, 0)) ∧
       (u = 0 → v = 0 → a.neg = true → b.neg = false → f.minMax false x y = (x, 0) ∧ f.minMax false y x = (x, 0) ∧
         f.minMax true x y = (y, 0) ∧ f.minMax true y x = (y, 0))) ∧
     (∀ s, a = .nan s → b.isNan = false → ∀ m, f.minMax m x y = (y, if s then 16 else 0) ∧ f.minMax m y x = (y, if s then 16 else 0)) ∧
     (a.isNan = true → b.isNan = true → ∀ m, f.minMax m x y = (f.canon, nanFlags [a, b])))

/-- A positive tapered pattern of `n` bits read from its top (05 R85). -/
def taperValue (n p : Nat) : ℚ :=
  let b := (List.range (n - 1)).map (fun j => p.testBit (n - 2 - j))
  let run := (b.takeWhile (fun x => x == b.headD false)).length
  let k : Int := if b.headD false then run - 1 else -run
  let rest := b.drop (run + 1)
  let e : Int := if rest.headD false then 1 else 0
  let f : ℚ := ((rest.drop 1).zipIdx.map (fun x => if x.1 then (1 : ℚ) / 2 ^ (x.2 + 1) else 0)).sum
  4 ^ k * 2 ^ e * (1 + f)

/-- R85, R86: what a pattern of T8 or T6 is; 0x40 is 1, 0xB8 is -1.5. -/
def TapersRead : Prop :=
  ∀ n, n = 8 ∨ n = 6 →
    taperDecode n 0 = .fin false 0 0 ∧ taperDecode n (2 ^ (n - 1)) = .nan false ∧
    (∀ p, 0 < p → p < 2 ^ (n - 1) → valueOf (taperDecode n p) = some (taperValue n p) ∧
      valueOf (taperDecode n (2 ^ n - p)) = some (-taperValue n p)) ∧
    valueOf (taperDecode 8 0x40) = some 1 ∧ valueOf (taperDecode 8 0xB8) = some (-3 / 2)

/-- A number converted into a tapered format (05 R87). -/
def RoundedTaper (n rm : Nat) (v : ℚ) (r : Nat × Flags) : Prop :=
  let sd := side rm (decide (v < 0))
  let a := |v|
  let signed (p : Nat) : Nat := if v < 0 then 2 ^ n - p else p
  (v = 0 → r = (0, 0)) ∧
  ((4 : ℚ) ^ (n - 2) < a → r = (signed (2 ^ (n - 1) - 1), 5)) ∧
  (v ≠ 0 → a < 1 / (4 : ℚ) ^ (n - 2) → r = (signed 1, 3)) ∧
  (1 / (4 : ℚ) ^ (n - 2) ≤ a → a ≤ (4 : ℚ) ^ (n - 2) →
    ∃ (p : Nat) (y : ℚ), 0 < p ∧ p < 2 ^ (n - 1) ∧ valueOf (taperDecode n p) = some y ∧ r.1 = signed p ∧
      Nearest sd (fun z => ∃ q, 0 < q ∧ q < 2 ^ (n - 1) ∧ valueOf (taperDecode n q) = some z) a y (p % 2 = 0) ∧
      (y = a → r.2 = 0) ∧ (y ≠ a → r.2 = 1))

/-- A number converted into an integer of `w` bits (05 R89): rounded; a value out of range gives the nearer bound with NV alone. -/
def RoundedInt (signed : Bool) (w rm : Nat) (v : ℚ) (r : Nat × Flags) : Prop :=
  let lo : Int := if signed then -(2 ^ (w - 1)) else 0
  let hi : Int := if signed then 2 ^ (w - 1) - 1 else 2 ^ w - 1
  ∃ n : Nat, Nearest (side rm (decide (v < 0))) (fun z => ∃ k : Nat, z = k) |v| n (n % 2 = 0) ∧
    (let i : Int := if v < 0 then -n else n
     r = if i < lo then ((lo % 2 ^ w).toNat, 16) else if hi < i then ((hi % 2 ^ w).toNat, 16)
       else ((i % 2 ^ w).toNat, if (n : ℚ) = |v| then 0 else 1))

/-- What a source of a conversion is (05 R85, R89). -/
def sourceOf (c : CvtSrc) (p : Nat) : Fp :=
  match c with
  | .float f => f.decode p
  | .taper n => taperDecode n p
  | .int sg w =>
    let k : Int := if sg then (BitVec.ofNat w p).toInt else (BitVec.ofNat w p).toNat
    .fin (decide (k < 0)) k.natAbs 0

/-- R86, R87, R89: conversions between the formats. -/
def ConversionArithmetic : Prop :=
  ∀ (k rm p : Nat) (c : CvtSrc), cvtSrc k = some c → rm ≤ 4 →
    (let a := sourceOf c p
     (∀ f, isFormat f →
       (∀ n m e, a = .fin n m e → ∀ v, valueOf a = some v → Rounded f rm n v (c.convert (.float f) rm p)) ∧
       (∀ n, a = .inf n → c.convert (.float f) rm p = (infOf f n, 0)) ∧
       (∀ s, a = .nan s → c.convert (.float f) rm p = (f.canon, if s then 16 else 0))) ∧
     (∀ n, n = 8 ∨ n = 6 →
       (c = .taper n → c.convert (.taper n) rm p = (p % 2 ^ n, 0)) ∧
       (c ≠ .taper n →
         (∀ v, valueOf a = some v → RoundedTaper n rm v (c.convert (.taper n) rm p)) ∧
         (valueOf a = none → c.convert (.taper n) rm p = (2 ^ (n - 1), 16)))) ∧
     (∀ sg w, w = 8 ∨ w = 16 ∨ w = 32 ∨ w = 64 →
       (∀ g b, c = .int g b → c.convert (.int sg w) rm p =
         ((BitVec.ofInt w (if g then (BitVec.ofNat b p).toInt else (BitVec.ofNat b p).toNat)).toNat, 0)) ∧
       ((∀ g b, c ≠ .int g b) →
         (∀ v, valueOf a = some v → RoundedInt sg w rm v (c.convert (.int sg w) rm p)) ∧
         (∀ s, a = .nan s → c.convert (.int sg w) rm p = (0, 16)) ∧
         (∀ n, a = .inf n → c.convert (.int sg w) rm p =
           ((if sg then (if n then 2 ^ (w - 1) else 2 ^ (w - 1) - 1) else if n then 0 else 2 ^ w - 1), 16)))))

/-- Element `k` of a slice of elements of `w` bits (04 R56). -/
def sliceElem (x w k : Nat) : Nat := x / 2 ^ (w * k) % 2 ^ w

/-- An operand element of an outer product (10 R198): BF16, F16, T8, T6. -/
def operandOf (fmt p : Nat) : Fp :=
  if fmt = 0 then bf16.decode p else if fmt = 1 then f16.decode p else if fmt = 2 then taperDecode 8 p else taperDecode 6 p

/-- The product of two values is a NaN. -/
def NanProduct (x y : Fp) : Prop :=
  x.isNan = true ∨ y.isNan = true ∨ ((∃ n, x = .inf n) ∧ valueOf y = some 0) ∨ (valueOf x = some 0 ∧ ∃ n, y = .inf n)

/-- The product of two values is an infinity of a sign. -/
def InfProduct (x y : Fp) (n : Bool) : Prop :=
  ¬ NanProduct x y ∧ (valueOf x = none ∨ valueOf y = none) ∧ (x.neg != y.neg) = n

/-- R96, R202: a cell of an outer product, of the formats that are no integers: the exact sum of products, added with one rounding to
nearest; a NaN where an operand is one, or where infinities meet a zero or each other. (The sign of a zero sum is the model's
choice, log entry 66, and stays unstated.) -/
def OuterProductCells : Prop :=
  ∀ (fmt rows cols a b i j : Nat) (bits : BitVec 524288), fmt < 4 → i < rows → i < 128 → j < cols → j < 128 →
    (let d := if fmt ≤ 1 then 1 else if fmt = 3 then 8 else 4
     let w := if fmt ≤ 1 then 16 else if fmt = 3 then 6 else 8
     let A (q : Nat) := operandOf fmt (sliceElem a w (i * d + q))
     let B (q : Nat) := operandOf fmt (sliceElem b w (j * d + q))
     let T := f32.decode (cellAt bits i j)
     let r := mopaStep fmt rows cols a b bits
     let cell := cellAt r.1 i j
     let anyNan := T.isNan = true ∨ ∃ q, q < d ∧ NanProduct (A q) (B q)
     let infinite (n : Bool) := T = .inf n ∨ ∃ q, q < d ∧ InfProduct (A q) (B q) n
     (∀ (t : ℚ) (x y : Nat → ℚ), valueOf T = some t → (∀ q, q < d → valueOf (A q) = some (x q) ∧ valueOf (B q) = some (y q)) →
       ∃ neg fl, (128 * i + j, fl) ∈ r.2 ∧
         Rounded f32 0 neg (t + ((List.range d).map (fun q => x q * y q)).sum) (cell, fl)) ∧
     (anyNan → cell = 0x7FC00000) ∧
     (¬ anyNan → infinite true → infinite false → cell = 0x7FC00000 ∧ ∃ fl, (128 * i + j, fl) ∈ r.2 ∧ fl = 16) ∧
     (∀ n, ¬ anyNan → infinite n → ¬ infinite (!n) → cell = infOf f32 n ∧ (128 * i + j, 0) ∈ r.2))

/-- R96, R202: a cell of an integer outer product wraps at 32 bits; a cell outside the predicate stays, whatever its operands are. -/
def OuterProductBounds : Prop :=
  (∀ (rows cols a b i j : Nat) (bits : BitVec 524288), i < rows → i < 128 → j < cols → j < 128 →
    (let r := mopaStep 4 rows cols a b bits
     let s : Int := ((List.range 4).map (fun q =>
       (BitVec.ofNat 8 (sliceElem a 8 (i * 4 + q))).toInt * (BitVec.ofNat 8 (sliceElem b 8 (j * 4 + q))).toInt)).sum
     cellAt r.1 i j = (((cellAt bits i j : Int) + s) % 2 ^ 32).toNat ∧ (128 * i + j, 0) ∈ r.2)) ∧
  (∀ (fmt rows cols a b i j : Nat) (bits : BitVec 524288), i < 128 → j < 128 → ¬ (i < rows ∧ j < cols) →
    cellAt (mopaStep fmt rows cols a b bits).1 i j = cellAt bits i j ∧ (128 * i + j, 0) ∈ (mopaStep fmt rows cols a b bits).2)

/-- A scale of TSACC (10 R204): F32, or E8 (05 R98), of which 255 is a NaN. -/
def scaleOf (f32s : Bool) (p : Nat) : Fp :=
  if f32s then f32.decode p else if p % 256 = 255 then .nan false else .fin false 1 ((p % 256 : Nat) - 127)

/-- R204: a cell of TSACC: the exact product of the partial and its two scales, added with one rounding to nearest. -/
def ScaledCells : Prop :=
  ∀ (f32s : Bool) (rows cols a b i j : Nat) (U : Tile) (bits : BitVec 524288), i < 128 → j < 128 →
    (let r := scaleStep f32s rows cols a b U bits
     let p : Fp := if U.int then fpOfInt (BitVec.ofNat 32 (cellAt U.cells i j)).toInt else f32.decode (cellAt U.cells i j)
     let x := scaleOf f32s (sliceElem a 32 i)
     let y := scaleOf f32s (sliceElem b 32 j)
     let T := f32.decode (cellAt bits i j)
     (¬ (i < rows ∧ j < cols) → cellAt r.1 i j = cellAt bits i j) ∧
     (i < rows → j < cols →
       (∀ t u v z, valueOf T = some t → valueOf p = some u → valueOf x = some v → valueOf y = some z →
         ∃ neg fl, (128 * i + j, fl) ∈ r.2 ∧ Rounded f32 0 neg (t + u * v * z) (cellAt r.1 i j, fl)) ∧
       (T.isNan = true ∨ p.isNan = true ∨ x.isNan = true ∨ y.isNan = true → cellAt r.1 i j = 0x7FC00000)))

/-- R98, R99: VSCACC adds the exact product of an element and its scale to the old element with one rounding; NaNs, infinities and
invalid products as a multiply-add has them. -/
def ScaleArithmetic : Prop :=
  ∀ (e8 : Bool) (f : Fmt) (rm x y z : Nat), rm ≤ 4 →
    (let a := f32.decode x; let s := scaleOf (!e8) y; let c := f32.decode z
     let r := fpScale e8 f rm x y z
     (∀ u v w, valueOf a = some u → valueOf s = some v → valueOf c = some w →
       Rounded f32 rm (zeroSign rm (a.neg != s.neg) c.neg) (u * v + w) r) ∧
     (a.isNan = true ∨ s.isNan = true → r = (f32.canon, nanFlags [a, s, c])) ∧
     (a.isNan = false → s.isNan = false → NanProduct a s → r = (f32.canon, 16)) ∧
     (∀ n, InfProduct a s n → r = match c with
       | .nan g => (f32.canon, if g then 16 else 0)
       | .inf j => if j = n then (infOf f32 j, 0) else (f32.canon, 16)
       | .fin .. => (infOf f32 n, 0)) ∧
     (∀ u v, valueOf a = some u → valueOf s = some v →
       (∀ g, c = .nan g → r = (f32.canon, if g then 16 else 0)) ∧ (∀ j, c = .inf j → r = (infOf f32 j, 0))))

/-- R215: one block of a MATVEC: the exact sum of 32 products, of integers modulo 2^32, else rounded once to F32 to nearest; a NaN where an operand
is one, or where infinities meet a zero or each other. (The sign of a zero sum is the model's choice, log entry 66, and stays unstated.) -/
def BlockSums : Prop :=
  ∀ (fmt : Nat) (w x : List Nat), w.length = 32 → x.length = 32 →
    (let r := blockSum fmt w x
     let A (q : Nat) := if fmt = 0 then bf16.decode (w.getD q 0) else taperDecode 8 (w.getD q 0)
     let B (q : Nat) := if fmt = 0 then bf16.decode (x.getD q 0) else taperDecode 8 (x.getD q 0)
     let anyNan := ∃ q, q < 32 ∧ NanProduct (A q) (B q)
     let infinite (n : Bool) := ∃ q, q < 32 ∧ InfProduct (A q) (B q) n
     (fmt = 4 →
       (let s : Int := ((List.range 32).map (fun q => (BitVec.ofNat 8 (w.getD q 0)).toInt * (BitVec.ofNat 8 (x.getD q 0)).toInt)).sum
        r = ((s % 2 ^ 32).toNat, 0))) ∧
     (fmt ≠ 4 →
       (∀ u v : Nat → ℚ, (∀ q, q < 32 → valueOf (A q) = some (u q) ∧ valueOf (B q) = some (v q)) →
         ∃ neg, Rounded f32 0 neg ((List.range 32).map (fun q => u q * v q)).sum r) ∧
       (anyNan → r.1 = 0x7FC00000) ∧
       (¬ anyNan → infinite true → infinite false → r = (0x7FC00000, 16)) ∧
       (∀ n, ¬ anyNan → infinite n → ¬ infinite (!n) → r = (infOf f32 n, 0))))

/-- A value of a narrower format: a binary one or a tapered one. -/
def narrowValue (dst : CvtDst) (q : Nat) : Fp :=
  match dst with
  | .float f => f.decode q
  | .taper n => taperDecode n q
  | .int _ _ => .fin false 0 0

/-- A value converted into a narrower format to nearest (05 R87, R89). -/
def Narrowed (dst : CvtDst) (y : Fp) (r : Nat × Flags) : Prop :=
  match dst with
  | .float f =>
    (∀ n m e v, y = .fin n m e → valueOf y = some v → Rounded f 0 n v r) ∧ (∀ n, y = .inf n → r = (infOf f n, 0)) ∧
    (∀ g, y = .nan g → r = (f.canon, if g then 16 else 0))
  | .taper n => (∀ v, valueOf y = some v → RoundedTaper n 0 v r) ∧ (valueOf y = none → r = (2 ^ (n - 1), 16))
  | .int _ _ => True

/-- R180: an output of ROT: the sum, or with `minus` the difference, of two exact products rounded once to F32, and then to the format; a NaN and
an infinity as in a multiply-add; the flags are those of the two roundings. (The sign of a zero is not stated.) -/
def RotatedPairs : Prop :=
  ∀ (f : Fmt) (minus : Bool) (a c b d : Fp), f = f32 ∨ f = f16 ∨ f = bf16 →
    (let r := rotate f minus a c b d
     let sign (k : Bool) : Bool := k != minus
     (∀ u v w z, valueOf a = some u → valueOf c = some v → valueOf b = some w → valueOf d = some z →
       ∃ neg y g1 g2, Rounded f32 0 neg (if minus then u * v - w * z else u * v + w * z) (y, g1) ∧
         Narrowed (.float f) (f32.decode y) (r.1, g2) ∧ r.2 = g1 ||| g2) ∧
     (NanProduct a c ∨ NanProduct b d → r.1 = f.canon) ∧
     (∀ n k, InfProduct a c n → InfProduct b d k → r.1 = if n = sign k then infOf f n else f.canon) ∧
     (∀ n w z, InfProduct a c n → valueOf b = some w → valueOf d = some z → r.1 = infOf f n) ∧
     (∀ k u v, InfProduct b d k → valueOf a = some u → valueOf c = some v → r.1 = infOf f (sign k)))

/-- A pattern is the sum of two values rounded to F32 to nearest. -/
def SumOf (x y : Fp) (p : Nat) : Prop :=
  (∀ u v, valueOf x = some u → valueOf y = some v → ∃ fl, Rounded f32 0 (zeroSign 0 x.neg y.neg) (u + v) (p, fl)) ∧
  (x.isNan = true ∨ y.isNan = true → p = f32.canon) ∧
  (∀ n k, x = .inf n → y = .inf k → p = if n = k then infOf f32 n else f32.canon) ∧
  (∀ n v, x = .inf n → valueOf y = some v → p = infOf f32 n) ∧ (∀ n v, y = .inf n → valueOf x = some v → p = infOf f32 n)

/-- A value with the other sign. -/
def opposite : Fp → Fp
  | .nan g => .nan g
  | .inf n => .inf (!n)
  | .fin n m e => .fin (!n) m e

/-- The carry before element `i` of the EFB chain. -/
def carryBefore (c : CvtSrc) (dst : CvtDst) (k : Nat) (act : List Bool) (xs : List Nat) (i : Nat) : Nat :=
  ((act.zip xs).take i).foldl (fun k e => if e.1 then (chainStep c dst k e.2).2 else k) k

/-- R92: the EFB chain: an element and the carry are added, the sum is narrowed, and what the narrowing lost is the next carry, +0 where
the sum or the narrowed value is not finite; inactive elements take no part. (That an element's flags are those of converting the source
element itself is the model's reading, log entry 54.) -/
def ChainArithmetic : Prop :=
  (∀ (c : CvtSrc) (dst : CvtDst) (k p : Nat), narrowing c dst = true → (∀ f, dst = .float f → isFormat f) →
    (∀ n, dst = .taper n → n = 8 ∨ n = 6) →
    ∃ (y : Nat) (g : Flags), (let r := chainStep c dst k p
      let Y := f32.decode y
      let Q := narrowValue dst r.1.1
      SumOf (sourceOf c p) (f32.decode k) y ∧ Narrowed dst Y (r.1.1, g) ∧ (∃ q, Narrowed dst (sourceOf c p) (q, r.1.2)) ∧
      (valueOf Y ≠ none → valueOf Q ≠ none → SumOf Y (opposite Q) r.2) ∧ (valueOf Y = none ∨ valueOf Q = none → r.2 = 0))) ∧
  (∀ (c : CvtSrc) (dst : CvtDst) (k : Nat) (act : List Bool) (xs : List Nat), act.length = xs.length →
    (let at' (i : Nat) := (chainStep c dst (carryBefore c dst k act xs i) (xs.getD i 0)).1
     chain c dst 0 k act xs =
       ((List.range act.length).map (fun i => if act.getD i false then .put (at' i).1 else .idle),
        ((List.range act.length).filter (fun i => act.getD i false)).map (fun i => (i, (at' i).2)),
        carryBefore c dst k act xs act.length)))

/-- The flags of an exact result of VSF. -/
def exactly (f : Fmt) (v : ℚ) (r : Nat × Flags) : Prop := valueOf (f.decode r.1) = some v ∧ r.2 = 0

/-- R102: VSF. NaNs, infinities, zeros and negative operands as the table has them; the exact results and no flag where R102 lists them;
NX of every other finite operand; a sine or cosine beyond 2^16 between -1 and 1; and reciprocals and reciprocal square roots within 2 ulp
of F32 and 1 ulp of F16 and BF16, an ulp being the distance of the neighbours of the exact value (log entry 7). The bounds of the
transcendental functions are not stated. -/
def SpecialFunctions : Prop :=
  ∀ (f : Fmt) (fn x : Nat), f = f32 ∨ f = f16 ∨ f = bf16 → fn ≤ 8 →
    (let a := f.decode x
     let r := f.special fn x
     (∀ g, a = .nan g → r = (f.canon, if g then 16 else 0)) ∧
     (∀ n, a = .inf n →
       (fn = 0 → r = (if n then 0 else infOf f false, 0)) ∧
       (fn = 1 → r = if n then (f.canon, 16) else (infOf f false, 0)) ∧
       (fn = 2 → r = (signOf f.width n, 0)) ∧
       (fn = 3 → r = if n then (f.canon, 16) else (0, 0)) ∧
       (fn = 4 ∨ fn = 5 → r = (f.canon, 16)) ∧
       (fn = 6 ∨ fn = 8 → exactly f (if n then -1 else 1) r) ∧
       (fn = 7 → exactly f (if n then 0 else 1) r ∧ (n = true → r.1 = 0))) ∧
     (∀ u, valueOf a = some u →
       (u = 0 →
         (fn = 0 ∨ fn = 5 → exactly f 1 r) ∧ (fn = 1 → r = (infOf f true, 8)) ∧
         (fn = 2 ∨ fn = 3 → r = (infOf f a.neg, 8)) ∧ (fn = 4 ∨ fn = 6 ∨ fn = 8 → r = (signOf f.width a.neg, 0)) ∧
         (fn = 7 → exactly f (1 / 2) r)) ∧
       (u < 0 → fn = 1 ∨ fn = 3 → r = (f.canon, 16)) ∧
       (∀ (n : Int) (p : Nat), fn = 0 → u = n → p < 2 ^ (f.width - 1) → valueOf (f.decode p) = some (2 ^ n) → r = (p, 0)) ∧
       (∀ n : Int, fn = 1 → u = 2 ^ n → exactly f n r) ∧
       (∀ (n : Int) (v : ℚ) (p : Nat), fn = 2 → u ≠ 0 → |u| = 2 ^ n → v = 1 / u → p < 2 ^ f.width → valueOf (f.decode p) = some v → r = (p, 0)) ∧
       (∀ n : Int, fn = 3 → u = 2 ^ (2 * n) → exactly f (2 ^ (-n)) r) ∧
       (u ≠ 0 → 4 ≤ fn → r.2 % 2 = 1) ∧
       ((∀ n : Int, u ≠ n) → fn = 0 → r.2 % 2 = 1) ∧
       (0 < u → (∀ n : Int, u ≠ 2 ^ n) → fn = 1 → r.2 % 2 = 1) ∧
       (u ≠ 0 → (∀ n : Int, |u| ≠ 2 ^ n) → fn = 2 → r.2 % 2 = 1) ∧
       (0 < u → (∀ n : Int, u ≠ 2 ^ (2 * n)) → fn = 3 → r.2 % 2 = 1) ∧
       (2 ^ 16 < |u| → fn = 4 ∨ fn = 5 → ∃ v : ℚ, valueOf (f.decode r.1) = some v ∧ |v| ≤ 1) ∧
       (∀ lo y z, 0 < u → (fn = 2 ∨ fn = 3) → lo < 2 ^ (f.width - 1) → valueOf (f.decode lo) = some y → valueOf (f.decode (lo + 1)) = some z →
         (let under (t : ℚ) : Prop := if fn = 2 then t * u ≤ 1 else t * t * u ≤ 1
          let d := (if f = f32 then 2 else 1) * (z - y)
          under y → ¬ under z →
          ∃ v : ℚ, valueOf (f.decode r.1) = some v ∧ (v - d ≤ 0 ∨ under (v - d)) ∧ (under (v + d) → ∀ t, v + d < t → ¬ under t)))))

end Sys2Proof.Claims

/-- R82-R89, R92, R96, R98, R99, R102, R204: what the machine's floating-point, tapered and tile arithmetic computes, in exact rational
numbers: how patterns read, what is rounded once and how, which flags rise, and where the canonical NaN stands. -/
def Obligations.FloatArithmetic : Prop :=
  Sys2Proof.Claims.PatternsRead ∧
  Sys2Proof.Claims.FiniteArithmetic ∧
  Sys2Proof.Claims.SpecialArithmetic ∧
  Sys2Proof.Claims.OrderArithmetic ∧
  Sys2Proof.Claims.TapersRead ∧
  Sys2Proof.Claims.ConversionArithmetic ∧
  Sys2Proof.Claims.ScaleArithmetic ∧
  Sys2Proof.Claims.ChainArithmetic ∧
  Sys2Proof.Claims.SpecialFunctions ∧
  Sys2Proof.Claims.OuterProductCells ∧
  Sys2Proof.Claims.OuterProductBounds ∧
  Sys2Proof.Claims.ScaledCells

/-! ## The numbers of speculation -/

namespace Sys2Proof.Claims

/-- The format of a version's elements by FMT: F32, F16, BF16 (12 R225). -/
def versionFormat (fmt : Nat) : Fmt := if fmt = 0 then f32 else if fmt = 1 then f16 else bf16

/-- A used range of the request is none that R230 allows: longer than 65,536 bytes, or its base or its length no multiple of 4. -/
def rangeWrong (o : Nat) : Bool := decide (65536 < o / 2 ^ 42 % 2 ^ 17) || o % 4 != 0 || o / 2 ^ 42 % 4 != 0

/-- A version descriptor is none that R225 allows. -/
def descriptorWrong (desc : List Byte) : Bool :=
  let dctl := num desc 8 8
  let w := if dctl / 2 ^ 16 % 4 = 0 then 4 else 2
  decide (2 ^ 21 ≤ dctl) || dctl / 2 ^ 19 % 4 == 3 || dctl / 2 ^ 16 % 4 == 3 || !zeros desc 32 64 || num desc 0 8 % w != 0 ||
    num desc 24 8 % 8 != 0 || decide (65536 < (dctl % 65536 + 1) * w)

/-- A tolerance is none that R231 allows: below zero, infinite or a NaN. -/
def toleranceWrong (t : Nat) : Bool :=
  match valueOf (f32.decode t) with
  | none => true
  | some v => decide (v < 0)

/-- Two ranges share a byte. -/
def shareByte (a b : Nat × Nat) : Bool := decide (a.1 < b.1 + b.2) && decide (b.1 < a.1 + a.2)

/-- The causes of R231's table in its order, each with its status, of a request block and the version descriptor of a FIDDLE request. -/
def specRefusals (s : State) (blk desc : List Byte) : List (Nat × Bool) :=
  let rctl := num blk 0 8
  let fiddle := rctl % 4 == 0
  let chain := rctl % 4 == 1
  let outs := ([num blk 40 8, num blk 48 8]).filter (fun o => o / 2 ^ 42 % 2 ^ 17 != 0)
  let dctl := num desc 8 8
  let ranges := outs.map (fun o => (o % 2 ^ 42, o / 2 ^ 42 % 2 ^ 17))
  let input := if fiddle then (num desc 0 8, (dctl % 65536 + 1) * (if dctl / 2 ^ 16 % 4 = 0 then 4 else 2)) else (num blk 16 8, num blk 24 8)
  [(1, decide (64 ≤ s.liveTickets.length)),
   (2, decide (16 ≤ rctl) || !(fiddle || chain) || rctl / 4 % 4 == 3 || (chain && rctl / 4 % 4 != 0) || !zeros blk 56 64 ||
     decide (2 ^ 59 ≤ num blk 40 8) || decide (2 ^ 59 ≤ num blk 48 8) || outs.any rangeWrong || (fiddle && descriptorWrong desc) ||
     (chain && (num blk 24 8 == 0 || decide (65536 < num blk 24 8) || num blk 16 8 % 4 != 0 || num blk 24 8 % 4 != 0))),
   (3, fiddle && dctl / 2 ^ 19 % 4 == 0),
   (4, fiddle && (toleranceWrong (num blk 24 4) || toleranceWrong (num blk 28 4))),
   (5, chain && (match s.liveTicket (BitVec.ofNat 64 (num blk 8 8)) with
     | none => true
     | some n => (s.ticketAt n).chain ||
         !(s.ticketAt n).outs.any (fun o => decide (o.1 ≤ num blk 16 8) && decide (num blk 16 8 + num blk 24 8 ≤ o.1 + o.2)))),
   (6, decide (¬ (input :: ranges).Pairwise (fun a b => shareByte a b = false)) ||
     s.liveTickets.any (fun e => e.2.ctx == s.ctx && e.2.outs.any (fun o => ranges.any (shareByte o))))]

/-- R230, R231, R239: the status of a request is that of the first cause of R231's table that holds, 0 where none does; a handle names the
ticket of the running context at its number, of its generation, and no ticket where no such ticket stands. -/
def RequestChecks : Prop :=
  (∀ (s : State) (blk desc : List Byte), blk.length = 64 → (num blk 0 8 % 4 = 0 → desc.length = 64) →
    s.specStatus (Request.ofBytes blk) (VersionDesc.ofBytes desc) =
      (((specRefusals s blk desc).find? (fun c => c.2)).map (fun c => c.1)).getD 0) ∧
  (∀ (s : State) (h : Word),
    (let n := h.toNat % 256
     let isIt (m : Nat) : Prop := (s.ticketAt m).st ≠ .free ∧ (s.ticketAt m).gen = h.toNat / 256 ∧ (s.ticketAt m).ctx = s.ctx
     (n < 1 ∨ 64 < n → s.namedTicket h = none) ∧ (1 ≤ n → n ≤ 64 → isIt n → s.namedTicket h = some n) ∧
     ((∀ m, m % 256 = n → ¬ isIt m) → s.namedTicket h = none) ∧
     (∀ m, s.liveTicket h = some m → isIt m ∧ ((s.ticketAt m).st = .opened ∨ (s.ticketAt m).st = .done))))

/-- R227: the prediction, element by element, of the newest version and the one before as the window holds them: with one version or an
ALPHA of 0 the newest itself; else it and ALPHA times the step between them, exact and rounded once to nearest; a NaN is canonical.
(The sign of a zero is not stated: log entry 66.) -/
def PredictionFormed : Prop :=
  ∀ (s : State) (r : Request) (D : VersionDesc) (new old : List Byte), D.fmt ≤ 2 → r.alpha ≤ 2 → 1 ≤ D.versions → D.versions ≤ 2 →
    s.peekWindow s.ctx (D.hist + D.newest * D.bytes) D.bytes = .ok new →
    s.peekWindow s.ctx (D.hist + (1 - D.newest) * D.bytes) D.bytes = .ok old →
    (let f := versionFormat D.fmt
     let w := if D.fmt = 0 then 4 else 2
     (s.prediction r D).length = D.count ∧
     ∀ i, i < D.count →
       (let x := num new (i * w) w
        let p := (s.prediction r D).getD i 0
        let a := f.decode x
        let b := f.decode (num old (i * w) w)
        if D.versions = 1 ∨ r.alpha = 0 then p = x
        else
          (∀ u v, valueOf a = some u → valueOf b = some v →
            ∃ neg fl, Rounded f 0 neg (u + (if r.alpha = 1 then 1 / 2 else 1) * (u - v)) (p, fl)) ∧
          (a.isNan = true ∨ b.isNan = true → p = f.canon) ∧
          (∀ n k, a = .inf n → b = .inf k → p = if n = k then f.canon else infOf f n) ∧
          (∀ n v, a = .inf n → valueOf b = some v → p = infOf f n) ∧
          (∀ n u, b = .inf n → valueOf a = some u → p = infOf f (!n))))

/-- R235: an element passes where the patterns are equal, or where both are finite and their distance, exact, is within the tolerances;
the verdict's index is that of the first element that does not. -/
def GaugeTest : Prop :=
  (∀ (fmt : Nat) (tauAbs tauRel : BitVec 32) (real pred : Nat) (a b : ℚ), fmt ≤ 2 →
    valueOf (f32.decode tauAbs.toNat) = some a → valueOf (f32.decode tauRel.toNat) = some b → 0 ≤ a → 0 ≤ b →
    (gaugePasses fmt tauAbs tauRel real pred = true ↔
      real = pred ∨ ∃ u v, valueOf ((versionFormat fmt).decode real) = some u ∧ valueOf ((versionFormat fmt).decode pred) = some v ∧
        |u - v| ≤ a + b * |u|)) ∧
  (∀ (fmt : Nat) (tauAbs tauRel : BitVec 32) (l : List (Nat × Nat)),
    (let passes (x : Nat × Nat) : Prop := gaugePasses fmt tauAbs tauRel x.1 x.2 = true
     (firstMiss fmt tauAbs tauRel 0 l = none ↔ ∀ x ∈ l, passes x) ∧
     (∀ i, firstMiss fmt tauAbs tauRel 0 l = some i ↔
       (∃ x, l[i]? = some x ∧ ¬ passes x) ∧ ∀ j x, j < i → l[j]? = some x → passes x)))

/-- R226: the history as a check leaves it: the real version stands in the slot that was not the newest, that slot is now the newest, one
version more is held, up to two; and every other byte of memory is as before. -/
def HistoryKept : Prop :=
  (∀ (s : State) (T : Ticket) (real desc : List Byte) (k1 k2 : Nat), T.desc + 64 ≤ 2 ^ 42 →
    s.peekWindow T.ctx T.desc 64 = .ok desc →
    (let dctl := num desc 8 8
     let NEW := dctl / 2 ^ 18 % 2
     let slot := num desc 16 8 + (1 - NEW) * real.length
     slot + real.length ≤ 2 ^ 42 → scalarRange s 256 T.ctx .write true slot real.length = .ok [⟨slot, k1, real.length⟩] →
     scalarRange s 256 T.ctx .write true (T.desc + 8) 8 = .ok [⟨T.desc + 8, k2, 8⟩] → (k2 + 8 ≤ k1 ∨ k1 + real.length ≤ k2) →
     (let t := s.putHistory T real
      t.mem.bytes k1 real.length = real ∧
      t.mem.bytes k2 8 = toBytes 8 (dctl / 2 ^ 21 * 2 ^ 21 + (if dctl / 2 ^ 19 % 4 = 0 then 1 else 2) * 2 ^ 19 + (1 - NEW) * 2 ^ 18 +
        dctl % 2 ^ 18) ∧
      (∀ j, (j < k1 ∨ k1 + real.length ≤ j) → (j < k2 ∨ k2 + 8 ≤ j) → t.mem.get 0 j = s.mem.get 0 j)))) ∧
  (∀ (s : State) (n : Nat) (bs : List Byte), s.arg.ticket = n → s.checkDue (s.ticketAt n) = true → s.checkedWith (s.ticketAt n) = [n] →
    (s.ticketAt n).real = some (0, bs) →
    ∃ u : State, exec .gaugeCheck s = .next (u.putHistory (s.ticketAt n) bs).settled ∧
      ((u.ticketAt n).verdict = some true → u.mem = s.mem ∧ u.dev.vpm = s.dev.vpm))

end Sys2Proof.Claims

/-! ## Traps -/

namespace Sys2Proof.Claims

/-- The instruction traps at its own pc, with nothing of it done: `s` is the state that the trap rolls back. -/
def trapsIn (i : Instr) (s u : State) (cause val : Nat) : Prop := exec i s = .next (takeTrap u cause val s.regs.pc false)

/-- It traps so with its own bits (15 R282). -/
def refusedAs (i : Instr) (s : State) (cause : Nat) : Prop := trapsIn i s s cause i.bits.toNat

/-- The compressed forms that read LAST of the x class (15 R300, R301). -/
def readsLastX : Instr → Bool
  | .cAdd .. | .cSub .. | .cAnd .. | .cOr .. | .cXor .. | .cShli .. | .cShri .. | .cAddi .. | .cMul .. | .cFadd .. | .cFmul ..
  | .cFma .. | .cLd .. | .cSt .. => true
  | _ => false

/-- The compressed forms that read LAST of the vector class: sources, destination, and whether they are FP forms. -/
def readsLastV : Instr → Option (Reg × Reg × Bool)
  | .cVadd b d => some (b, d, false)
  | .cVsub b d => some (b, d, false)
  | .cVmul b d => some (b, d, false)
  | .cVmax b d => some (b, d, false)
  | .cVand b d => some (b, d, false)
  | .cVxor b d => some (b, d, false)
  | .cVfadd b d => some (b, d, true)
  | .cVfsub b d => some (b, d, true)
  | .cVfmul b d => some (b, d, true)
  | .cVfma b d => some (b, d, true)
  | .cVfmax b d => some (b, d, true)
  | _ => none

/-- The scalar FP instructions. -/
def isScalarFp : Instr → Bool
  | .fadd .. | .fsub .. | .fmul .. | .fdiv .. | .fsqrt .. | .fmin .. | .fmax .. | .fcmp .. | .fcvt .. | .fclass .. | .fma ..
  | .cFadd .. | .cFmul .. | .cFma .. => true
  | _ => false

/-- The compressed load and store, which an execute hart does not have (04 R62). -/
def accessOnly : Instr → Bool
  | .cLd .. | .cSt .. => true
  | _ => false

/-- R300: a form that reads LAST while the valid bit of its class is 0 traps NOLAST. -/
def LastMissing : Prop :=
  (∀ (i : Instr) (s : State), readsLastX i = true → (accessOnly i = true → s.isExec = false) → (isScalarFp i = true → s.regs.frm ≠ 5) →
    s.regs.lastd.getLsbD 7 = false → refusedAs i s 0x1A) ∧
  (∀ (i : Instr) (s : State) (b d : Reg) (fp : Bool), readsLastV i = some (b, d, fp) →
    s.badGroup b.toNat (grpNow s) = false → s.badGroup d.toNat (grpNow s) = false →
    (if fp then badFp s.regs = false else s.regs.sewCode ≠ 0) → s.regs.lastd.getLsbD 15 = false → refusedAs i s 0x1A)

/-- VFCVT. -/
def isConversion : Instr → Bool
  | .vfcvt .. => true
  | _ => false

/-- R91: under EFB an FP instruction traps ILLEGAL, whether or not it rounds; of the vector ones all but a narrowing conversion. -/
def EfbTraps : Prop :=
  (∀ (i : Instr) (s : State), isScalarFp i = true → s.regs.frm = 5 → refusedAs i s 0x01) ∧
  (∀ (i : Instr) (s : State) (f : VForm), floatVector i s = some f → isConversion i = false → s.regs.frm = 5 → refusedAs i s 0x01)

/-- A vector instruction of one of the groups that write a group. -/
abbrev vectorForm (i : Instr) (s : State) (f : VForm) : Prop :=
  intVector i s = some f ∨ wideVector i s = some f ∨ floatVector i s = some f ∨ permVector i s = some f

/-- R52, R54, R57, R83, R88, R282, R406, R463: a vector instruction whose vtype does not suit it, or one of whose groups is misaligned, runs past
v31 or is of the other hart, traps ILLEGAL, before any other trap of it. -/
def VectorIllegal : Prop :=
  (∀ (i : Instr) (s : State) (f : VForm), vectorForm i s f →
    (f.legal = false ∨ s.badGroup f.d.toNat f.n = true ∨ ∃ g ∈ f.srcs, s.badGroup g.1.toNat g.2.1 = true) → refusedAs i s 0x01) ∧
  (∀ (i : Instr) (s : State) (f : MForm), maskForm i s = some f →
    (f.legal = false ∨ ∃ g ∈ f.srcs, s.badGroup g.1.toNat g.2.1 = true) → refusedAs i s 0x01)

/-- R54, R88, R406, R463: one whose destination overlaps a source where its entry forbids it traps GROUPOVL. -/
def GroupsOverlap : Prop :=
  ∀ (i : Instr) (s : State) (f : VForm), vectorForm i s f → f.legal = true → (∀ g ∈ f.srcs, srcReady s g.1 g.2.1 g.2.2) →
    (∀ k ∈ f.xs, fullX s k) → s.badGroup f.d.toNat f.n = false → f.apart = false → refusedAs i s 0x0D

/-- The operands of a run instruction are legal and hold values (06 R111, steps 1 and 2). -/
abbrev runSources (x : RunArgs) (s : State) : Prop :=
  x.illegal s = false ∧ (∀ y ∈ x.srcs, srcFull s y.reg (y.size s) (sewNow s)) ∧
  ∀ y ∈ x.pays, ∀ j, j < y.size s → s.regs.emptyV (y.reg.toNat + 16 + j) = false

/-- The tags of its run operands. -/
def runTags (x : RunArgs) (s : State) : List Word := (x.srcs.filter RunSrc.isRun).map (fun y => s.tagOf y.reg)

/-- R105, R111: the traps of a run instruction in their order: ILLEGAL; GROUPOVL; RUNREQ, where a run operand has S = 0, or PAY = 0 under
MODE = 1; RUNMIS, where two differ in DIR, KT or KW or one's KW is not SEW; RUNCAP, where the result does not fit. (That a destination which is
the source itself is no overlap, where the entry lets it be, is log entry 39; which groups MODE = 1 tests, and that a queue head of another
SEW is tested after RUNMIS, log entry 81.) -/
def RunTraps : Prop :=
  ∀ (i : Instr) (s : State) (f : RForm), runForm i s = some f →
    (let x := f.x
     let n := x.group s.regs
     let ts := runTags x s
     (f.legal = false ∨ s.regs.sewCode = 0 ∨ (x.double = true ∧ s.regs.grp = 8) ∨ s.isQueue x.d.toNat = true ∨
       s.badGroup x.d.toNat n = true ∨ (x.pay = true ∧ 16 ≤ x.d.toNat) → refusedAs i s 0x01) ∧
     (f.legal = true → runSources x s → ¬ (x.same = true ∧ ∃ y ∈ x.srcs, y.reg = x.d) →
       (∃ y ∈ x.apart, s.isQueue y.reg.toNat = false ∧ x.d.toNat < y.reg.toNat + y.size s ∧ y.reg.toNat < x.d.toNat + n) →
       refusedAs i s 0x0D) ∧
     (f.legal = true → runSources x s → x.overlaps s = false →
       (let missing := (∃ t ∈ ts, t.getLsbD 31 = false) ∨ ∃ y ∈ x.pays, y.isRun = true ∧ (s.tagOf y.reg).getLsbD 24 = false
        (missing → refusedAs i s 0x0A) ∧
        (¬ missing →
          (∃ t ∈ ts, 8 * 2 ^ (t.extractLsb' 26 2).toNat ≠ sewNow s ∨ ∃ u ∈ ts, t.extractLsb' 26 5 ≠ u.extractLsb' 26 5) →
          refusedAs i s 0x0B))) ∧
     (f.legal = true → runReady x s → s.regs.vl ≠ 0 → (if x.double then 2 * s.vlmax else s.vlmax) < f.keys.length →
       refusedAs i s 0x0C))

/-- A source that may be popped or read but for the strip's limit of pops: its head suits, if there is one. -/
abbrev popReady (s : State) (k : Reg) (c w : Nat) : Prop :=
  s.badGroup k.toNat c = false ∧
  (if s.isQueue k.toNat then
     (s.front.lq.get [] (k.toNat - 28)).head?.all (fun e => !e.stop && sewBits e.sew == w) = true ∧
       (s.front.lq.get [] (k.toNat - 28) = [] → s.hart.popsSpent (k.toNat - 28) = true)
   else ∀ j, j < c → s.regs.emptyV (k.toNat + j) = false)

/-- R73, R74: a store that would touch a 1,025th block of the strip's buffer traps STRIPCAP and writes nothing; so does an
instruction that would pop a 17th entry of one queue in its strip, whatever the queue holds (that it traps so before it waits for the
entry is log entry 63). -/
def StripFull : Prop :=
  (∀ (i : Instr) (s : State) (n : Nat) (a d : Reg) (off : Word) (key : Nat),
    storeForm i s = some (n, a, d, off) → s.isExec = false → s.priv = false → s.ticket = 0 → fullX s a → fullX s d →
    Sys2Proof.Claims.reaches s .write (s.regs.getX a + off).toNat n key →
    1024 < bufferBlocks (s.hart.buf ++
      [.global (s.regs.getX a + off).toNat key n (toBytes n (s.regs.getX d).toNat) s.regs.pc]) →
    trapsIn i s s 0x1D (s.regs.getX a + off).toNat) ∧
  (∀ (i : Instr) (s : State) (f : VForm), vectorForm i s f → f.legal = true → f.apart = true →
    (∀ g ∈ f.srcs, popReady s g.1 g.2.1 g.2.2) → (∀ k ∈ f.xs, fullX s k) → dstReady s f.d f.n → s.isQueue f.d.toNat = false →
    (∃ g ∈ f.srcs, s.isQueue g.1.toNat = true ∧ 16 ≤ (s.hart.popped.filter (fun p => p.1 == g.1.toNat - 28)).length) →
    trapsIn i s s 0x1D 0)

/-- R199, R202: a tile instruction traps ILLEGAL where it names a tile that the CR does not have, TILERET where the tile is retired, and
then TILEOFF where it must not be OFF and is, with the tile's number. -/
def TileTraps : Prop :=
  (∀ (i : Instr) (s : State) (k : Nat) (on : Bool) (f : Tile → Tile), tileForm i = some (k, on, f) → s.isAccess = false →
    (s.run.tiles[k]? = none → refusedAs i s 0x01) ∧
    ∀ c, s.run.tiles[k]? = some c →
      (let T := s.core.tiles.get {} c
       T.st ≠ .busy → T.st ≠ .draining →
       (T.retired = true → trapsIn i s s 0x0F k) ∧
       (T.retired = false → on = true → T.st = .off → trapsIn i s s 0x0E k))) ∧
  (∀ (fmt ta : BitVec 3) (va vb : Reg) (s : State) (c : Nat), s.isAccess = false → s.run.tiles[ta.toNat]? = some c →
    slabReady s va (sliceBits fmt.toNat) (tileWidth fmt.toNat) → slabReady s vb (sliceBits fmt.toNat) (tileWidth fmt.toNat) →
    (let T := s.core.tiles.get {} c
     let i : Instr := .mopa fmt ta va vb
     (T.st = .off → T.retired = false → trapsIn i s s 0x0E ta.toNat) ∧
     (T.st = .off → T.retired = true → trapsIn i s s 0x0F ta.toNat) ∧
     (T.st = .idle → T.int ≠ (fmt == 4) → refusedAs i s 0x01)))

/-- An instruction that begins with a fresh strip may act (04 R76). -/
abbrev strips (s : State) : Prop := s.isExec = false ∧ Quiet s ∧ queuesClear s

/-- R34, R27: the traps of SPAWN, in their order: an image that is not 8-byte aligned MISALIGN, one that R27 refuses ILLEGAL, a join counter that is
not 8-byte aligned MISALIGN; a region whose queue has no room, or that is failing, QUEUE; a draw that would take `drawn` above 2^63, or a
share that is not below the CR's weight, WEIGHT with that weight. (That an irrevocable instruction's traps come after the commit of its
strip is log entry 21.) -/
def SpawnTraps : Prop :=
  ∀ (p q : Bool) (b a : Reg) (s : State), strips s → fullX s a → fullX s b →
    (let i : Instr := .spawn p q b a
     ((s.regs.getX a).toNat % 8 ≠ 0 → trapsIn i s (fresh s) 0x03 (s.regs.getX a).toNat) ∧
     ∀ (u : State) (img : List Byte), loadBlock (s.regs.getX a).toNat 64 8 (fresh s) = .ok (img, u) →
       (let at' := (CR.ofBytes img).joinaddr
        let R := s.regionNow
        let w := s.run.cweight.toNat
        let drawn := if w < 2 then 2 ^ 32 else 0
        let full := R.failing = true ∨ R.reserve.get 0 0 < R.charged.get 0 0 + 2
        (imageIllegal R img = true → trapsIn i s (fresh s) 0x01 i.bits.toNat) ∧
        (imageIllegal R img = false → at' ≠ 0 → at'.toNat % 8 ≠ 0 → trapsIn i s (fresh s) 0x03 at'.toNat) ∧
        (imageIllegal R img = false → (at' = 0 ∨ ∃ n v, readCounter at'.toNat u = .ok (n, v)) →
          (full → trapsIn i s (fresh s) 0x15 0) ∧
          (¬ full → (w < 2 ∧ 2 ^ 63 < R.drawn.toNat + 2 ^ 32) ∨ w + drawn ≤ (s.regs.getX b).toNat → trapsIn i s (fresh s) 0x14 w))))

/-- The irrevocable instructions that a CR of a ticket may not execute: sources, and what `tval` holds (12 R234). -/
def barred (i : Instr) (s : State) : Option (List Reg × Word) :=
  let x := s.regs.getX
  match i with
  | .launch _ _ b a _ => some ([a, b], x a)
  | .withdraw _ _ b a _ => some ([a, b], 0)
  | .claim _ _ b a _ => some ([a, b], 0)
  | .cas _ _ _ b a d => some ([a, b, d], x a)
  | .viewnew _ _ b a _ => some ([a, b], x a)
  | .viewsplit _ _ b a _ => some ([a, b], x a)
  | .narrow _ _ b a d => some ([a, b, d], x d)
  | .viewdrop _ a => some ([a], x a)
  | .viewq _ _ b a _ => some ([a, b], x a)
  | .specb _ _ b a _ => some ([a, b], 0)
  | .specx _ a => some ([a], 0)
  | _ => none

/-- The instructions that a ticket logs (12 R234): sources, and whether the operands suit: the word of a JOIN, a WMPUB or an AMO is reached, the
selector of an EPUB is one. -/
def logged (i : Instr) (s : State) : Option (List Reg × Prop) :=
  let word (a : Reg) (n : Nat) : Prop := ∃ key, Sys2Proof.Claims.reaches s .both (s.regs.getX a).toNat n key
  match i with
  | .join _ a _ => some ([a], word a 8)
  | .wmpub _ _ b a => some ([a, b], word a 8)
  | .amo _ _ sz f b a _ => some ([a, b], f.toNat ≤ 8 ∧ word a (if sz then 8 else 4))
  | .epub _ _ b a => some ([a, b], (s.regs.getX a).toNat ≤ 2)
  | _ => none

/-- R234: under a ticket: what may not be executed, a store of a byte outside the output ranges, and a 17th logged effect trap SPECST. (That an
irrevocable instruction's traps come after the commit of its strip is log entry 21.) -/
def TicketTraps : Prop :=
  (∀ (i : Instr) (s : State) (ks : List Reg) (v : Word), barred i s = some (ks, v) → s.ticket ≠ 0 → strips s →
    (∀ k ∈ ks, fullX s k) → trapsIn i s (fresh s) 0x13 v.toNat) ∧
  (∀ (p q : Bool) (b a d : Reg) (s : State), s.ticket ≠ 0 → s.isExec = false → fullX s a → fullX s b →
    trapsIn (.specq p q b a d) s s 0x13 0) ∧
  (∀ (i : Instr) (s : State) (n : Nat) (a d : Reg) (off : Word) (key j : Nat), storeForm i s = some (n, a, d, off) → s.ticket ≠ 0 →
    s.isExec = false → fullX s a → fullX s d → Sys2Proof.Claims.reaches s .write (s.regs.getX a + off).toNat n key →
    j < n → (s.ticketAt s.ticket).outputs ((s.regs.getX a + off).toNat + j) = false →
    trapsIn i s s 0x13 (s.regs.getX a + off).toNat) ∧
  (∀ (i : Instr) (s : State) (ks : List Reg) (suits : Prop), logged i s = some (ks, suits) → suits → s.ticket ≠ 0 → strips s →
    (∀ k ∈ ks, fullX s k) → 16 ≤ (s.ticketAt s.ticket).log.length → trapsIn i s (fresh s) 0x13 0)

/-- R67: an access-hart load that overlaps an address entry without data stalls; while the execute hart is stalled on the head of an
empty load queue, it traps DEADLOCK with its address, and the execute hart stops. (That two
addresses of one place in memory overlap is log entry 74.) -/
def DeadlockTrap : Prop :=
  ∀ (i : Instr) (s : State) (sz : BitVec 3) (a d : Reg) (off : Word) (key : Nat) (e : AEntry),
    loadForm i s = some (sz, a, d, off) → s.isAccess = true → fullX s a →
    (let va := (s.regs.getX a + off).toNat
     Sys2Proof.Claims.reaches s .read va (szBytes sz) key → (e, none) ∈ s.front.pendingStores → e.loc = false → e.vl ≠ 0 →
     e.range.1 < va + szBytes sz → va < e.range.2 →
     (s.front.headStalled = false →
       ∃ t, exec i s = .next t ∧ t.hart.wait = .load va ∧ t.regs = s.regs ∧ sameTrapState s t ∧ sameDevice s t) ∧
     (∀ q, s.front.e.wait = .head q → s.front.lq.get [] q = [] →
       trapsIn i s s 0x11 va ∧ ∀ ps, trapReady s ps → (takeTrap s 0x11 va s.regs.pc false).front.e.stopped = true))

end Sys2Proof.Claims

/-- R34, R67, R73, R74, R91, R111, R199, R234, R282, R300: the named traps of the families, each where its rule says, at the
instruction's own pc and with nothing of the instruction done. -/
def Obligations.TrapsNamed : Prop :=
  Sys2Proof.Claims.LastMissing ∧
  Sys2Proof.Claims.EfbTraps ∧
  Sys2Proof.Claims.VectorIllegal ∧
  Sys2Proof.Claims.GroupsOverlap ∧
  Sys2Proof.Claims.RunTraps ∧
  Sys2Proof.Claims.StripFull ∧
  Sys2Proof.Claims.TileTraps ∧
  Sys2Proof.Claims.SpawnTraps ∧
  Sys2Proof.Claims.TicketTraps ∧
  Sys2Proof.Claims.DeadlockTrap

/-! ## The statements that hold several of the above together -/

/-- R326, R381 and the other entries of the INT, MULDIV and immediate groups, with their compressed forms. -/
def Obligations.ScalarIntegerResult : Prop :=
  Sys2Proof.Claims.IntegerResult ∧
  Sys2Proof.Claims.CompressedScalarResult

/-- R358, R246, R374: jumps, calls and the return from a trap. -/
def Obligations.JumpsCallsReturns : Prop :=
  Sys2Proof.Claims.JumpLinks ∧
  Sys2Proof.Claims.CallTraps ∧
  Sys2Proof.Claims.ReturnFromTrap

/-- R361, R301, R67, R68, R73, R149, R234: the scalar load forms: what they write and what they see. (That the value of a load that fills late is the
one read as it issues, and that fills land in order, are the model’s choices, log entries 4 and 62.) -/
def Obligations.ScalarLoads : Prop :=
  Sys2Proof.Claims.LoadResult ∧
  Sys2Proof.Claims.LoadSeesMemory ∧
  Sys2Proof.Claims.LoadSeesStore ∧
  Sys2Proof.Claims.LoadUnderTicket

/-- R390, R73, R75, R245, R443: stores go through the strip’s buffer, or in privileged mode to memory at once; a strip whose bytes another
agent has changed runs again. -/
def Obligations.ScalarStores : Prop :=
  Sys2Proof.Claims.StoreBuffered ∧
  Sys2Proof.Claims.StorePrivileged ∧
  Sys2Proof.Claims.CommitWritesStore ∧
  Sys2Proof.Claims.BrokenLeaseReruns

/-- R68, R69: fills, and what an empty register does to an instruction. -/
def Obligations.EmptyRegisters : Prop :=
  Sys2Proof.Claims.FillLands ∧
  Sys2Proof.Claims.EmptyRegisterWaits

/-- R155, R156, R327, R334: the two read-modify-writes. (What waits for the store queues in privileged mode: log entry 61.) -/
def Obligations.AtomicResults : Prop :=
  Sys2Proof.Claims.AtomicResult ∧
  Sys2Proof.Claims.CompareAndSwapResult

/-- R295, R296: the four STATE instructions. -/
def Obligations.StateRegisterAccess : Prop :=
  Sys2Proof.Claims.StateReadResult ∧
  Sys2Proof.Claims.StateWriteResult

/-- R244, R245, R249: taking a trap. -/
def Obligations.TrapTaken : Prop :=
  Sys2Proof.Claims.TrapEntry ∧
  Sys2Proof.Claims.TrapWritesRecord ∧
  Sys2Proof.Claims.DoubleTrap

/-- R357, R356, R376, R353, R394: the rest of SYS but the maps. -/
def Obligations.SystemResults : Prop :=
  Sys2Proof.Claims.FlushResult ∧
  Sys2Proof.Claims.IdleResult ∧
  Sys2Proof.Claims.ScanResult ∧
  Sys2Proof.Claims.ScanWords ∧
  Sys2Proof.Claims.FreezeAndThaw

/-- R123, R125, R127, R129-R132, R142, R395, R442: the maps: what an address translates to, and what changes and removes translations. -/
def Obligations.TranslationMaps : Prop :=
  Sys2Proof.Claims.PageMapResult ∧
  Sys2Proof.Claims.TlbInvalidation ∧
  Sys2Proof.Claims.InvalidationScopes ∧
  Sys2Proof.Claims.WindowTranslation ∧
  Sys2Proof.Claims.PageWalk

/-- R378, R72, R66, R219, R55, R379. -/
def Obligations.VectorLength : Prop :=
  Sys2Proof.Claims.SetVlResult ∧
  Sys2Proof.Claims.SetVlOfQueue ∧
  Sys2Proof.Claims.SetVlReResult ∧
  Sys2Proof.Claims.SetVtResult ∧
  Sys2Proof.Claims.LegalTypes

/-- R162-R165, R378, R465. (How a wait ends, and what a failing read does then, are log entries 14 and 15.) -/
def Obligations.WatermarkWaits : Prop :=
  Sys2Proof.Claims.SetVlwResult ∧
  Sys2Proof.Claims.SetVlwWaits ∧
  Sys2Proof.Claims.WaitVectorResult

/-- R78, R79, R432. (That each iteration meets the VLOOP again is the model’s own account of it, log entry 30.) -/
def Obligations.LoopResult : Prop :=
  Sys2Proof.Claims.LoopBegins ∧
  Sys2Proof.Claims.LoopReturns

/-- The VINT group: elementwise, widening and narrowing forms. -/
def Obligations.VectorIntegerResult : Prop :=
  Sys2Proof.Claims.VectorIntegerResult ∧
  Sys2Proof.Claims.VectorWideningResult

/-- The instructions that write a mask, or count one. -/
def Obligations.MaskResults : Prop :=
  Sys2Proof.Claims.MaskResult ∧
  Sys2Proof.Claims.MaskFunctions ∧
  Sys2Proof.Claims.MaskCountResult

/-- R54, R57, R77 and the arithmetic of the VINT group. -/
def Obligations.VectorElements : Prop :=
  Sys2Proof.Claims.GroupWriteElements ∧
  Sys2Proof.Claims.VectorIntegerFunctions ∧
  Sys2Proof.Claims.NarrowingFunctions

/-- R430, R458, R73, R57: loads and stores of vectors. (Stores of six-bit elements byte by byte are the model’s reading, log entry 32.) -/
def Obligations.VectorMemory : Prop :=
  Sys2Proof.Claims.VectorLoadResult ∧
  Sys2Proof.Claims.ElementReadsMemory ∧
  Sys2Proof.Claims.VectorStoreBuffered

/-- R63-R66, R431, R459. (Which complete pair goes first is the model’s choice, log entry 31.) -/
def Obligations.QueueTraffic : Prop :=
  Sys2Proof.Claims.QueuePushes ∧
  Sys2Proof.Claims.StoreQueueStores

/-- R201-R204, R366, R401. -/
def Obligations.TileArithmetic : Prop :=
  Sys2Proof.Claims.OuterProductResult ∧
  Sys2Proof.Claims.ScaleAccumulateResult

/-- R205, R396, R397, R402. -/
def Obligations.TileTransfers : Prop :=
  Sys2Proof.Claims.TileMoveResult ∧
  Sys2Proof.Claims.TileRowResult

/-- R142-R144, R368, R424-R427. (Which free number a view takes is the model’s choice, log entry 12.) -/
def Obligations.ViewResults : Prop :=
  Sys2Proof.Claims.ViewNewResult ∧
  Sys2Proof.Claims.ViewChangeResult ∧
  Sys2Proof.Claims.ViewQueryResult

/-- R35, R359, R161, R467, R47, R335. -/
def Obligations.JoinsAndPublications : Prop :=
  Sys2Proof.Claims.JoinResult ∧
  Sys2Proof.Claims.WatermarkPublished ∧
  Sys2Proof.Claims.ClaimResult

/-- R37, R38, R50, R51, R342, R66, R469, R46: how a CR ends or leaves its front, and what its region does then. (The turn in which the
weight of an EXIT returns is the model's choice, log entry 51.) -/
def Obligations.CrEnds : Prop :=
  Sys2Proof.Claims.ExitResult ∧
  Sys2Proof.Claims.RegionCompletes ∧
  Sys2Proof.Claims.CrTerminated ∧
  Sys2Proof.Claims.RegionFails ∧
  Sys2Proof.Claims.DrainResult ∧
  Sys2Proof.Claims.YieldResult

/-- R48, R466, R40, R372, R140, R370, R404. -/
def Obligations.QueueAccounting : Prop :=
  Sys2Proof.Claims.WithdrawResult ∧
  Sys2Proof.Claims.QueueSyncResult ∧
  Sys2Proof.Claims.EntriesHeld ∧
  Sys2Proof.Claims.RetentionResult

/-- R42-R45, R53, R60, R80, R251-R253, R257. (When the queue of a CR that exited has drained, how decisions alternate, which victim
is chosen, what a lost busy tile does, and when an idle front asks are log entries 51, 56, 57, 69 and 70.) -/
def Obligations.DispatchAndPreemption : Prop :=
  Sys2Proof.Claims.DispatchResult ∧
  Sys2Proof.Claims.Eligibility ∧
  Sys2Proof.Claims.DecisionTaken ∧
  Sys2Proof.Claims.VictimIsLowest ∧
  Sys2Proof.Claims.BoundaryPreemptionResult ∧
  Sys2Proof.Claims.AbortPreemptionResult

/-- R227, R230, R231, R239, R384: SPECB: its ticket and its CR, its checks, and what it predicts. (The lowest free ticket, and when a number is
free, are the model’s choices, log entries 13 and 40.) -/
def Obligations.SpeculationBegins : Prop :=
  Sys2Proof.Claims.SpeculationBegins ∧
  Sys2Proof.Claims.RequestChecks ∧
  Sys2Proof.Claims.PredictionFormed

/-- R226, R232, R235-R240, R385, R386: what happens to a ticket. -/
def Obligations.TicketLife : Prop :=
  Sys2Proof.Claims.TicketAnswers ∧
  Sys2Proof.Claims.TicketAbandoned ∧
  Sys2Proof.Claims.GaugeJudges ∧
  Sys2Proof.Claims.GaugeTest ∧
  Sys2Proof.Claims.HistoryKept ∧
  Sys2Proof.Claims.TicketCommits ∧
  Sys2Proof.Claims.TicketRequeues

/-- R170, R171, R338, R159, R160, R339, R189, R190, R380, R388. -/
def Obligations.CommandsIssued : Prop :=
  Sys2Proof.Claims.RecordsIssued ∧
  Sys2Proof.Claims.ShadowsPublished ∧
  Sys2Proof.Claims.SorusIssued

/-- R178-R180, R185-R187, R212, R215. (The units in which an engine works are the model’s choice, log entry 22.) -/
def Obligations.EngineWork : Prop :=
  Sys2Proof.Claims.CopyWork ∧
  Sys2Proof.Claims.RotatedPairs ∧
  Sys2Proof.Claims.SegmentWork ∧
  Sys2Proof.Claims.SkipWork ∧
  Sys2Proof.Claims.MatrixWork ∧
  Sys2Proof.Claims.MatvecWork ∧
  Sys2Proof.Claims.BlockSums

/-- R181, R183, R185, R248, 04 R65. (A trap of a store-queue store goes before an ENGINE trap: the model’s choice, log entry 68.) -/
def Obligations.CommandEnds : Prop :=
  Sys2Proof.Claims.CommandCompletes ∧
  Sys2Proof.Claims.CommandRetries ∧
  Sys2Proof.Claims.AsyncTrapTaken

/-- R191, R192. (What a failing Sorus command does is the model’s reading, log entry 26.) -/
def Obligations.SorusCompletes : Prop :=
  Sys2Proof.Claims.SorusCompletes

/-- R263, R264, R267, R269. (Poison in a read, the size of a host event, and who owns hardware bytes are log entries 29, 33 and 72.) -/
def Obligations.HostSide : Prop :=
  Sys2Proof.Claims.HostAccess ∧
  Sys2Proof.Claims.RegisterReads ∧
  Sys2Proof.Claims.HostRegisters

/-- R266, R268, R270, R276. (The context of a received record is the model’s choice, log entry 27.) -/
def Obligations.HostRequestsServed : Prop :=
  Sys2Proof.Claims.HostRequests ∧
  Sys2Proof.Claims.HostTransfers

/-- R271-R273. (Where the image stands and what RESTORE does with clashing numbers are the model’s choices, log entries 9, 28 and 71.) -/
def Obligations.CheckpointAndRestore : Prop :=
  Sys2Proof.Claims.CheckpointAndRestore ∧
  Sys2Proof.Claims.ImageLayout ∧
  Sys2Proof.Claims.ImageHolds ∧
  Sys2Proof.Claims.FrontRecords ∧
  Sys2Proof.Claims.RestoreChecks ∧
  Sys2Proof.Claims.Rebuilt

/-- R274, R275, R277, R278. (The status of a failing RECOVER, the images kept and the memory after module reset are log entries 34, 35 and 3.) -/
def Obligations.ModuleSide : Prop :=
  Sys2Proof.Claims.ModuleStarts ∧
  Sys2Proof.Claims.ModuleLimits ∧
  Sys2Proof.Claims.PersistentErrors
end

