-- ==== Sys2Proof/Laws/Table.lean ====
section
/-! SUPPORT. The laws of sparse tables: read after write, and every operation keeps the canonical form. -/

namespace Sys2Proof.Machine

variable {α : Type}

theorem Table.sortedFrom_mono (t : Table α) {m n : Nat} (h : m ≤ n) (ht : t.sortedFrom n = true) : t.sortedFrom m = true := by
  cases t with
  | nil => rfl
  | cons e t => simp only [Table.sortedFrom, Bool.and_eq_true, decide_eq_true_eq] at ht ⊢; exact ⟨by omega, ht.2⟩

theorem Table.sortedFrom_filter (p : Nat × α → Bool) (t : Table α) (n : Nat) (ht : t.sortedFrom n = true) :
    Table.sortedFrom (t.filter p) n = true := by
  induction t generalizing n with
  | nil => rfl
  | cons e t ih =>
    simp only [Table.sortedFrom, Bool.and_eq_true, decide_eq_true_eq] at ht
    by_cases hp : p e
    · simp only [List.filter_cons, hp, if_true, Table.sortedFrom, Bool.and_eq_true, decide_eq_true_eq]
      exact ⟨ht.1, ih _ ht.2⟩
    · simp only [List.filter_cons, hp, Bool.false_eq_true, if_false]
      exact ih n (Table.sortedFrom_mono t (by omega) ht.2)

theorem Table.wf_filter [DecidableEq α] (d : α) (p : Nat × α → Bool) (t : Table α) (ht : Table.wf d t = true) :
    Table.wf d (t.filter p) = true := by
  simp only [Table.wf, Bool.and_eq_true] at ht ⊢
  refine ⟨Table.sortedFrom_filter p t 0 ht.1, ?_⟩
  simp only [List.all_eq_true, List.mem_filter] at ht ⊢
  exact fun e he => ht.2 e he.1

/-- Inserting a key that the table does not list keeps the order. -/
theorem Table.sortedFrom_insert (t : Table α) (n k : Nat) (v : α) (hk : n ≤ k) (ht : t.sortedFrom n = true)
    (hn : ∀ e ∈ t, e.1 ≠ k) : Table.sortedFrom (t.insert k v) n = true := by
  induction t generalizing n with
  | nil => simp [Table.insert, Table.sortedFrom, hk]
  | cons e t ih =>
    obtain ⟨j, w⟩ := e
    simp only [Table.sortedFrom, Bool.and_eq_true, decide_eq_true_eq] at ht
    have hj : j ≠ k := hn (j, w) (by simp)
    by_cases h : k < j
    · simp only [Table.insert, h, if_true, Table.sortedFrom, Bool.and_eq_true, decide_eq_true_eq]
      exact ⟨hk, by omega, ht.2⟩
    · simp only [Table.insert, h, if_false, Table.sortedFrom, Bool.and_eq_true, decide_eq_true_eq]
      exact ⟨ht.1, ih (j + 1) (by omega) ht.2 (fun e he => hn e (by simp [he]))⟩

theorem Table.mem_insert (t : Table α) (k : Nat) (v : α) (e : Nat × α) : e ∈ t.insert k v ↔ e = (k, v) ∨ e ∈ t := by
  induction t with
  | nil => simp [Table.insert]
  | cons f t ih =>
    by_cases h : k < f.1
    · simp [Table.insert, h]
    · simp only [Table.insert, h, if_false, List.mem_cons, ih]
      exact or_left_comm

theorem Table.not_mem_erase (t : Table α) (k : Nat) : ∀ e ∈ t.erase k, e.1 ≠ k := by
  simp [Table.erase]

/-- A write keeps the canonical form. -/
theorem Table.wf_set [DecidableEq α] (d : α) (t : Table α) (k : Nat) (v : α) (ht : Table.wf d t = true) :
    Table.wf d (Table.set d t k v) = true := by
  have he : Table.wf d (t.erase k) = true := Table.wf_filter d _ t ht
  by_cases h : v = d
  · simp only [Table.set, h, if_true]; exact he
  · simp only [Table.set, h, if_false]
    simp only [Table.wf, Bool.and_eq_true, List.all_eq_true] at he ⊢
    refine ⟨Table.sortedFrom_insert _ 0 k v (by omega) he.1 (Table.not_mem_erase t k), fun e hm => ?_⟩
    rcases (Table.mem_insert _ k v e).1 hm with rfl | hm
    · simpa using h
    · exact he.2 e hm

/-- Clearing a range keeps the canonical form. -/
theorem Table.wf_clear [DecidableEq α] (d : α) (t : Table α) (lo hi : Nat) (ht : Table.wf d t = true) :
    Table.wf d (t.clear lo hi) = true := Table.wf_filter d _ t ht

theorem Table.wf_setBytes (t : Table Byte) (k : Nat) (bs : List Byte) (ht : Table.wf 0 t = true) :
    Table.wf 0 (t.setBytes k bs) = true := by
  induction bs generalizing t k with
  | nil => exact ht
  | cons b bs ih => exact ih _ _ (Table.wf_set 0 t k b ht)

/-! Read after write -/

theorem Table.get_erase_same (d : α) (t : Table α) (k : Nat) : Table.get d (t.erase k) k = d := by
  induction t with
  | nil => rfl
  | cons e t ih =>
    by_cases h : e.1 = k
    · simpa [Table.erase, h] using ih
    · have : (e.1 != k) = true := by simpa using h
      simp only [Table.erase, List.filter_cons, this, if_true, Table.get, h, if_false]
      exact ih

theorem Table.get_erase_ne (d : α) (t : Table α) {j k : Nat} (h : j ≠ k) : Table.get d (t.erase k) j = Table.get d t j := by
  induction t with
  | nil => rfl
  | cons e t ih =>
    by_cases hk : e.1 = k
    · have hj : ¬ e.1 = j := fun hj => h (hj ▸ hk)
      have : (e.1 != k) = false := by simpa using hk
      simp only [Table.erase, List.filter_cons, this, Bool.false_eq_true, if_false, Table.get, hj]
      exact ih
    · have : (e.1 != k) = true := by simpa using hk
      simp only [Table.erase, List.filter_cons, this, if_true, Table.get]
      split
      · rfl
      · exact ih

theorem Table.get_insert_same (d : α) (t : Table α) (k : Nat) (v : α) (hn : ∀ e ∈ t, e.1 ≠ k) :
    Table.get d (t.insert k v) k = v := by
  induction t with
  | nil => simp [Table.insert, Table.get]
  | cons e t ih =>
    by_cases h : k < e.1
    · simp [Table.insert, h, Table.get]
    · have he : ¬ e.1 = k := hn e (by simp)
      simp only [Table.insert, h, if_false, Table.get, he]
      exact ih (fun f hf => hn f (by simp [hf]))

theorem Table.get_insert_ne (d : α) (t : Table α) {j k : Nat} (v : α) (h : j ≠ k) :
    Table.get d (t.insert k v) j = Table.get d t j := by
  induction t with
  | nil => simp [Table.insert, Table.get, h.symm]
  | cons e t ih =>
    by_cases hk : k < e.1
    · simp [Table.insert, hk, Table.get, h.symm]
    · simp only [Table.insert, hk, if_false, Table.get, ih]

/-- A read after a write to the same key gives the value written. -/
@[simp] theorem Table.get_set_same [DecidableEq α] (d : α) (t : Table α) (k : Nat) (v : α) :
    Table.get d (Table.set d t k v) k = v := by
  by_cases h : v = d
  · simp [Table.set, h, Table.get_erase_same]
  · simp only [Table.set, h, if_false]
    exact Table.get_insert_same d _ k v (Table.not_mem_erase t k)

/-- A write leaves every other key alone. -/
theorem Table.get_set_ne [DecidableEq α] (d : α) (t : Table α) {j k : Nat} (v : α) (h : j ≠ k) :
    Table.get d (Table.set d t k v) j = Table.get d t j := by
  by_cases hv : v = d
  · simp only [Table.set, hv, if_true]; exact Table.get_erase_ne d t h
  · simp only [Table.set, hv, if_false]
    rw [Table.get_insert_ne d _ v h, Table.get_erase_ne d t h]

theorem Table.erase_insert (t : Table α) (k : Nat) (v : α) : Table.erase (t.insert k v) k = t.erase k := by
  induction t with
  | nil => simp [Table.insert, Table.erase]
  | cons e t ih =>
    by_cases h : k < e.1
    · simp [Table.insert, h, Table.erase]
    · unfold Table.erase at ih ⊢
      simp only [Table.insert, h, if_false, List.filter_cons, ih]

theorem Table.erase_erase (t : Table α) (k : Nat) : Table.erase (t.erase k) k = t.erase k := by
  simp [Table.erase, List.filter_filter]

/-- Of two writes to one key the second counts. -/
@[simp] theorem Table.set_set [DecidableEq α] (d : α) (t : Table α) (k : Nat) (v w : α) :
    Table.set d (Table.set d t k v) k w = Table.set d t k w := by
  have h : Table.erase (Table.set d t k v) k = t.erase k := by
    unfold Table.set; split
    · exact Table.erase_erase t k
    · rw [Table.erase_insert, Table.erase_erase]
  unfold Table.set at h ⊢; rw [h]

/-- Bytes below or above those written read as before. -/
theorem Table.get_setBytes_ne (t : Table Byte) (k : Nat) (bs : List Byte) (j : Nat) (h : j < k ∨ k + bs.length ≤ j) :
    Table.get 0 (t.setBytes k bs) j = Table.get 0 t j := by
  induction bs generalizing t k with
  | nil => rfl
  | cons b bs ih =>
    simp only [List.length_cons] at h
    rw [Table.setBytes, ih _ _ (by omega), Table.get_set_ne 0 t b (by omega)]

/-- Bytes written read back. -/
theorem Table.bytes_setBytes (t : Table Byte) (k : Nat) (bs : List Byte) : (t.setBytes k bs).bytes k bs.length = bs := by
  induction bs generalizing t k with
  | nil => rfl
  | cons b bs ih =>
    simp only [Table.setBytes, List.length_cons, Table.bytes]
    rw [Table.get_setBytes_ne _ _ _ _ (by omega), Table.get_set_same, ih]

end Sys2Proof.Machine
end

