-- ==== Sys2Proof/Laws/State.lean ====
section
/-! SUPPORT. What each update of a state leaves: one lemma for each field and update, and read after write through the accessors.
Later proofs cite these and unfold no update. -/

namespace Sys2Proof.Machine

/-! Fields after an update -/

@[simp] theorem State.setFrontAt_mem (s : State) (f : Nat) (F : Front) : (s.setFrontAt f F).mem = s.mem := rfl
@[simp] theorem State.setFrontAt_cores (s : State) (f : Nat) (F : Front) : (s.setFrontAt f F).cores = s.cores := rfl
@[simp] theorem State.setFrontAt_ctxs (s : State) (f : Nat) (F : Front) : (s.setFrontAt f F).ctxs = s.ctxs := rfl
@[simp] theorem State.setFrontAt_regions (s : State) (f : Nat) (F : Front) : (s.setFrontAt f F).regions = s.regions := rfl
@[simp] theorem State.setFrontAt_dev (s : State) (f : Nat) (F : Front) : (s.setFrontAt f F).dev = s.dev := rfl
@[simp] theorem State.setFrontAt_order (s : State) (f : Nat) (F : Front) : (s.setFrontAt f F).order = s.order := rfl
@[simp] theorem State.setFrontAt_cycle (s : State) (f : Nat) (F : Front) : (s.setFrontAt f F).cycle = s.cycle := rfl
@[simp] theorem State.setFrontAt_fid (s : State) (f : Nat) (F : Front) : (s.setFrontAt f F).fid = s.fid := rfl
@[simp] theorem State.setFrontAt_slot (s : State) (f : Nat) (F : Front) : (s.setFrontAt f F).slot = s.slot := rfl
@[simp] theorem State.setFrontAt_late (s : State) (f : Nat) (F : Front) : (s.setFrontAt f F).late = s.late := rfl
@[simp] theorem State.setFrontAt_arg (s : State) (f : Nat) (F : Front) : (s.setFrontAt f F).arg = s.arg := rfl
@[simp] theorem State.setFrontAt_agenda (s : State) (f : Nat) (F : Front) : (s.setFrontAt f F).agenda = s.agenda := rfl

@[simp] theorem State.setFront_mem (s : State) (F : Front) : (s.setFront F).mem = s.mem := rfl
@[simp] theorem State.setFront_cores (s : State) (F : Front) : (s.setFront F).cores = s.cores := rfl
@[simp] theorem State.setFront_ctxs (s : State) (F : Front) : (s.setFront F).ctxs = s.ctxs := rfl
@[simp] theorem State.setFront_regions (s : State) (F : Front) : (s.setFront F).regions = s.regions := rfl
@[simp] theorem State.setFront_dev (s : State) (F : Front) : (s.setFront F).dev = s.dev := rfl
@[simp] theorem State.setFront_order (s : State) (F : Front) : (s.setFront F).order = s.order := rfl
@[simp] theorem State.setFront_cycle (s : State) (F : Front) : (s.setFront F).cycle = s.cycle := rfl
@[simp] theorem State.setFront_fid (s : State) (F : Front) : (s.setFront F).fid = s.fid := rfl
@[simp] theorem State.setFront_slot (s : State) (F : Front) : (s.setFront F).slot = s.slot := rfl
@[simp] theorem State.setFront_late (s : State) (F : Front) : (s.setFront F).late = s.late := rfl
@[simp] theorem State.setFront_arg (s : State) (F : Front) : (s.setFront F).arg = s.arg := rfl
@[simp] theorem State.setFront_agenda (s : State) (F : Front) : (s.setFront F).agenda = s.agenda := rfl

@[simp] theorem State.setHart_mem (s : State) (h : Hart) : (s.setHart h).mem = s.mem := rfl
@[simp] theorem State.setHart_cores (s : State) (h : Hart) : (s.setHart h).cores = s.cores := rfl
@[simp] theorem State.setHart_ctxs (s : State) (h : Hart) : (s.setHart h).ctxs = s.ctxs := rfl
@[simp] theorem State.setHart_regions (s : State) (h : Hart) : (s.setHart h).regions = s.regions := rfl
@[simp] theorem State.setHart_dev (s : State) (h : Hart) : (s.setHart h).dev = s.dev := rfl
@[simp] theorem State.setHart_order (s : State) (h : Hart) : (s.setHart h).order = s.order := rfl
@[simp] theorem State.setHart_cycle (s : State) (h : Hart) : (s.setHart h).cycle = s.cycle := rfl
@[simp] theorem State.setHart_fid (s : State) (h : Hart) : (s.setHart h).fid = s.fid := rfl
@[simp] theorem State.setHart_slot (s : State) (h : Hart) : (s.setHart h).slot = s.slot := rfl
@[simp] theorem State.setHart_late (s : State) (h : Hart) : (s.setHart h).late = s.late := rfl
@[simp] theorem State.setHart_arg (s : State) (h : Hart) : (s.setHart h).arg = s.arg := rfl
@[simp] theorem State.setHart_agenda (s : State) (h : Hart) : (s.setHart h).agenda = s.agenda := rfl

@[simp] theorem State.setRegs_mem (s : State) (r : Regs) : (s.setRegs r).mem = s.mem := rfl
@[simp] theorem State.setRegs_cores (s : State) (r : Regs) : (s.setRegs r).cores = s.cores := rfl
@[simp] theorem State.setRegs_ctxs (s : State) (r : Regs) : (s.setRegs r).ctxs = s.ctxs := rfl
@[simp] theorem State.setRegs_regions (s : State) (r : Regs) : (s.setRegs r).regions = s.regions := rfl
@[simp] theorem State.setRegs_dev (s : State) (r : Regs) : (s.setRegs r).dev = s.dev := rfl
@[simp] theorem State.setRegs_order (s : State) (r : Regs) : (s.setRegs r).order = s.order := rfl
@[simp] theorem State.setRegs_cycle (s : State) (r : Regs) : (s.setRegs r).cycle = s.cycle := rfl
@[simp] theorem State.setRegs_fid (s : State) (r : Regs) : (s.setRegs r).fid = s.fid := rfl
@[simp] theorem State.setRegs_slot (s : State) (r : Regs) : (s.setRegs r).slot = s.slot := rfl
@[simp] theorem State.setRegs_late (s : State) (r : Regs) : (s.setRegs r).late = s.late := rfl
@[simp] theorem State.setRegs_arg (s : State) (r : Regs) : (s.setRegs r).arg = s.arg := rfl
@[simp] theorem State.setRegs_agenda (s : State) (r : Regs) : (s.setRegs r).agenda = s.agenda := rfl

@[simp] theorem State.setRun_mem (s : State) (r : Run) : (s.setRun r).mem = s.mem := rfl
@[simp] theorem State.setRun_cores (s : State) (r : Run) : (s.setRun r).cores = s.cores := rfl
@[simp] theorem State.setRun_ctxs (s : State) (r : Run) : (s.setRun r).ctxs = s.ctxs := rfl
@[simp] theorem State.setRun_regions (s : State) (r : Run) : (s.setRun r).regions = s.regions := rfl
@[simp] theorem State.setRun_dev (s : State) (r : Run) : (s.setRun r).dev = s.dev := rfl
@[simp] theorem State.setRun_order (s : State) (r : Run) : (s.setRun r).order = s.order := rfl
@[simp] theorem State.setRun_cycle (s : State) (r : Run) : (s.setRun r).cycle = s.cycle := rfl
@[simp] theorem State.setRun_fid (s : State) (r : Run) : (s.setRun r).fid = s.fid := rfl
@[simp] theorem State.setRun_slot (s : State) (r : Run) : (s.setRun r).slot = s.slot := rfl
@[simp] theorem State.setRun_late (s : State) (r : Run) : (s.setRun r).late = s.late := rfl
@[simp] theorem State.setRun_arg (s : State) (r : Run) : (s.setRun r).arg = s.arg := rfl
@[simp] theorem State.setRun_agenda (s : State) (r : Run) : (s.setRun r).agenda = s.agenda := rfl

@[simp] theorem State.goTo_mem (s : State) (pc : Word) : (s.goTo pc).mem = s.mem := rfl
@[simp] theorem State.goTo_cores (s : State) (pc : Word) : (s.goTo pc).cores = s.cores := rfl
@[simp] theorem State.goTo_ctxs (s : State) (pc : Word) : (s.goTo pc).ctxs = s.ctxs := rfl
@[simp] theorem State.goTo_regions (s : State) (pc : Word) : (s.goTo pc).regions = s.regions := rfl
@[simp] theorem State.goTo_dev (s : State) (pc : Word) : (s.goTo pc).dev = s.dev := rfl
@[simp] theorem State.goTo_order (s : State) (pc : Word) : (s.goTo pc).order = s.order := rfl
@[simp] theorem State.goTo_cycle (s : State) (pc : Word) : (s.goTo pc).cycle = s.cycle := rfl
@[simp] theorem State.goTo_fid (s : State) (pc : Word) : (s.goTo pc).fid = s.fid := rfl
@[simp] theorem State.goTo_slot (s : State) (pc : Word) : (s.goTo pc).slot = s.slot := rfl
@[simp] theorem State.goTo_late (s : State) (pc : Word) : (s.goTo pc).late = s.late := rfl
@[simp] theorem State.goTo_arg (s : State) (pc : Word) : (s.goTo pc).arg = s.arg := rfl
@[simp] theorem State.goTo_agenda (s : State) (pc : Word) : (s.goTo pc).agenda = s.agenda := rfl

@[simp] theorem State.advance_mem (s : State) (n : Nat) : (s.advance n).mem = s.mem := rfl
@[simp] theorem State.advance_cores (s : State) (n : Nat) : (s.advance n).cores = s.cores := rfl
@[simp] theorem State.advance_ctxs (s : State) (n : Nat) : (s.advance n).ctxs = s.ctxs := rfl
@[simp] theorem State.advance_regions (s : State) (n : Nat) : (s.advance n).regions = s.regions := rfl
@[simp] theorem State.advance_dev (s : State) (n : Nat) : (s.advance n).dev = s.dev := rfl
@[simp] theorem State.advance_order (s : State) (n : Nat) : (s.advance n).order = s.order := rfl
@[simp] theorem State.advance_cycle (s : State) (n : Nat) : (s.advance n).cycle = s.cycle := rfl
@[simp] theorem State.advance_fid (s : State) (n : Nat) : (s.advance n).fid = s.fid := rfl
@[simp] theorem State.advance_slot (s : State) (n : Nat) : (s.advance n).slot = s.slot := rfl
@[simp] theorem State.advance_late (s : State) (n : Nat) : (s.advance n).late = s.late := rfl
@[simp] theorem State.advance_arg (s : State) (n : Nat) : (s.advance n).arg = s.arg := rfl
@[simp] theorem State.advance_agenda (s : State) (n : Nat) : (s.advance n).agenda = s.agenda := rfl

@[simp] theorem State.setCoreAt_mem (s : State) (c : Nat) (C : Core) : (s.setCoreAt c C).mem = s.mem := rfl
@[simp] theorem State.setCoreAt_fronts (s : State) (c : Nat) (C : Core) : (s.setCoreAt c C).fronts = s.fronts := rfl
@[simp] theorem State.setCoreAt_ctxs (s : State) (c : Nat) (C : Core) : (s.setCoreAt c C).ctxs = s.ctxs := rfl
@[simp] theorem State.setCoreAt_regions (s : State) (c : Nat) (C : Core) : (s.setCoreAt c C).regions = s.regions := rfl
@[simp] theorem State.setCoreAt_dev (s : State) (c : Nat) (C : Core) : (s.setCoreAt c C).dev = s.dev := rfl
@[simp] theorem State.setCoreAt_order (s : State) (c : Nat) (C : Core) : (s.setCoreAt c C).order = s.order := rfl
@[simp] theorem State.setCoreAt_cycle (s : State) (c : Nat) (C : Core) : (s.setCoreAt c C).cycle = s.cycle := rfl
@[simp] theorem State.setCoreAt_fid (s : State) (c : Nat) (C : Core) : (s.setCoreAt c C).fid = s.fid := rfl
@[simp] theorem State.setCoreAt_slot (s : State) (c : Nat) (C : Core) : (s.setCoreAt c C).slot = s.slot := rfl
@[simp] theorem State.setCoreAt_late (s : State) (c : Nat) (C : Core) : (s.setCoreAt c C).late = s.late := rfl
@[simp] theorem State.setCoreAt_arg (s : State) (c : Nat) (C : Core) : (s.setCoreAt c C).arg = s.arg := rfl
@[simp] theorem State.setCoreAt_agenda (s : State) (c : Nat) (C : Core) : (s.setCoreAt c C).agenda = s.agenda := rfl

@[simp] theorem State.setCore_mem (s : State) (C : Core) : (s.setCore C).mem = s.mem := rfl
@[simp] theorem State.setCore_fronts (s : State) (C : Core) : (s.setCore C).fronts = s.fronts := rfl
@[simp] theorem State.setCore_ctxs (s : State) (C : Core) : (s.setCore C).ctxs = s.ctxs := rfl
@[simp] theorem State.setCore_regions (s : State) (C : Core) : (s.setCore C).regions = s.regions := rfl
@[simp] theorem State.setCore_dev (s : State) (C : Core) : (s.setCore C).dev = s.dev := rfl
@[simp] theorem State.setCore_order (s : State) (C : Core) : (s.setCore C).order = s.order := rfl
@[simp] theorem State.setCore_cycle (s : State) (C : Core) : (s.setCore C).cycle = s.cycle := rfl
@[simp] theorem State.setCore_fid (s : State) (C : Core) : (s.setCore C).fid = s.fid := rfl
@[simp] theorem State.setCore_slot (s : State) (C : Core) : (s.setCore C).slot = s.slot := rfl
@[simp] theorem State.setCore_late (s : State) (C : Core) : (s.setCore C).late = s.late := rfl
@[simp] theorem State.setCore_arg (s : State) (C : Core) : (s.setCore C).arg = s.arg := rfl
@[simp] theorem State.setCore_agenda (s : State) (C : Core) : (s.setCore C).agenda = s.agenda := rfl

@[simp] theorem State.setScratch_mem (s : State) (c a : Nat) (d : List Byte) : (s.setScratch c a d).mem = s.mem := rfl
@[simp] theorem State.setScratch_fronts (s : State) (c a : Nat) (d : List Byte) : (s.setScratch c a d).fronts = s.fronts := rfl
@[simp] theorem State.setScratch_ctxs (s : State) (c a : Nat) (d : List Byte) : (s.setScratch c a d).ctxs = s.ctxs := rfl
@[simp] theorem State.setScratch_regions (s : State) (c a : Nat) (d : List Byte) : (s.setScratch c a d).regions = s.regions := rfl
@[simp] theorem State.setScratch_dev (s : State) (c a : Nat) (d : List Byte) : (s.setScratch c a d).dev = s.dev := rfl
@[simp] theorem State.setScratch_order (s : State) (c a : Nat) (d : List Byte) : (s.setScratch c a d).order = s.order := rfl
@[simp] theorem State.setScratch_cycle (s : State) (c a : Nat) (d : List Byte) : (s.setScratch c a d).cycle = s.cycle := rfl
@[simp] theorem State.setScratch_fid (s : State) (c a : Nat) (d : List Byte) : (s.setScratch c a d).fid = s.fid := rfl
@[simp] theorem State.setScratch_slot (s : State) (c a : Nat) (d : List Byte) : (s.setScratch c a d).slot = s.slot := rfl
@[simp] theorem State.setScratch_late (s : State) (c a : Nat) (d : List Byte) : (s.setScratch c a d).late = s.late := rfl
@[simp] theorem State.setScratch_arg (s : State) (c a : Nat) (d : List Byte) : (s.setScratch c a d).arg = s.arg := rfl
@[simp] theorem State.setScratch_agenda (s : State) (c a : Nat) (d : List Byte) : (s.setScratch c a d).agenda = s.agenda := rfl

@[simp] theorem State.setCtxAt_mem (s : State) (c : Nat) (C : Ctx) : (s.setCtxAt c C).mem = s.mem := rfl
@[simp] theorem State.setCtxAt_fronts (s : State) (c : Nat) (C : Ctx) : (s.setCtxAt c C).fronts = s.fronts := rfl
@[simp] theorem State.setCtxAt_cores (s : State) (c : Nat) (C : Ctx) : (s.setCtxAt c C).cores = s.cores := rfl
@[simp] theorem State.setCtxAt_regions (s : State) (c : Nat) (C : Ctx) : (s.setCtxAt c C).regions = s.regions := rfl
@[simp] theorem State.setCtxAt_dev (s : State) (c : Nat) (C : Ctx) : (s.setCtxAt c C).dev = s.dev := rfl
@[simp] theorem State.setCtxAt_order (s : State) (c : Nat) (C : Ctx) : (s.setCtxAt c C).order = s.order := rfl
@[simp] theorem State.setCtxAt_cycle (s : State) (c : Nat) (C : Ctx) : (s.setCtxAt c C).cycle = s.cycle := rfl
@[simp] theorem State.setCtxAt_fid (s : State) (c : Nat) (C : Ctx) : (s.setCtxAt c C).fid = s.fid := rfl
@[simp] theorem State.setCtxAt_slot (s : State) (c : Nat) (C : Ctx) : (s.setCtxAt c C).slot = s.slot := rfl
@[simp] theorem State.setCtxAt_late (s : State) (c : Nat) (C : Ctx) : (s.setCtxAt c C).late = s.late := rfl
@[simp] theorem State.setCtxAt_arg (s : State) (c : Nat) (C : Ctx) : (s.setCtxAt c C).arg = s.arg := rfl
@[simp] theorem State.setCtxAt_agenda (s : State) (c : Nat) (C : Ctx) : (s.setCtxAt c C).agenda = s.agenda := rfl

@[simp] theorem State.setTicketAt_mem (s : State) (t : Nat) (T : Ticket) : (s.setTicketAt t T).mem = s.mem := rfl
@[simp] theorem State.setTicketAt_fronts (s : State) (t : Nat) (T : Ticket) : (s.setTicketAt t T).fronts = s.fronts := rfl
@[simp] theorem State.setTicketAt_cores (s : State) (t : Nat) (T : Ticket) : (s.setTicketAt t T).cores = s.cores := rfl
@[simp] theorem State.setTicketAt_ctxs (s : State) (t : Nat) (T : Ticket) : (s.setTicketAt t T).ctxs = s.ctxs := rfl
@[simp] theorem State.setTicketAt_regions (s : State) (t : Nat) (T : Ticket) : (s.setTicketAt t T).regions = s.regions := rfl
@[simp] theorem State.setTicketAt_order (s : State) (t : Nat) (T : Ticket) : (s.setTicketAt t T).order = s.order := rfl
@[simp] theorem State.setTicketAt_cycle (s : State) (t : Nat) (T : Ticket) : (s.setTicketAt t T).cycle = s.cycle := rfl
@[simp] theorem State.setTicketAt_fid (s : State) (t : Nat) (T : Ticket) : (s.setTicketAt t T).fid = s.fid := rfl
@[simp] theorem State.setTicketAt_slot (s : State) (t : Nat) (T : Ticket) : (s.setTicketAt t T).slot = s.slot := rfl
@[simp] theorem State.setTicketAt_late (s : State) (t : Nat) (T : Ticket) : (s.setTicketAt t T).late = s.late := rfl
@[simp] theorem State.setTicketAt_arg (s : State) (t : Nat) (T : Ticket) : (s.setTicketAt t T).arg = s.arg := rfl
@[simp] theorem State.setTicketAt_agenda (s : State) (t : Nat) (T : Ticket) : (s.setTicketAt t T).agenda = s.agenda := rfl

@[simp] theorem State.setRegionAt_mem (s : State) (k : Nat) (R : Region) : (s.setRegionAt k R).mem = s.mem := rfl
@[simp] theorem State.setRegionAt_fronts (s : State) (k : Nat) (R : Region) : (s.setRegionAt k R).fronts = s.fronts := rfl
@[simp] theorem State.setRegionAt_cores (s : State) (k : Nat) (R : Region) : (s.setRegionAt k R).cores = s.cores := rfl
@[simp] theorem State.setRegionAt_ctxs (s : State) (k : Nat) (R : Region) : (s.setRegionAt k R).ctxs = s.ctxs := rfl
@[simp] theorem State.setRegionAt_dev (s : State) (k : Nat) (R : Region) : (s.setRegionAt k R).dev = s.dev := rfl
@[simp] theorem State.setRegionAt_order (s : State) (k : Nat) (R : Region) : (s.setRegionAt k R).order = s.order := rfl
@[simp] theorem State.setRegionAt_cycle (s : State) (k : Nat) (R : Region) : (s.setRegionAt k R).cycle = s.cycle := rfl
@[simp] theorem State.setRegionAt_fid (s : State) (k : Nat) (R : Region) : (s.setRegionAt k R).fid = s.fid := rfl
@[simp] theorem State.setRegionAt_slot (s : State) (k : Nat) (R : Region) : (s.setRegionAt k R).slot = s.slot := rfl
@[simp] theorem State.setRegionAt_late (s : State) (k : Nat) (R : Region) : (s.setRegionAt k R).late = s.late := rfl
@[simp] theorem State.setRegionAt_arg (s : State) (k : Nat) (R : Region) : (s.setRegionAt k R).arg = s.arg := rfl
@[simp] theorem State.setRegionAt_agenda (s : State) (k : Nat) (R : Region) : (s.setRegionAt k R).agenda = s.agenda := rfl

/-! Accessors that an update leaves -/

@[simp] theorem State.setFrontAt_coreAt (s : State) (f : Nat) (F : Front) (g : Nat) : (s.setFrontAt f F).coreAt g = s.coreAt g := rfl
@[simp] theorem State.setFrontAt_core (s : State) (f : Nat) (F : Front) : (s.setFrontAt f F).core = s.core := rfl
@[simp] theorem State.setFrontAt_ctxAt (s : State) (f : Nat) (F : Front) (g : Nat) : (s.setFrontAt f F).ctxAt g = s.ctxAt g := rfl
@[simp] theorem State.setFrontAt_regionAt (s : State) (f : Nat) (F : Front) (g : Nat) : (s.setFrontAt f F).regionAt g = s.regionAt g := rfl
@[simp] theorem State.setFrontAt_ticketAt (s : State) (f : Nat) (F : Front) (g : Nat) : (s.setFrontAt f F).ticketAt g = s.ticketAt g := rfl
@[simp] theorem State.setFrontAt_agent (s : State) (f : Nat) (F : Front) : (s.setFrontAt f F).agent = s.agent := rfl
@[simp] theorem State.setFrontAt_coreNo (s : State) (f : Nat) (F : Front) : (s.setFrontAt f F).coreNo = s.coreNo := rfl

@[simp] theorem State.setFront_coreAt (s : State) (F : Front) (g : Nat) : (s.setFront F).coreAt g = s.coreAt g := rfl
@[simp] theorem State.setFront_core (s : State) (F : Front) : (s.setFront F).core = s.core := rfl
@[simp] theorem State.setFront_ctxAt (s : State) (F : Front) (g : Nat) : (s.setFront F).ctxAt g = s.ctxAt g := rfl
@[simp] theorem State.setFront_regionAt (s : State) (F : Front) (g : Nat) : (s.setFront F).regionAt g = s.regionAt g := rfl
@[simp] theorem State.setFront_ticketAt (s : State) (F : Front) (g : Nat) : (s.setFront F).ticketAt g = s.ticketAt g := rfl
@[simp] theorem State.setFront_agent (s : State) (F : Front) : (s.setFront F).agent = s.agent := rfl
@[simp] theorem State.setFront_coreNo (s : State) (F : Front) : (s.setFront F).coreNo = s.coreNo := rfl

@[simp] theorem State.setHart_coreAt (s : State) (h : Hart) (g : Nat) : (s.setHart h).coreAt g = s.coreAt g := rfl
@[simp] theorem State.setHart_core (s : State) (h : Hart) : (s.setHart h).core = s.core := rfl
@[simp] theorem State.setHart_ctxAt (s : State) (h : Hart) (g : Nat) : (s.setHart h).ctxAt g = s.ctxAt g := rfl
@[simp] theorem State.setHart_regionAt (s : State) (h : Hart) (g : Nat) : (s.setHart h).regionAt g = s.regionAt g := rfl
@[simp] theorem State.setHart_ticketAt (s : State) (h : Hart) (g : Nat) : (s.setHart h).ticketAt g = s.ticketAt g := rfl
@[simp] theorem State.setHart_agent (s : State) (h : Hart) : (s.setHart h).agent = s.agent := rfl
@[simp] theorem State.setHart_coreNo (s : State) (h : Hart) : (s.setHart h).coreNo = s.coreNo := rfl

@[simp] theorem State.setRegs_coreAt (s : State) (r : Regs) (g : Nat) : (s.setRegs r).coreAt g = s.coreAt g := rfl
@[simp] theorem State.setRegs_core (s : State) (r : Regs) : (s.setRegs r).core = s.core := rfl
@[simp] theorem State.setRegs_ctxAt (s : State) (r : Regs) (g : Nat) : (s.setRegs r).ctxAt g = s.ctxAt g := rfl
@[simp] theorem State.setRegs_regionAt (s : State) (r : Regs) (g : Nat) : (s.setRegs r).regionAt g = s.regionAt g := rfl
@[simp] theorem State.setRegs_ticketAt (s : State) (r : Regs) (g : Nat) : (s.setRegs r).ticketAt g = s.ticketAt g := rfl
@[simp] theorem State.setRegs_agent (s : State) (r : Regs) : (s.setRegs r).agent = s.agent := rfl
@[simp] theorem State.setRegs_coreNo (s : State) (r : Regs) : (s.setRegs r).coreNo = s.coreNo := rfl

@[simp] theorem State.setRun_coreAt (s : State) (r : Run) (g : Nat) : (s.setRun r).coreAt g = s.coreAt g := rfl
@[simp] theorem State.setRun_core (s : State) (r : Run) : (s.setRun r).core = s.core := rfl
@[simp] theorem State.setRun_ctxAt (s : State) (r : Run) (g : Nat) : (s.setRun r).ctxAt g = s.ctxAt g := rfl
@[simp] theorem State.setRun_regionAt (s : State) (r : Run) (g : Nat) : (s.setRun r).regionAt g = s.regionAt g := rfl
@[simp] theorem State.setRun_ticketAt (s : State) (r : Run) (g : Nat) : (s.setRun r).ticketAt g = s.ticketAt g := rfl
@[simp] theorem State.setRun_agent (s : State) (r : Run) : (s.setRun r).agent = s.agent := rfl
@[simp] theorem State.setRun_coreNo (s : State) (r : Run) : (s.setRun r).coreNo = s.coreNo := rfl

@[simp] theorem State.goTo_coreAt (s : State) (pc : Word) (g : Nat) : (s.goTo pc).coreAt g = s.coreAt g := rfl
@[simp] theorem State.goTo_core (s : State) (pc : Word) : (s.goTo pc).core = s.core := rfl
@[simp] theorem State.goTo_ctxAt (s : State) (pc : Word) (g : Nat) : (s.goTo pc).ctxAt g = s.ctxAt g := rfl
@[simp] theorem State.goTo_regionAt (s : State) (pc : Word) (g : Nat) : (s.goTo pc).regionAt g = s.regionAt g := rfl
@[simp] theorem State.goTo_ticketAt (s : State) (pc : Word) (g : Nat) : (s.goTo pc).ticketAt g = s.ticketAt g := rfl
@[simp] theorem State.goTo_agent (s : State) (pc : Word) : (s.goTo pc).agent = s.agent := rfl
@[simp] theorem State.goTo_coreNo (s : State) (pc : Word) : (s.goTo pc).coreNo = s.coreNo := rfl

@[simp] theorem State.advance_coreAt (s : State) (n : Nat) (g : Nat) : (s.advance n).coreAt g = s.coreAt g := rfl
@[simp] theorem State.advance_core (s : State) (n : Nat) : (s.advance n).core = s.core := rfl
@[simp] theorem State.advance_ctxAt (s : State) (n : Nat) (g : Nat) : (s.advance n).ctxAt g = s.ctxAt g := rfl
@[simp] theorem State.advance_regionAt (s : State) (n : Nat) (g : Nat) : (s.advance n).regionAt g = s.regionAt g := rfl
@[simp] theorem State.advance_ticketAt (s : State) (n : Nat) (g : Nat) : (s.advance n).ticketAt g = s.ticketAt g := rfl
@[simp] theorem State.advance_agent (s : State) (n : Nat) : (s.advance n).agent = s.agent := rfl
@[simp] theorem State.advance_coreNo (s : State) (n : Nat) : (s.advance n).coreNo = s.coreNo := rfl

@[simp] theorem State.setCoreAt_frontAt (s : State) (c : Nat) (C : Core) (g : Nat) : (s.setCoreAt c C).frontAt g = s.frontAt g := rfl
@[simp] theorem State.setCoreAt_front (s : State) (c : Nat) (C : Core) : (s.setCoreAt c C).front = s.front := rfl
@[simp] theorem State.setCoreAt_hart (s : State) (c : Nat) (C : Core) : (s.setCoreAt c C).hart = s.hart := rfl
@[simp] theorem State.setCoreAt_regs (s : State) (c : Nat) (C : Core) : (s.setCoreAt c C).regs = s.regs := rfl
@[simp] theorem State.setCoreAt_run (s : State) (c : Nat) (C : Core) : (s.setCoreAt c C).run = s.run := rfl
@[simp] theorem State.setCoreAt_ctx (s : State) (c : Nat) (C : Core) : (s.setCoreAt c C).ctx = s.ctx := rfl
@[simp] theorem State.setCoreAt_ticket (s : State) (c : Nat) (C : Core) : (s.setCoreAt c C).ticket = s.ticket := rfl
@[simp] theorem State.setCoreAt_pair (s : State) (c : Nat) (C : Core) : (s.setCoreAt c C).pair = s.pair := rfl
@[simp] theorem State.setCoreAt_isExec (s : State) (c : Nat) (C : Core) : (s.setCoreAt c C).isExec = s.isExec := rfl
@[simp] theorem State.setCoreAt_isAccess (s : State) (c : Nat) (C : Core) : (s.setCoreAt c C).isAccess = s.isAccess := rfl
@[simp] theorem State.setCoreAt_role (s : State) (c : Nat) (C : Core) : (s.setCoreAt c C).role = s.role := rfl
@[simp] theorem State.setCoreAt_priv (s : State) (c : Nat) (C : Core) : (s.setCoreAt c C).priv = s.priv := rfl
@[simp] theorem State.setCoreAt_ctxAt (s : State) (c : Nat) (C : Core) (g : Nat) : (s.setCoreAt c C).ctxAt g = s.ctxAt g := rfl
@[simp] theorem State.setCoreAt_regionAt (s : State) (c : Nat) (C : Core) (g : Nat) : (s.setCoreAt c C).regionAt g = s.regionAt g := rfl
@[simp] theorem State.setCoreAt_ticketAt (s : State) (c : Nat) (C : Core) (g : Nat) : (s.setCoreAt c C).ticketAt g = s.ticketAt g := rfl
@[simp] theorem State.setCoreAt_agent (s : State) (c : Nat) (C : Core) : (s.setCoreAt c C).agent = s.agent := rfl
@[simp] theorem State.setCoreAt_coreNo (s : State) (c : Nat) (C : Core) : (s.setCoreAt c C).coreNo = s.coreNo := rfl

@[simp] theorem State.setCore_frontAt (s : State) (C : Core) (g : Nat) : (s.setCore C).frontAt g = s.frontAt g := rfl
@[simp] theorem State.setCore_front (s : State) (C : Core) : (s.setCore C).front = s.front := rfl
@[simp] theorem State.setCore_hart (s : State) (C : Core) : (s.setCore C).hart = s.hart := rfl
@[simp] theorem State.setCore_regs (s : State) (C : Core) : (s.setCore C).regs = s.regs := rfl
@[simp] theorem State.setCore_run (s : State) (C : Core) : (s.setCore C).run = s.run := rfl
@[simp] theorem State.setCore_ctx (s : State) (C : Core) : (s.setCore C).ctx = s.ctx := rfl
@[simp] theorem State.setCore_ticket (s : State) (C : Core) : (s.setCore C).ticket = s.ticket := rfl
@[simp] theorem State.setCore_pair (s : State) (C : Core) : (s.setCore C).pair = s.pair := rfl
@[simp] theorem State.setCore_isExec (s : State) (C : Core) : (s.setCore C).isExec = s.isExec := rfl
@[simp] theorem State.setCore_isAccess (s : State) (C : Core) : (s.setCore C).isAccess = s.isAccess := rfl
@[simp] theorem State.setCore_role (s : State) (C : Core) : (s.setCore C).role = s.role := rfl
@[simp] theorem State.setCore_priv (s : State) (C : Core) : (s.setCore C).priv = s.priv := rfl
@[simp] theorem State.setCore_ctxAt (s : State) (C : Core) (g : Nat) : (s.setCore C).ctxAt g = s.ctxAt g := rfl
@[simp] theorem State.setCore_regionAt (s : State) (C : Core) (g : Nat) : (s.setCore C).regionAt g = s.regionAt g := rfl
@[simp] theorem State.setCore_ticketAt (s : State) (C : Core) (g : Nat) : (s.setCore C).ticketAt g = s.ticketAt g := rfl
@[simp] theorem State.setCore_agent (s : State) (C : Core) : (s.setCore C).agent = s.agent := rfl
@[simp] theorem State.setCore_coreNo (s : State) (C : Core) : (s.setCore C).coreNo = s.coreNo := rfl

@[simp] theorem State.setScratch_frontAt (s : State) (c a : Nat) (d : List Byte) (g : Nat) : (s.setScratch c a d).frontAt g = s.frontAt g := rfl
@[simp] theorem State.setScratch_front (s : State) (c a : Nat) (d : List Byte) : (s.setScratch c a d).front = s.front := rfl
@[simp] theorem State.setScratch_hart (s : State) (c a : Nat) (d : List Byte) : (s.setScratch c a d).hart = s.hart := rfl
@[simp] theorem State.setScratch_regs (s : State) (c a : Nat) (d : List Byte) : (s.setScratch c a d).regs = s.regs := rfl
@[simp] theorem State.setScratch_run (s : State) (c a : Nat) (d : List Byte) : (s.setScratch c a d).run = s.run := rfl
@[simp] theorem State.setScratch_ctx (s : State) (c a : Nat) (d : List Byte) : (s.setScratch c a d).ctx = s.ctx := rfl
@[simp] theorem State.setScratch_ticket (s : State) (c a : Nat) (d : List Byte) : (s.setScratch c a d).ticket = s.ticket := rfl
@[simp] theorem State.setScratch_pair (s : State) (c a : Nat) (d : List Byte) : (s.setScratch c a d).pair = s.pair := rfl
@[simp] theorem State.setScratch_isExec (s : State) (c a : Nat) (d : List Byte) : (s.setScratch c a d).isExec = s.isExec := rfl
@[simp] theorem State.setScratch_isAccess (s : State) (c a : Nat) (d : List Byte) : (s.setScratch c a d).isAccess = s.isAccess := rfl
@[simp] theorem State.setScratch_role (s : State) (c a : Nat) (d : List Byte) : (s.setScratch c a d).role = s.role := rfl
@[simp] theorem State.setScratch_priv (s : State) (c a : Nat) (d : List Byte) : (s.setScratch c a d).priv = s.priv := rfl
@[simp] theorem State.setScratch_ctxAt (s : State) (c a : Nat) (d : List Byte) (g : Nat) : (s.setScratch c a d).ctxAt g = s.ctxAt g := rfl
@[simp] theorem State.setScratch_regionAt (s : State) (c a : Nat) (d : List Byte) (g : Nat) : (s.setScratch c a d).regionAt g = s.regionAt g := rfl
@[simp] theorem State.setScratch_ticketAt (s : State) (c a : Nat) (d : List Byte) (g : Nat) : (s.setScratch c a d).ticketAt g = s.ticketAt g := rfl
@[simp] theorem State.setScratch_agent (s : State) (c a : Nat) (d : List Byte) : (s.setScratch c a d).agent = s.agent := rfl
@[simp] theorem State.setScratch_coreNo (s : State) (c a : Nat) (d : List Byte) : (s.setScratch c a d).coreNo = s.coreNo := rfl

@[simp] theorem State.setCtxAt_frontAt (s : State) (c : Nat) (C : Ctx) (g : Nat) : (s.setCtxAt c C).frontAt g = s.frontAt g := rfl
@[simp] theorem State.setCtxAt_front (s : State) (c : Nat) (C : Ctx) : (s.setCtxAt c C).front = s.front := rfl
@[simp] theorem State.setCtxAt_hart (s : State) (c : Nat) (C : Ctx) : (s.setCtxAt c C).hart = s.hart := rfl
@[simp] theorem State.setCtxAt_regs (s : State) (c : Nat) (C : Ctx) : (s.setCtxAt c C).regs = s.regs := rfl
@[simp] theorem State.setCtxAt_run (s : State) (c : Nat) (C : Ctx) : (s.setCtxAt c C).run = s.run := rfl
@[simp] theorem State.setCtxAt_ctx (s : State) (c : Nat) (C : Ctx) : (s.setCtxAt c C).ctx = s.ctx := rfl
@[simp] theorem State.setCtxAt_ticket (s : State) (c : Nat) (C : Ctx) : (s.setCtxAt c C).ticket = s.ticket := rfl
@[simp] theorem State.setCtxAt_pair (s : State) (c : Nat) (C : Ctx) : (s.setCtxAt c C).pair = s.pair := rfl
@[simp] theorem State.setCtxAt_isExec (s : State) (c : Nat) (C : Ctx) : (s.setCtxAt c C).isExec = s.isExec := rfl
@[simp] theorem State.setCtxAt_isAccess (s : State) (c : Nat) (C : Ctx) : (s.setCtxAt c C).isAccess = s.isAccess := rfl
@[simp] theorem State.setCtxAt_role (s : State) (c : Nat) (C : Ctx) : (s.setCtxAt c C).role = s.role := rfl
@[simp] theorem State.setCtxAt_priv (s : State) (c : Nat) (C : Ctx) : (s.setCtxAt c C).priv = s.priv := rfl
@[simp] theorem State.setCtxAt_coreAt (s : State) (c : Nat) (C : Ctx) (g : Nat) : (s.setCtxAt c C).coreAt g = s.coreAt g := rfl
@[simp] theorem State.setCtxAt_core (s : State) (c : Nat) (C : Ctx) : (s.setCtxAt c C).core = s.core := rfl
@[simp] theorem State.setCtxAt_regionAt (s : State) (c : Nat) (C : Ctx) (g : Nat) : (s.setCtxAt c C).regionAt g = s.regionAt g := rfl
@[simp] theorem State.setCtxAt_ticketAt (s : State) (c : Nat) (C : Ctx) (g : Nat) : (s.setCtxAt c C).ticketAt g = s.ticketAt g := rfl
@[simp] theorem State.setCtxAt_agent (s : State) (c : Nat) (C : Ctx) : (s.setCtxAt c C).agent = s.agent := rfl
@[simp] theorem State.setCtxAt_coreNo (s : State) (c : Nat) (C : Ctx) : (s.setCtxAt c C).coreNo = s.coreNo := rfl

@[simp] theorem State.setTicketAt_frontAt (s : State) (t : Nat) (T : Ticket) (g : Nat) : (s.setTicketAt t T).frontAt g = s.frontAt g := rfl
@[simp] theorem State.setTicketAt_front (s : State) (t : Nat) (T : Ticket) : (s.setTicketAt t T).front = s.front := rfl
@[simp] theorem State.setTicketAt_hart (s : State) (t : Nat) (T : Ticket) : (s.setTicketAt t T).hart = s.hart := rfl
@[simp] theorem State.setTicketAt_regs (s : State) (t : Nat) (T : Ticket) : (s.setTicketAt t T).regs = s.regs := rfl
@[simp] theorem State.setTicketAt_run (s : State) (t : Nat) (T : Ticket) : (s.setTicketAt t T).run = s.run := rfl
@[simp] theorem State.setTicketAt_ctx (s : State) (t : Nat) (T : Ticket) : (s.setTicketAt t T).ctx = s.ctx := rfl
@[simp] theorem State.setTicketAt_ticket (s : State) (t : Nat) (T : Ticket) : (s.setTicketAt t T).ticket = s.ticket := rfl
@[simp] theorem State.setTicketAt_pair (s : State) (t : Nat) (T : Ticket) : (s.setTicketAt t T).pair = s.pair := rfl
@[simp] theorem State.setTicketAt_isExec (s : State) (t : Nat) (T : Ticket) : (s.setTicketAt t T).isExec = s.isExec := rfl
@[simp] theorem State.setTicketAt_isAccess (s : State) (t : Nat) (T : Ticket) : (s.setTicketAt t T).isAccess = s.isAccess := rfl
@[simp] theorem State.setTicketAt_role (s : State) (t : Nat) (T : Ticket) : (s.setTicketAt t T).role = s.role := rfl
@[simp] theorem State.setTicketAt_priv (s : State) (t : Nat) (T : Ticket) : (s.setTicketAt t T).priv = s.priv := rfl
@[simp] theorem State.setTicketAt_coreAt (s : State) (t : Nat) (T : Ticket) (g : Nat) : (s.setTicketAt t T).coreAt g = s.coreAt g := rfl
@[simp] theorem State.setTicketAt_core (s : State) (t : Nat) (T : Ticket) : (s.setTicketAt t T).core = s.core := rfl
@[simp] theorem State.setTicketAt_ctxAt (s : State) (t : Nat) (T : Ticket) (g : Nat) : (s.setTicketAt t T).ctxAt g = s.ctxAt g := rfl
@[simp] theorem State.setTicketAt_regionAt (s : State) (t : Nat) (T : Ticket) (g : Nat) : (s.setTicketAt t T).regionAt g = s.regionAt g := rfl
@[simp] theorem State.setTicketAt_agent (s : State) (t : Nat) (T : Ticket) : (s.setTicketAt t T).agent = s.agent := rfl
@[simp] theorem State.setTicketAt_coreNo (s : State) (t : Nat) (T : Ticket) : (s.setTicketAt t T).coreNo = s.coreNo := rfl

@[simp] theorem State.setRegionAt_frontAt (s : State) (k : Nat) (R : Region) (g : Nat) : (s.setRegionAt k R).frontAt g = s.frontAt g := rfl
@[simp] theorem State.setRegionAt_front (s : State) (k : Nat) (R : Region) : (s.setRegionAt k R).front = s.front := rfl
@[simp] theorem State.setRegionAt_hart (s : State) (k : Nat) (R : Region) : (s.setRegionAt k R).hart = s.hart := rfl
@[simp] theorem State.setRegionAt_regs (s : State) (k : Nat) (R : Region) : (s.setRegionAt k R).regs = s.regs := rfl
@[simp] theorem State.setRegionAt_run (s : State) (k : Nat) (R : Region) : (s.setRegionAt k R).run = s.run := rfl
@[simp] theorem State.setRegionAt_ctx (s : State) (k : Nat) (R : Region) : (s.setRegionAt k R).ctx = s.ctx := rfl
@[simp] theorem State.setRegionAt_ticket (s : State) (k : Nat) (R : Region) : (s.setRegionAt k R).ticket = s.ticket := rfl
@[simp] theorem State.setRegionAt_pair (s : State) (k : Nat) (R : Region) : (s.setRegionAt k R).pair = s.pair := rfl
@[simp] theorem State.setRegionAt_isExec (s : State) (k : Nat) (R : Region) : (s.setRegionAt k R).isExec = s.isExec := rfl
@[simp] theorem State.setRegionAt_isAccess (s : State) (k : Nat) (R : Region) : (s.setRegionAt k R).isAccess = s.isAccess := rfl
@[simp] theorem State.setRegionAt_role (s : State) (k : Nat) (R : Region) : (s.setRegionAt k R).role = s.role := rfl
@[simp] theorem State.setRegionAt_priv (s : State) (k : Nat) (R : Region) : (s.setRegionAt k R).priv = s.priv := rfl
@[simp] theorem State.setRegionAt_coreAt (s : State) (k : Nat) (R : Region) (g : Nat) : (s.setRegionAt k R).coreAt g = s.coreAt g := rfl
@[simp] theorem State.setRegionAt_core (s : State) (k : Nat) (R : Region) : (s.setRegionAt k R).core = s.core := rfl
@[simp] theorem State.setRegionAt_ctxAt (s : State) (k : Nat) (R : Region) (g : Nat) : (s.setRegionAt k R).ctxAt g = s.ctxAt g := rfl
@[simp] theorem State.setRegionAt_ticketAt (s : State) (k : Nat) (R : Region) (g : Nat) : (s.setRegionAt k R).ticketAt g = s.ticketAt g := rfl
@[simp] theorem State.setRegionAt_agent (s : State) (k : Nat) (R : Region) : (s.setRegionAt k R).agent = s.agent := rfl
@[simp] theorem State.setRegionAt_coreNo (s : State) (k : Nat) (R : Region) : (s.setRegionAt k R).coreNo = s.coreNo := rfl

/-! Read after write -/

@[simp] theorem State.frontAt_setFrontAt (s : State) (f : Nat) (F : Front) : (s.setFrontAt f F).frontAt f = F := by
  simp [State.frontAt, State.setFrontAt]

theorem State.frontAt_setFrontAt_ne (s : State) {f g : Nat} (F : Front) (h : g ≠ f) : (s.setFrontAt f F).frontAt g = s.frontAt g := by
  simp [State.frontAt, State.setFrontAt, Table.get_set_ne, h]

@[simp] theorem State.front_setFront (s : State) (F : Front) : (s.setFront F).front = F := State.frontAt_setFrontAt s s.fid F

theorem State.frontAt_setFront_ne (s : State) {g : Nat} (F : Front) (h : g ≠ s.fid) : (s.setFront F).frontAt g = s.frontAt g :=
  State.frontAt_setFrontAt_ne s F h

@[simp] theorem State.coreAt_setCoreAt (s : State) (c : Nat) (C : Core) : (s.setCoreAt c C).coreAt c = C := by
  simp [State.coreAt, State.setCoreAt]

theorem State.coreAt_setCoreAt_ne (s : State) {c d : Nat} (C : Core) (h : d ≠ c) : (s.setCoreAt c C).coreAt d = s.coreAt d := by
  simp [State.coreAt, State.setCoreAt, Table.get_set_ne, h]

@[simp] theorem State.core_setCore (s : State) (C : Core) : (s.setCore C).core = C := State.coreAt_setCoreAt s s.coreNo C

@[simp] theorem State.ctxAt_setCtxAt (s : State) (c : Nat) (C : Ctx) : (s.setCtxAt c C).ctxAt c = C := by
  simp [State.ctxAt, State.setCtxAt]

theorem State.ctxAt_setCtxAt_ne (s : State) {c d : Nat} (C : Ctx) (h : d ≠ c) : (s.setCtxAt c C).ctxAt d = s.ctxAt d := by
  simp [State.ctxAt, State.setCtxAt, Table.get_set_ne, h]

@[simp] theorem State.regionAt_setRegionAt (s : State) (k : Nat) (R : Region) : (s.setRegionAt k R).regionAt k = R := by
  simp [State.regionAt, State.setRegionAt]

theorem State.regionAt_setRegionAt_ne (s : State) {k j : Nat} (R : Region) (h : j ≠ k) :
    (s.setRegionAt k R).regionAt j = s.regionAt j := by
  simp [State.regionAt, State.setRegionAt, Table.get_set_ne, h]

@[simp] theorem State.ticketAt_setTicketAt (s : State) (t : Nat) (T : Ticket) : (s.setTicketAt t T).ticketAt t = T := by
  simp [State.ticketAt, State.setTicketAt]

theorem State.ticketAt_setTicketAt_ne (s : State) {t u : Nat} (T : Ticket) (h : u ≠ t) :
    (s.setTicketAt t T).ticketAt u = s.ticketAt u := by
  simp [State.ticketAt, State.setTicketAt, Table.get_set_ne, h]

/-! The current hart -/

@[simp] theorem Front.hart_setHart (F : Front) (sl : Slot) (h : Hart) : (F.setHart sl h).hart sl = h := by cases sl <;> rfl

@[simp] theorem Front.setHart_run (F : Front) (sl : Slot) (h : Hart) : (F.setHart sl h).run = F.run := by cases sl <;> rfl
@[simp] theorem Front.setHart_grant (F : Front) (sl : Slot) (h : Hart) : (F.setHart sl h).grant = F.grant := by cases sl <;> rfl
@[simp] theorem Front.setHart_lanes (F : Front) (sl : Slot) (h : Hart) : (F.setHart sl h).lanes = F.lanes := by cases sl <;> rfl
@[simp] theorem Front.setHart_lq (F : Front) (sl : Slot) (h : Hart) : (F.setHart sl h).lq = F.lq := by cases sl <;> rfl
@[simp] theorem Front.setHart_sqData (F : Front) (sl : Slot) (h : Hart) : (F.setHart sl h).sqData = F.sqData := by cases sl <;> rfl
@[simp] theorem Front.setHart_sqAddr (F : Front) (sl : Slot) (h : Hart) : (F.setHart sl h).sqAddr = F.sqAddr := by cases sl <;> rfl
@[simp] theorem Front.setHart_seq (F : Front) (sl : Slot) (h : Hart) : (F.setHart sl h).seq = F.seq := by cases sl <;> rfl
@[simp] theorem Front.setHart_chain (F : Front) (sl : Slot) (h : Hart) : (F.setHart sl h).chain = F.chain := by cases sl <;> rfl
@[simp] theorem Front.setHart_shadows (F : Front) (sl : Slot) (h : Hart) : (F.setHart sl h).shadows = F.shadows := by cases sl <;> rfl
@[simp] theorem Front.setHart_image (F : Front) (sl : Slot) (h : Hart) : (F.setHart sl h).image = F.image := by cases sl <;> rfl
@[simp] theorem Front.setHart_tlb (F : Front) (sl : Slot) (h : Hart) : (F.setHart sl h).tlb = F.tlb := by cases sl <;> rfl
@[simp] theorem Front.setHart_frozen (F : Front) (sl : Slot) (h : Hart) : (F.setHart sl h).frozen = F.frozen := by cases sl <;> rfl
@[simp] theorem Front.setHart_theRun (F : Front) (sl : Slot) (h : Hart) : (F.setHart sl h).theRun = F.theRun := by cases sl <;> rfl
@[simp] theorem Front.setHart_drain (F : Front) (sl : Slot) (h : Hart) : (F.setHart sl h).drain = F.drain := by cases sl <;> rfl
@[simp] theorem Front.setHart_held (F : Front) (sl : Slot) (h : Hart) : (F.setHart sl h).held = F.held := by cases sl <;> rfl

/-- Which stores wait depends on a hart only in whether it lives. -/
theorem Front.setHart_storesWaiting (F : Front) (sl : Slot) (h : Hart) (hl : h.live = (F.hart sl).live) :
    (F.setHart sl h).storesWaiting = F.storesWaiting := by
  cases sl
  · rfl
  · have : (F.setHart .e h).feeds = F.feeds := hl
    simp only [Front.storesWaiting, Front.entriesOf, Front.setHart_sqData, Front.setHart_sqAddr, this]

@[simp] theorem State.front_setHart (s : State) (h : Hart) : (s.setHart h).front = s.front.setHart s.slot h := by simp [State.setHart]
@[simp] theorem State.hart_setHart (s : State) (h : Hart) : (s.setHart h).hart = h := by simp [State.hart]
@[simp] theorem State.regs_setHart (s : State) (h : Hart) : (s.setHart h).regs = h.regs := by simp [State.regs]
@[simp] theorem State.priv_setHart (s : State) (h : Hart) : (s.setHart h).priv = h.priv := by simp [State.priv]
@[simp] theorem State.run_setHart (s : State) (h : Hart) : (s.setHart h).run = s.run := by simp [State.run]
@[simp] theorem State.ctx_setHart (s : State) (h : Hart) : (s.setHart h).ctx = s.ctx := by simp [State.ctx]
@[simp] theorem State.ticket_setHart (s : State) (h : Hart) : (s.setHart h).ticket = s.ticket := by simp [State.ticket]
@[simp] theorem State.pair_setHart (s : State) (h : Hart) : (s.setHart h).pair = s.pair := by simp [State.pair]
@[simp] theorem State.isExec_setHart (s : State) (h : Hart) : (s.setHart h).isExec = s.isExec := by simp [State.isExec]
@[simp] theorem State.isAccess_setHart (s : State) (h : Hart) : (s.setHart h).isAccess = s.isAccess := by simp [State.isAccess]

@[simp] theorem State.hart_setRegs (s : State) (r : Regs) : (s.setRegs r).hart = { s.hart with regs := r } := by simp [State.setRegs]
@[simp] theorem State.regs_setRegs (s : State) (r : Regs) : (s.setRegs r).regs = r := by simp [State.setRegs]
@[simp] theorem State.priv_setRegs (s : State) (r : Regs) : (s.setRegs r).priv = s.priv := by simp [State.setRegs, State.priv]
@[simp] theorem State.run_setRegs (s : State) (r : Regs) : (s.setRegs r).run = s.run := by simp [State.setRegs]
@[simp] theorem State.ctx_setRegs (s : State) (r : Regs) : (s.setRegs r).ctx = s.ctx := by simp [State.setRegs]
@[simp] theorem State.ticket_setRegs (s : State) (r : Regs) : (s.setRegs r).ticket = s.ticket := by simp [State.setRegs]
@[simp] theorem State.isExec_setRegs (s : State) (r : Regs) : (s.setRegs r).isExec = s.isExec := by simp [State.setRegs]
@[simp] theorem State.isAccess_setRegs (s : State) (r : Regs) : (s.setRegs r).isAccess = s.isAccess := by simp [State.setRegs]

/-! Of two updates of one place the second counts -/

@[simp] theorem State.setFrontAt_setFrontAt (s : State) (f : Nat) (F G : Front) :
    (s.setFrontAt f F).setFrontAt f G = s.setFrontAt f G := by simp [State.setFrontAt]

@[simp] theorem State.setFront_setFront (s : State) (F G : Front) : (s.setFront F).setFront G = s.setFront G := by
  show (s.setFrontAt s.fid F).setFrontAt s.fid G = _
  simp [State.setFront]

@[simp] theorem Front.setHart_setHart (F : Front) (sl : Slot) (h g : Hart) : (F.setHart sl h).setHart sl g = F.setHart sl g := by
  cases sl <;> rfl

@[simp] theorem State.setHart_setHart (s : State) (h g : Hart) : (s.setHart h).setHart g = s.setHart g := by
  show (s.setHart h).setFront ((s.setHart h).front.setHart s.slot g) = _
  rw [State.front_setHart, Front.setHart_setHart]
  simp [State.setHart]

@[simp] theorem State.setRegs_setRegs (s : State) (r q : Regs) : (s.setRegs r).setRegs q = s.setRegs q := by
  simp [State.setRegs]

@[simp] theorem State.hart_goTo (s : State) (pc : Word) :
    (s.goTo pc).hart = { s.hart with regs := { s.regs with pc := pc }, wait := .none, waitInstr := none } := by
  simp [State.goTo, State.regs]

@[simp] theorem State.regs_goTo (s : State) (pc : Word) : (s.goTo pc).regs = { s.regs with pc := pc } := by
  show (s.goTo pc).hart.regs = _
  simp

@[simp] theorem State.regs_advance (s : State) (n : Nat) :
    (s.advance n).regs = { s.regs with pc := s.regs.follow (s.regs.pc + BitVec.ofNat 64 n) } := by
  simp [State.advance]

/-! Registers (04 R52, 15 R297) -/

@[simp] theorem Regs.getX_zero (r : Regs) : r.getX 0 = 0 := by simp [Regs.getX]

@[simp] theorem Regs.lastX_getX (r : Regs) (k j : Reg) : (r.lastX k).getX j = r.getX j := rfl
@[simp] theorem Regs.lastV_getX (r : Regs) (k j : Reg) : (r.lastV k).getX j = r.getX j := rfl

/-- A register that is written reads as the value; x0 reads 0. -/
theorem Regs.getX_setX (r : Regs) (k j : Reg) (v : Word) :
    (r.setX k v).getX j = if j = k ∧ k ≠ 0 then v else r.getX j := by
  unfold Regs.setX
  by_cases hk : k = 0
  · rw [if_pos hk]; simp [hk]
  · rw [if_neg hk, Regs.lastX_getX]
    by_cases hj : j = k
    · subst hj
      rw [if_pos ⟨rfl, hk⟩]; unfold Regs.getX; rw [if_neg hk, Table.get_set_same]
    · have : j.toNat ≠ k.toNat := fun h => hj (BitVec.eq_of_toNat_eq h)
      rw [if_neg (fun h => hj h.1)]
      simp only [Regs.getX, Table.get_set_ne _ _ _ this]

/-! Writing an x register leaves everything but x and lastd. -/

@[simp] theorem Regs.setX_xEmpty (r : Regs) (k : Reg) (v : Word) : (r.setX k v).xEmpty = r.xEmpty := by
  unfold Regs.setX; split <;> rfl
@[simp] theorem Regs.setX_v (r : Regs) (k : Reg) (v : Word) : (r.setX k v).v = r.v := by
  unfold Regs.setX; split <;> rfl
@[simp] theorem Regs.setX_vEmpty (r : Regs) (k : Reg) (v : Word) : (r.setX k v).vEmpty = r.vEmpty := by
  unfold Regs.setX; split <;> rfl
@[simp] theorem Regs.setX_m (r : Regs) (k : Reg) (v : Word) : (r.setX k v).m = r.m := by
  unfold Regs.setX; split <;> rfl
@[simp] theorem Regs.setX_stag (r : Regs) (k : Reg) (v : Word) : (r.setX k v).stag = r.stag := by
  unfold Regs.setX; split <;> rfl
@[simp] theorem Regs.setX_vl (r : Regs) (k : Reg) (v : Word) : (r.setX k v).vl = r.vl := by
  unfold Regs.setX; split <;> rfl
@[simp] theorem Regs.setX_vtype (r : Regs) (k : Reg) (v : Word) : (r.setX k v).vtype = r.vtype := by
  unfold Regs.setX; split <;> rfl
@[simp] theorem Regs.setX_fflags (r : Regs) (k : Reg) (v : Word) : (r.setX k v).fflags = r.fflags := by
  unfold Regs.setX; split <;> rfl
@[simp] theorem Regs.setX_frm (r : Regs) (k : Reg) (v : Word) : (r.setX k v).frm = r.frm := by
  unfold Regs.setX; split <;> rfl
@[simp] theorem Regs.setX_erc (r : Regs) (k : Reg) (v : Word) : (r.setX k v).erc = r.erc := by
  unfold Regs.setX; split <;> rfl
@[simp] theorem Regs.setX_vsflags (r : Regs) (k : Reg) (v : Word) : (r.setX k v).vsflags = r.vsflags := by
  unfold Regs.setX; split <;> rfl
@[simp] theorem Regs.setX_seam (r : Regs) (k : Reg) (v : Word) : (r.setX k v).seam = r.seam := by
  unfold Regs.setX; split <;> rfl
@[simp] theorem Regs.setX_wmbase (r : Regs) (k : Reg) (v : Word) : (r.setX k v).wmbase = r.wmbase := by
  unfold Regs.setX; split <;> rfl
@[simp] theorem Regs.setX_loopi (r : Regs) (k : Reg) (v : Word) : (r.setX k v).loopi = r.loopi := by
  unfold Regs.setX; split <;> rfl
@[simp] theorem Regs.setX_rad (r : Regs) (k : Reg) (v : Word) : (r.setX k v).rad = r.rad := by
  unfold Regs.setX; split <;> rfl
@[simp] theorem Regs.setX_fex (r : Regs) (k : Reg) (v : Word) : (r.setX k v).fex = r.fex := by
  unfold Regs.setX; split <;> rfl
@[simp] theorem Regs.setX_fev (r : Regs) (k : Reg) (v : Word) : (r.setX k v).fev = r.fev := by
  unfold Regs.setX; split <;> rfl
@[simp] theorem Regs.setX_tpred (r : Regs) (k : Reg) (v : Word) : (r.setX k v).tpred = r.tpred := by
  unfold Regs.setX; split <;> rfl
@[simp] theorem Regs.setX_loop (r : Regs) (k : Reg) (v : Word) : (r.setX k v).loop = r.loop := by
  unfold Regs.setX; split <;> rfl
@[simp] theorem Regs.setX_pc (r : Regs) (k : Reg) (v : Word) : (r.setX k v).pc = r.pc := by
  unfold Regs.setX; split <;> rfl

end Sys2Proof.Machine
end

