-- ==== Sys2Proof/Laws/Memory.lean ====
section
/-! SUPPORT. Global memory: every operation that writes it keeps the canonical form, and says which bytes it leaves alone. -/

namespace Sys2Proof.Machine

/-- Reset memory is canonical. -/
theorem reset_memOk : State.reset.MemOk := rfl

/-- A state with the same memory is as canonical. -/
theorem State.MemOk.of_eq {s t : State} (h : t.mem = s.mem) (hs : s.MemOk) : t.MemOk := by
  unfold State.MemOk; rw [h]; exact hs

theorem Table.wf_foldl_set (k : Nat) (l : List (Nat × Byte)) (m : Table Byte) (h : Table.wf 0 m = true) :
    Table.wf 0 (l.foldl (fun m e => Table.set 0 m (k + e.1) e.2) m) = true := by
  induction l generalizing m with
  | nil => exact h
  | cons e l ih => exact ih _ (Table.wf_set 0 m (k + e.1) e.2 h)

/-! Writes that the device makes itself -/

theorem State.forceMem_memOk (s : State) (ctx g size key : Nat) (bs : List Byte) (h : s.MemOk) :
    (s.forceMem ctx g size key bs).MemOk := Table.wf_setBytes _ _ _ h

theorem State.forceMem_bytes (s : State) (ctx g size key : Nat) (bs : List Byte) :
    (s.forceMem ctx g size key bs).mem.bytes key bs.length = bs := Table.bytes_setBytes _ _ _

theorem State.forceMem_frame (s : State) (ctx g size key : Nat) (bs : List Byte) (j : Nat)
    (h : j < key ∨ key + bs.length ≤ j) : (s.forceMem ctx g size key bs).mem.get 0 j = s.mem.get 0 j :=
  Table.get_setBytes_ne _ _ _ _ h

theorem State.forcePieces_memOk (ctx g size : Nat) (ps : List Piece) (bs : List Byte) (s : State) (h : s.MemOk) :
    (s.forcePieces ctx g size ps bs).MemOk := by
  induction ps generalizing s bs with
  | nil => exact h
  | cons p ps ih => exact ih _ _ (s.forceMem_memOk ctx g size p.key (bs.take p.len) h)

theorem State.forcePieces_frame (ctx g size : Nat) (ps : List Piece) (bs : List Byte) (s : State) (j : Nat)
    (h : ∀ p ∈ ps, j < p.key ∨ p.key + p.len ≤ j) :
    (s.forcePieces ctx g size ps bs).mem.get 0 j = s.mem.get 0 j := by
  induction ps generalizing s bs with
  | nil => rfl
  | cons p ps ih =>
    have hp := h p (by simp)
    have hl : (bs.take p.len).length ≤ p.len := List.length_take_le ..
    rw [State.forcePieces, ih _ _ (fun q hq => h q (by simp [hq])), State.forceMem_frame _ _ _ _ _ _ _ (by omega)]

/-! Writes of agents -/

theorem State.landed_length (s : State) (g size key : Nat) (bs : List Byte) : (s.landed g size key bs).length = bs.length := by
  induction bs generalizing key with
  | nil => rfl
  | cons b bs ih => simp [State.landed, ih]

/-- Where no race touches the bytes and none is the hardware's, a write leaves them as given. -/
theorem State.landed_lands (s : State) (g size key : Nat) (bs : List Byte)
    (h : ∀ j, j < bs.length → s.lands g size (key + j) = true) : s.landed g size key bs = bs := by
  induction bs generalizing key with
  | nil => rfl
  | cons b bs ih =>
    have h0 := h 0 (by simp)
    rw [Nat.add_zero] at h0
    rw [State.landed, if_pos h0, ih (key + 1) (fun j hj => by
      have := h (j + 1) (by simpa using hj)
      rwa [show key + (j + 1) = key + 1 + j by omega] at this)]

/-- What a write that succeeds leaves: the bytes at `key`, each as given where no race touches it, and nothing else changed but the
order, and the poison of those bytes. -/
theorem State.writeMem_spec {s t : State} {ctx g size key : Nat} {bs : List Byte} (h : s.writeMem ctx g size key bs = .ok t) :
    t.mem = s.mem.setBytes key (s.landed g size key bs) ∧ t.fronts = s.fronts ∧ t.cores = s.cores ∧ t.ctxs = s.ctxs ∧
    t.regions = s.regions ∧ t.fid = s.fid ∧ t.slot = s.slot ∧ t.cycle = s.cycle ∧ t.late = s.late ∧ t.arg = s.arg ∧
    t.agenda = s.agenda := by
  unfold State.writeMem at h
  split at h
  · exact nomatch h
  · cases h; exact ⟨rfl, rfl, rfl, rfl, rfl, rfl, rfl, rfl, rfl, rfl, rfl⟩

theorem State.writeMem_memOk {s t : State} {ctx g size key : Nat} {bs : List Byte} (h : s.writeMem ctx g size key bs = .ok t)
    (hs : s.MemOk) : t.MemOk := by
  unfold State.MemOk
  rw [(State.writeMem_spec h).1]
  exact Table.wf_setBytes _ _ _ hs

theorem State.writeMem_bytes {s t : State} {ctx g size key : Nat} {bs : List Byte} (h : s.writeMem ctx g size key bs = .ok t)
    (hr : ∀ j, j < bs.length → s.lands g size (key + j) = true) : t.mem.bytes key bs.length = bs := by
  rw [(State.writeMem_spec h).1, State.landed_lands s g size key bs hr, Table.bytes_setBytes]

theorem State.writeMem_frame {s t : State} {ctx g size key : Nat} {bs : List Byte} (h : s.writeMem ctx g size key bs = .ok t)
    (j : Nat) (hj : j < key ∨ key + bs.length ≤ j) : t.mem.get 0 j = s.mem.get 0 j := by
  rw [(State.writeMem_spec h).1]
  exact Table.get_setBytes_ne _ _ _ _ (by rw [State.landed_length]; exact hj)

theorem State.modifyWord_memOk {s t : State} {ctx g n key old : Nat} {sync : Bool} {f : Nat → Option Nat}
    (h : s.modifyWord ctx g n key sync f = .ok (old, t)) (hs : s.MemOk) : t.MemOk := by
  unfold State.modifyWord at h
  cases sync <;> simp only [if_true, if_false, Bool.false_eq_true] at h <;>
  · split at h
    · exact nomatch h
    · split at h
      · cases h; exact hs
      · split at h
        · exact nomatch h
        · next hw =>
          cases h
          have := State.writeMem_memOk hw (hs.of_eq rfl)
          exact this

/-! Stores and the commit -/

/-- A store that is performed is the write, to bytes all of which can be read. -/
theorem State.storeMem_spec {s t : State} {size key : Nat} {d : List Byte} (h : s.storeMem size key d = .ok t) :
    s.writeMem s.ctx s.agent size key d = .ok t ∧ s.poisoned key d.length = false := by
  unfold State.storeMem at h
  split at h
  · exact nomatch h
  · next hw =>
    split at h
    · exact nomatch h
    · next hp => cases h; exact ⟨hw, by simpa using hp⟩

theorem performStore_memOk {s t : State} {size va : Nat} {p : Piece} {d : List Byte}
    (h : performStore s size va p d = .ok t) (hs : s.MemOk) : t.MemOk := by
  unfold performStore at h
  split at h
  · cases h; exact hs
  · split at h
    · next hw => cases h; exact State.writeMem_memOk (State.storeMem_spec hw).1 hs
    · exact nomatch h

theorem performPieces_memOk {size va : Nat} (ps : List Piece) {d : List Byte} {s t : State}
    (h : performPieces s size va ps d = .ok t) (hs : s.MemOk) : t.MemOk := by
  induction ps generalizing s d with
  | nil => cases h; exact hs
  | cons p ps ih =>
    unfold performPieces at h
    split at h
    · exact nomatch h
    · next hp => exact ih h (performStore_memOk hp hs)

theorem commitGlobal_memOk {s t : State} {va key size : Nat} {d : List Byte} {pc : Word}
    (h : commitGlobal s va key size d pc = .ok t) (hs : s.MemOk) : t.MemOk := by
  unfold commitGlobal at h
  split at h
  · cases h; exact hs
  · split at h
    · split at h
      · exact nomatch h
      · next hw => cases h; exact State.writeMem_memOk (State.storeMem_spec hw).1 hs
    · split at h
      · split at h <;> exact nomatch h
      · exact nomatch h

/-- What the Gauges read changes no memory. -/
theorem State.gaugeReads_mem (s : State) : s.gaugeReads.mem = s.mem := by unfold State.gaugeReads; split <;> rfl

/-- A commit of local bytes leaves global memory alone. -/
theorem commitLocal_mem {s t : State} {a : Nat} {d : List Byte} (h : commitLocal s a d = .ok t) : t.mem = s.mem := by
  unfold commitLocal at h
  split at h
  · exact nomatch h
  · cases h; rfl

theorem commitOne_memOk {s t : State} {b : Buffered} (h : commitOne s b = .ok t) (hs : s.MemOk) : t.MemOk := by
  match b, h with
  | .global .., h => exact commitGlobal_memOk h hs
  | .local .., h => exact hs.of_eq (commitLocal_mem h)
  | .part true .., h => exact hs.of_eq (commitLocal_mem h)
  | .part false .., h =>
    simp only [commitOne] at h
    split at h
    · exact nomatch h
    · exact commitGlobal_memOk h hs
  | .swatch .., h =>
    simp only [commitOne] at h
    split at h <;> cases h <;> exact hs

theorem commitAll_memOk (bs : List Buffered) {s t : State} (h : commitAll s bs = .ok t) (hs : s.MemOk) : t.MemOk := by
  induction bs generalizing s with
  | nil => cases h; exact hs
  | cons b bs ih =>
    unfold commitAll at h
    split at h
    · exact nomatch h
    · next hb => exact ih h ((commitOne_memOk hb hs).of_eq (State.gaugeReads_mem _))

theorem State.keepLeases_mem (s : State) (ls : List Lease) : (s.keepLeases ls).mem = s.mem := by
  unfold State.keepLeases; split <;> rfl

/-- The commit of a strip keeps memory canonical. -/
theorem commitStrip_memOk {s t : State} (h : commitStrip s = .ok t) (hs : s.MemOk) : t.MemOk := by
  unfold commitStrip at h
  split at h
  · cases h; exact hs
  · split at h
    · exact nomatch h
    · split at h
      · exact nomatch h
      · split at h
        · exact nomatch h
        · next hc =>
          cases h
          exact (commitAll_memOk _ hc (hs.of_eq rfl)).of_eq (State.keepLeases_mem _ _)

/-- Rolling back writes no global memory. -/
theorem rollback_mem (s : State) : (rollback s).mem = s.mem := rfl

theorem checkpoint_mem (s : State) : (checkpoint s).mem = s.mem := by unfold checkpoint; split <;> rfl

/-! Storage that is given whole -/

theorem State.zeroPatch_memOk (s : State) (p : Nat) (hs : s.MemOk) : (s.zeroPatch p).MemOk := Table.wf_clear 0 _ _ _ hs

theorem State.placeGranule_memOk (s : State) (ctx : Nat) (g : Granule) (hs : s.MemOk) : (s.placeGranule ctx g).MemOk :=
  Table.wf_foldl_set _ _ _ (Table.wf_clear 0 _ _ _ hs)

/-! The device's writes of its own accord, and the regions' lives (03 R22-R51; 12 R232-R240) -/

theorem State.post_mem (s : State) (op ctx region : Nat) (a0 a1 : Word) : (s.post op ctx region a0 a1).mem = s.mem := by
  unfold State.post; split
  · split <;> rfl
  · rfl

theorem State.post_memOk (s : State) (op ctx region : Nat) (a0 a1 : Word) (hs : s.MemOk) :
    (s.post op ctx region a0 a1).MemOk := hs.of_eq (s.post_mem op ctx region a0 a1)

theorem State.deviceWrite_memOk (s : State) (ctx va : Nat) (bs : List Byte) (hs : s.MemOk) : (s.deviceWrite ctx va bs).MemOk := by
  unfold State.deviceWrite; split
  · exact State.forcePieces_memOk _ _ _ _ _ _ hs
  · exact hs

theorem State.writeFields_memOk (ctx base : Nat) (fs : List (Nat × Nat × Nat)) (s : State) (hs : s.MemOk) :
    (s.writeFields ctx base fs).MemOk := by
  induction fs generalizing s with
  | nil => exact hs
  | cons f fs ih => exact ih _ (s.deviceWrite_memOk ctx _ _ hs)

theorem State.putRegion_memOk (s : State) (k : Nat) (R : Region) (hs : s.MemOk) : (s.putRegion k R).MemOk :=
  State.writeFields_memOk _ _ _ _ (hs.of_eq rfl)

theorem State.ringPush_memOk (s : State) (k : Nat) (c : CR) (img : List Byte) (hs : s.MemOk) : (s.ringPush k c img).MemOk :=
  State.putRegion_memOk _ _ _ (State.deviceWrite_memOk _ _ _ _ hs)

theorem State.pushReady_memOk (s : State) (k : Nat) (c : CR) (img : List Byte) (hs : s.MemOk) : (s.pushReady k c img).MemOk :=
  (State.ringPush_memOk s k c img hs).of_eq rfl

theorem State.pushHead_memOk (s : State) (k : Nat) (c : CR) (hs : s.MemOk) : (s.pushHead k c).MemOk :=
  State.putRegion_memOk _ _ _ (State.deviceWrite_memOk _ _ _ _ hs)

theorem State.park_memOk (s : State) (k : Nat) (c : CR) (img : List Byte) (hs : s.MemOk) : (s.park k c img).MemOk :=
  (State.ringPush_memOk s k c img hs).of_eq rfl

theorem State.cacheLeaf_mem (s : State) (f ctx : Nat) (acc : Acc) (priv : Bool) (va : Nat) :
    (cacheLeaf s f ctx acc priv va).mem = s.mem := by
  unfold cacheLeaf; split
  · rfl
  · split <;> rfl

theorem State.joinAt_memOk {s t : State} {f ctx g va old : Nat} {priv : Bool} (h : s.joinAt f ctx g priv va = .ok (old, t))
    (hs : s.MemOk) : t.MemOk := by
  unfold State.joinAt at h
  split at h
  · exact nomatch h
  · split at h
    · exact nomatch h
    · split at h
      · exact nomatch h
      · next hm =>
        have := State.modifyWord_memOk hm (hs.of_eq (State.cacheLeaf_mem ..))
        cases h
        split
        · exact this.of_eq rfl
        · exact this

theorem State.deviceJoin_memOk (s : State) (ctx va : Nat) (hs : s.MemOk) : (s.deviceJoin ctx va).MemOk := by
  unfold State.deviceJoin; split
  · exact hs
  · split
    · next h => exact State.joinAt_memOk h hs
    · exact hs

theorem State.closeRegion_memOk (s : State) (k status : Nat) (hs : s.MemOk) : (s.closeRegion k status).MemOk :=
  State.deviceJoin_memOk _ _ _ ((State.putRegion_memOk _ _ _ hs).of_eq rfl)

theorem State.checkComplete_memOk (s : State) (k : Nat) (hs : s.MemOk) : (s.checkComplete k).MemOk := by
  unfold State.checkComplete; dsimp only; split
  · exact State.closeRegion_memOk _ _ _ hs
  · exact hs

theorem State.giveWeight_memOk (s : State) (k : Nat) (w : Word) (hs : s.MemOk) : (s.giveWeight k w).MemOk :=
  State.putRegion_memOk _ _ _ hs

theorem State.withdraw_memOk (s : State) (k : Nat) (tag mask : BitVec 32) (hs : s.MemOk) : (s.withdraw k tag mask).2.MemOk := by
  unfold State.withdraw; dsimp only; split
  · exact hs
  · exact State.checkComplete_memOk _ _ (State.giveWeight_memOk _ _ _ (State.putRegion_memOk _ _ _ hs))

theorem State.freeSave_mem (s : State) (id : Nat) : (s.freeSave id).mem = s.mem := by
  unfold State.freeSave; split <;> rfl

theorem State.freeSaves_mem (cs : List CR) (s : State) : (s.freeSaves cs).mem = s.mem := by
  induction cs generalizing s with
  | nil => rfl
  | cons c cs ih => rw [State.freeSaves, ih, State.freeSave_mem]

theorem State.clearFront_mem (s : State) (f : Nat) : (s.clearFront f).mem = s.mem := rfl
theorem State.addPool_mem (s : State) (t : Nat) (w : Word) : (s.addPool t w).mem = s.mem := rfl

theorem State.stopRuns_mem (t : Nat) (fs : List Nat) (s : State) : (s.stopRuns t fs).mem = s.mem := by
  induction fs generalizing s with
  | nil => rfl
  | cons f fs ih => rw [State.stopRuns, ih, State.freeSave_mem]; rfl

/-- Taking back an EXIT may push a CR into its ring. -/
theorem State.undrain_memOk (s : State) (f : Nat) (hs : s.MemOk) : (s.undrain f).MemOk := by
  unfold State.undrain; dsimp only; split
  · exact hs
  · split
    · exact hs
    · exact State.pushHead_memOk _ _ _ hs

theorem State.undrains_memOk (fs : List Nat) (s : State) (hs : s.MemOk) : (fs.foldl State.undrain s).MemOk := by
  induction fs generalizing s with
  | nil => exact hs
  | cons f fs ih => exact ih _ (State.undrain_memOk s f hs)

/-- Ending a ticket publishes nothing of its output, which stays in its shadow. -/
theorem State.killTicket_memOk (s : State) (t : Nat) (st : TicketSt) (cause : BitVec 8) (first : BitVec 32) (hs : s.MemOk) :
    (s.killTicket t st cause first).MemOk := by
  unfold State.killTicket; dsimp only; split
  · unfold State.MemOk
    rw [State.stopRuns_mem, State.dropQueued, State.freeSaves_mem]
    exact State.undrains_memOk _ _ (hs.of_eq rfl)
  · exact hs

theorem State.killChildren_memOk (p : Nat) (st : TicketSt) (ts : List (Nat × Ticket)) (s : State) (hs : s.MemOk) :
    (s.killChildren p st ts).MemOk := by
  induction ts generalizing s with
  | nil => exact hs
  | cons e ts ih =>
    rw [State.killChildren]; apply ih; split
    · exact State.killTicket_memOk _ _ _ _ _ (hs.of_eq rfl)
    · exact hs

theorem State.squash_memOk (s : State) (t : Nat) (cause : BitVec 8) (first : BitVec 32) (hs : s.MemOk) :
    (s.squash t cause first).MemOk := State.killChildren_memOk _ _ _ _ (State.killTicket_memOk _ _ _ _ _ hs)

theorem State.abandon_memOk (s : State) (t : Nat) (cause : BitVec 8) (hs : s.MemOk) : (s.abandon t cause).MemOk :=
  State.killChildren_memOk _ _ _ _ (State.killTicket_memOk _ _ _ _ _ hs)

theorem State.pushHeld_memOk (k : Nat) (cs : List CR) (s : State) (hs : s.MemOk) : (s.pushHeld k cs).MemOk := by
  induction cs generalizing s with
  | nil => exact hs
  | cons c cs ih => exact ih _ (State.pushReady_memOk _ _ _ _ hs)

theorem State.releaseHeld_memOk (p : Nat) (ts : List (Nat × Ticket)) (s : State) (hs : s.MemOk) : (s.releaseHeld p ts).MemOk := by
  induction ts generalizing s with
  | nil => exact hs
  | cons e ts ih =>
    rw [State.releaseHeld]; apply ih; split
    · exact State.pushHeld_memOk _ _ _ (hs.of_eq rfl)
    · exact hs

theorem State.checkDone_memOk (s : State) (t : Nat) (hs : s.MemOk) : (s.checkDone t).MemOk := by
  unfold State.checkDone; dsimp only; split
  · exact State.releaseHeld_memOk _ _ _ (hs.of_eq rfl)
  · exact hs

theorem State.abandonAll_memOk (k : Nat) (ts : List (Nat × Ticket)) (s : State) (hs : s.MemOk) : (s.abandonAll k ts).MemOk := by
  induction ts generalizing s with
  | nil => exact hs
  | cons e ts ih =>
    rw [State.abandonAll]; apply ih; split
    · exact State.abandon_memOk _ _ _ hs
    · exact hs

theorem State.beginFail_memOk (s : State) (k : Nat) (hs : s.MemOk) : (s.beginFail k).MemOk := by
  unfold State.beginFail; dsimp only; split
  · exact hs
  · refine State.abandonAll_memOk _ _ _ (State.withdraw_memOk _ k 0 0 ?_)
    exact hs

theorem State.failRegion_memOk (s : State) (k : Nat) (hs : s.MemOk) : (s.failRegion k).MemOk := by
  unfold State.failRegion
  generalize s.descendants s.regions.length k ++ [k] = l
  induction l generalizing s with
  | nil => exact hs
  | cons e l ih => exact ih _ (State.beginFail_memOk s e hs)

theorem State.terminateIn_memOk (s : State) (k : Nat) (hs : s.MemOk) : (s.terminateIn k).MemOk := by
  unfold State.terminateIn; dsimp only; split
  · exact hs
  · split
    · exact State.failRegion_memOk _ _ hs
    · exact State.checkComplete_memOk _ _ (State.putRegion_memOk _ _ _ hs)

theorem State.settle_memOk (n : Nat) (s : State) (hs : s.MemOk) : (s.settle n).MemOk := by
  induction n generalizing s with
  | zero => exact hs
  | succ n ih =>
    unfold State.settle; split
    · exact hs
    · apply ih; split
      · exact State.post_memOk _ _ _ _ _ _ (State.closeRegion_memOk _ _ _ hs)
      · exact State.terminateIn_memOk _ _ (State.closeRegion_memOk _ _ _ hs)

theorem State.settled_memOk (s : State) (hs : s.MemOk) : s.settled.MemOk := State.settle_memOk _ _ hs

/-- The end of a CR keeps memory canonical. -/
theorem State.endRun_memOk (s : State) (r : Run) (hs : s.MemOk) : (s.endRun r).MemOk := by
  have h : (s.freeSave r.cr.save).MemOk := hs.of_eq (State.freeSave_mem ..)
  unfold State.endRun; dsimp only; split
  · exact State.settled_memOk _ (State.checkDone_memOk _ _ (h.of_eq rfl))
  · exact State.settled_memOk _ (State.checkComplete_memOk _ _ (State.giveWeight_memOk _ _ _ h))

theorem State.endCr_memOk (s : State) (f : Nat) (hs : s.MemOk) : (s.endCr f).MemOk := State.endRun_memOk _ _ (hs.of_eq rfl)

/-- So does a termination. -/
theorem State.terminate_memOk (s : State) (f cause : Nat) (hs : s.MemOk) : (s.terminate f cause).MemOk := by
  have h : ((s.clearFront f).freeSave (s.frontAt f).theRun.cr.save).MemOk := hs.of_eq (State.freeSave_mem ..)
  unfold State.terminate; dsimp only; split
  · exact State.settled_memOk _ (State.squash_memOk _ _ _ _ (h.of_eq rfl))
  · split
    · exact State.settled_memOk _ (State.failRegion_memOk _ _ (State.putRegion_memOk _ _ _ h))
    · exact State.settled_memOk _ (State.checkComplete_memOk _ _ (State.putRegion_memOk _ _ _ h))

/-! Traps and the runs of an instruction -/

theorem trapRegs_mem (s : State) (cause val : Nat) (pc : Word) (async : Bool) : (trapRegs s cause val pc async).mem = s.mem := by
  unfold trapRegs; dsimp only; cases s.priv <;> rfl

theorem doubleTrap_memOk (s : State) (cause : Nat) (hs : s.MemOk) : (doubleTrap s cause).MemOk :=
  State.terminate_memOk _ _ _ (State.post_memOk _ _ _ _ _ _ hs)

theorem goToHandler_mem (s : State) (cause : Nat) : (goToHandler s cause).mem = s.mem := by
  unfold goToHandler; dsimp only; split <;> rfl

/-- Taking a trap keeps memory canonical: it writes the fault record alone, or ends the CR. -/
theorem takeTrapWith_memOk (s : State) (cause val : Nat) (pc : Word) (async : Bool) (ecomp eseq : Nat) (hs : s.MemOk) :
    (takeTrapWith s cause val pc async ecomp eseq).MemOk := by
  have h1 := hs.of_eq (trapRegs_mem s cause val pc async)
  unfold takeTrapWith; dsimp only
  split
  · exact hs
  generalize trapRegs s cause val pc async = s1 at h1 ⊢
  split
  · exact doubleTrap_memOk _ _ h1
  · split
    · exact doubleTrap_memOk _ _ (State.forcePieces_memOk _ _ _ _ _ _ h1)
    · exact (State.forcePieces_memOk _ _ _ _ _ _ h1).of_eq (goToHandler_mem ..)

theorem returnFromTrap_memOk (s : State) (hs : s.MemOk) : (returnFromTrap s).MemOk := hs.of_eq rfl

theorem halt_memOk (i : Instr) (s : State) (e : Stop) (hs : s.MemOk) : (halt i s e).MemOk := by
  cases e with
  | trap c v => exact takeTrapWith_memOk _ _ _ _ _ _ _ hs
  | trapAt c v pc => exact takeTrapWith_memOk _ _ _ _ _ _ _ hs
  | wait w => exact hs.of_eq rfl
  | rerun => exact hs.of_eq rfl

/-- Work of `M` that keeps memory canonical. -/
def KeepsMem {α : Type} (m : M α) : Prop := ∀ s a t, m s = .ok (a, t) → s.MemOk → t.MemOk

theorem KeepsMem.pure {α : Type} (a : α) : KeepsMem (Pure.pure a : M α) := fun _ _ _ h hs => by cases h; exact hs
theorem KeepsMem.stop {α : Type} (x : Stop) : KeepsMem (Machine.stop x : M α) := fun _ _ _ h _ => nomatch h
theorem KeepsMem.look {α : Type} (f : State → α) : KeepsMem (Machine.look f) := fun _ _ _ h hs => by cases h; exact hs
theorem KeepsMem.update (f : State → State) (hf : ∀ s, s.MemOk → (f s).MemOk) : KeepsMem (Machine.update f) :=
  fun _ _ _ h hs => by cases h; exact hf _ hs
theorem KeepsMem.ite {α : Type} {m n : M α} (b : Prop) [Decidable b] (hm : KeepsMem m) (hn : KeepsMem n) :
    KeepsMem (if b then m else n) := by split <;> assumption

theorem KeepsMem.bind {α β : Type} {m : M α} {f : α → M β} (hm : KeepsMem m) (hf : ∀ a, KeepsMem (f a)) : KeepsMem (m >>= f) := by
  intro s b t h hs
  simp only [Bind.bind, StateT.bind, Except.bind] at h
  split at h
  · exact nomatch h
  · next p hp => exact hf p.1 _ _ _ h (hm _ _ _ hp hs)

/-- The next state of a plain instruction is canonical when its work is. -/
theorem plain_memOk {i : Instr} {m : M Unit} {s t : State} (hm : KeepsMem m) (hs : s.MemOk) (h : plain i m s = .next t) :
    t.MemOk := by
  unfold plain at h
  split at h
  · next p => cases h; exact (hm _ _ _ p hs).of_eq rfl
  · cases h; exact halt_memOk _ _ _ hs

theorem jumping_memOk {i : Instr} {m : M Word} {s t : State} (hm : KeepsMem m) (hs : s.MemOk) (h : jumping i m s = .next t) :
    t.MemOk := by
  unfold jumping at h
  split at h
  · next p => cases h; exact (hm _ _ _ p hs).of_eq rfl
  · cases h; exact halt_memOk _ _ _ hs

theorem irrevocable_memOk {i : Instr} {early m : M Unit} {s t : State} (he : KeepsMem early) (hm : KeepsMem m) (hs : s.MemOk)
    (h : irrevocable i early m s = .next t) : t.MemOk := by
  unfold irrevocable at h
  split at h
  · cases h; exact halt_memOk _ _ _ hs
  · next p =>
    have h0 := he _ _ _ p hs
    split at h
    · cases h; exact halt_memOk _ _ _ h0
    · next c =>
      have h1 := (commitStrip_memOk c h0).of_eq (checkpoint_mem _)
      dsimp only at h
      split at h
      · cases h; exact halt_memOk _ _ _ h1
      · next p2 =>
        split at h
        · cases h; exact halt_memOk _ _ _ h1
        · next c2 =>
          cases h
          exact (commitStrip_memOk c2 ((hm _ _ _ p2 h1).of_eq rfl)).of_eq (checkpoint_mem _)

end Sys2Proof.Machine
end

