-- ==== Sys2Proof/Laws/Ops.lean ====
section
/-! SUPPORT. One law for each shared operation of the instructions, saying once all that it can do: how work of `M` is put together,
sources and destinations, running an instruction, committing a strip that holds nothing, taking a trap and returning from one. -/

namespace Sys2Proof.Machine

/-! Work -/

variable {α β : Type}

/-- Work that answers goes on with its value and state. -/
theorem M.bind_ok {m : M α} {f : α → M β} {s t : State} {a : α} (h : m s = .ok (a, t)) : (m >>= f) s = f a t := by
  simp [Bind.bind, StateT.bind, Except.bind, h]

/-- Work that stops is not gone on with. -/
theorem M.bind_error {m : M α} {f : α → M β} {s : State} {e : Stop} (h : m s = .error e) : (m >>= f) s = .error e := by
  simp [Bind.bind, StateT.bind, Except.bind, h]

@[simp] theorem M.pure_apply (a : α) (s : State) : (pure a : M α) s = .ok (a, s) := rfl
@[simp] theorem M.look_apply (f : State → α) (s : State) : look f s = .ok (f s, s) := rfl
@[simp] theorem M.update_apply (f : State → State) (s : State) : update f s = .ok ((), f s) := rfl
@[simp] theorem M.stop_apply (x : Stop) (s : State) : (stop x : M α) s = .error x := rfl
@[simp] theorem M.trap_apply (c v : Nat) (s : State) : (trap c v : M α) s = .error (.trap c v) := rfl
@[simp] theorem M.getX_apply (k : Reg) (s : State) : getX k s = .ok (s.regs.getX k, s) := rfl

/-- A check that does not fire changes nothing. -/
@[simp] theorem trapIf_false (c v : Nat) (s : State) : trapIf false c v s = .ok ((), s) := rfl
@[simp] theorem trapIf_true (c v : Nat) (s : State) : trapIf true c v s = .error (.trap c v) := rfl
@[simp] theorem waitIf_false (w : Wait) (s : State) : waitIf false w s = .ok ((), s) := rfl
@[simp] theorem waitIf_true (w : Wait) (s : State) : waitIf true w s = .error (.wait w) := rfl

/-- A bind over one operation that answers, as an equation for rewriting. -/
@[simp] theorem M.bind_look (f : State → α) (g : α → M β) (s : State) : (look f >>= g) s = g (f s) s := M.bind_ok rfl
@[simp] theorem M.bind_update (f : State → State) (g : Unit → M β) (s : State) : (update f >>= g) s = g () (f s) := M.bind_ok rfl
@[simp] theorem M.bind_getX (k : Reg) (g : Word → M β) (s : State) : (getX k >>= g) s = g (s.regs.getX k) s := M.bind_ok rfl
@[simp] theorem M.bind_pure (a : α) (g : α → M β) (s : State) : ((pure a : M α) >>= g) s = g a s := M.bind_ok rfl

/-! Sources and destinations (04 R68, R69; 15 R285) -/

@[simp] theorem Src.empty_x (s : State) (p : Bool) (k : Reg) : (Src.x p k).empty s = s.regs.emptyX k := rfl

/-- Sources that are full let the instruction go on, and change nothing. -/
theorem sources_full {l : List Src} {s : State} (h : ∀ x ∈ l, x.empty s = false) : sources l s = .ok ((), s) := by
  have h1 : l.find? (fun x => x.policy && x.empty s) = none := List.find?_eq_none.2 (fun x hx => by simp [h x hx])
  have h2 : l.find? (fun x => x.empty s) = none := List.find?_eq_none.2 (fun x hx => by simp [h x hx])
  simp [sources, h1, h2]

/-- With an empty source the instruction traps EMPTYSRC for one whose policy says so, or waits. -/
theorem sources_empty {l : List Src} {s : State} {x : Src} (hx : x ∈ l) (he : x.empty s = true) :
    (∃ y ∈ l, y.policy = true ∧ y.empty s = true ∧ sources l s = .error (.trap Cause.emptysrc y.number)) ∨
    ((∀ y ∈ l, y.empty s = true → y.policy = false) ∧
      ∃ y ∈ l, y.empty s = true ∧ sources l s = .error (.wait (y.wait s))) := by
  cases h : l.find? (fun x => x.policy && x.empty s) with
  | some y =>
    have hp := List.find?_some h
    simp only [Bool.and_eq_true] at hp
    exact .inl ⟨y, List.mem_of_find?_eq_some h, hp.1, hp.2, by simp [sources, h]⟩
  | none =>
    have hn := List.find?_eq_none.1 h
    cases h2 : l.find? (fun x => x.empty s) with
    | none => exact absurd he (List.find?_eq_none.1 h2 x hx)
    | some y =>
      exact .inr ⟨fun z hz hze => by have := hn z hz; simpa [hze] using this,
        y, List.mem_of_find?_eq_some h2, List.find?_some h2, by simp [sources, h, h2]⟩

/-- A full destination takes the value. -/
theorem putX_full {k : Reg} {s : State} (v : Word) (h : s.regs.emptyX k = false) :
    putX k v s = .ok ((), s.setRegs (s.regs.setX k v)) := by simp [putX, h]

/-- An empty destination waits for its fill. -/
theorem putX_empty {k : Reg} {s : State} (v : Word) (h : s.regs.emptyX k = true) : putX k v s = .error (.wait .register) := by
  simp [putX, h]

/-- A producer that is not late, or runs in privileged mode, or names x0, fills its destination at once. -/
theorem fillX_now {k : Reg} {s : State} (v : Word) (h : s.regs.emptyX k = false)
    (hl : ¬ (s.late = true ∧ k ≠ 0 ∧ s.priv = false)) : fillX k v s = .ok ((), s.setRegs (s.regs.setX k v)) := by
  simp only [fillX, h, Bool.false_eq_true, if_false, if_neg hl]

/-! Running an instruction -/

theorem plain_ok {i : Instr} {body : M Unit} {s t : State} (h : body s = .ok ((), t)) : plain i body s = .next (t.advance i.size) := by
  simp [plain, h]

theorem plain_error {i : Instr} {body : M Unit} {s : State} {e : Stop} (h : body s = .error e) : plain i body s = .next (halt i s e) := by
  simp [plain, h]

theorem jumping_ok {i : Instr} {body : M Word} {s t : State} {pc : Word} (h : body s = .ok (pc, t)) :
    jumping i body s = .next (t.goTo pc) := by
  simp [jumping, h]

theorem jumping_error {i : Instr} {body : M Word} {s : State} {e : Stop} (h : body s = .error e) :
    jumping i body s = .next (halt i s e) := by
  simp [jumping, h]

/-- Two full x sources and a full destination: the value is written and the hart passes. -/
theorem alu2_full {i : Instr} {p q : Bool} {b a d : Reg} {f : Word → Word → Word} {s : State} (ha : s.regs.emptyX a = false)
    (hb : s.regs.emptyX b = false) (hd : s.regs.emptyX d = false) :
    alu2 i p q b a d f s = .next ((s.setRegs (s.regs.setX d (f (s.regs.getX a) (s.regs.getX b)))).advance i.size) := by
  apply plain_ok
  rw [M.bind_ok (sources_full (by simp [ha, hb])), M.bind_getX, M.bind_getX]
  exact putX_full _ hd

/-- One full x source and a full destination. -/
theorem alu1_full {i : Instr} {p : Bool} {a d : Reg} {f : Word → Word} {s : State} (ha : s.regs.emptyX a = false)
    (hd : s.regs.emptyX d = false) :
    alu1 i p a d f s = .next ((s.setRegs (s.regs.setX d (f (s.regs.getX a)))).advance i.size) := by
  apply plain_ok
  rw [M.bind_ok (sources_full (by simp [ha])), M.bind_getX]
  exact putX_full _ hd

/-- A compressed form with LAST and a second register. -/
theorem compressed2_full {i : Instr} {a b d : Reg} {f : Word → Word → Word} {s : State} (hl : lastX s.regs = some a)
    (ha : s.regs.emptyX a = false) (hb : s.regs.emptyX b = false) (hd : s.regs.emptyX d = false) :
    compressed2 i b d f s = .next ((s.setRegs (s.regs.setX d (f (s.regs.getX a) (s.regs.getX b)))).advance i.size) := by
  apply plain_ok
  have h : needLast i lastX s = .ok (a, s) := by simp [needLast, hl]
  rw [M.bind_ok h, M.bind_ok (sources_full (by simp [ha, hb])), M.bind_getX, M.bind_getX]
  exact putX_full _ hd

/-- A compressed form with LAST and an immediate. -/
theorem compressed1_full {i : Instr} {a d : Reg} {f : Word → Word} {s : State} (hl : lastX s.regs = some a)
    (ha : s.regs.emptyX a = false) (hd : s.regs.emptyX d = false) :
    compressed1 i d f s = .next ((s.setRegs (s.regs.setX d (f (s.regs.getX a)))).advance i.size) := by
  apply plain_ok
  have h : needLast i lastX s = .ok (a, s) := by simp [needLast, hl]
  rw [M.bind_ok h, M.bind_ok (sources_full (by simp [ha])), M.bind_getX]
  exact putX_full _ hd

/-- Without LAST a compressed form traps NOLAST with its bits (15 R300). -/
theorem needLast_none {i : Instr} {f : Regs → Option Reg} {s : State} (h : f s.regs = none) :
    needLast i f s = .error (.trap Cause.nolast i.bits.toNat) := by simp [needLast, h]

/-! Commit of a strip that holds nothing (04 R70-R76) -/

/-- Privileged mode has no strip to commit. -/
theorem commitStrip_priv {s : State} (h : s.priv = true) : commitStrip s = .ok s := by simp [commitStrip, h]

/-- A strip with no buffered write and no lease commits, unless it runs ahead of a CR whose queue drains (R81): its counters and its
pops are forgotten, and the fills under way are its own no more. -/
theorem commitStrip_empty {s : State} (hp : s.priv = false) (hd : s.front.drain = none) (hb : s.hart.buf = [])
    (hr : s.hart.reads = []) :
    commitStrip s = .ok (s.setHart { s.hart with
      buf := [], reads := [], reruns := 0, holds := false, blockedOn := none, popped := [],
      fills := s.hart.fills.map Fill.age }) := by
  simp [commitStrip, commitWaits, hp, hd, hb, hr, hasGlobal, hasLocal, leasesHold, commitAll, State.dropBuffer, State.keepLeases,
    Hart.committed]

theorem checkpoint_priv {s : State} (h : s.priv = true) : checkpoint s = s := by simp [checkpoint, h]

/-- An irrevocable instruction whose early checks pass, with what its two commits and its work answer. -/
theorem irrevocable_ok {i : Instr} {early body : M Unit} {s s0 s1 s2 s3 : State} (he : early s = .ok ((), s0))
    (h0 : commitStrip s0 = .ok s1) (h1 : body (checkpoint s1) = .ok ((), s2)) (h2 : commitStrip (s2.advance i.size) = .ok s3) :
    irrevocable i early body s = .next (checkpoint s3) := by
  simp [irrevocable, he, h0, h1, h2]

/-- An irrevocable instruction whose work stops has committed the strip before it. -/
theorem irrevocable_error {i : Instr} {early body : M Unit} {s s0 s1 : State} {e : Stop} (he : early s = .ok ((), s0))
    (h0 : commitStrip s0 = .ok s1) (h1 : body (checkpoint s1) = .error e) :
    irrevocable i early body s = .next (halt i (checkpoint s1) e) := by
  simp [irrevocable, he, h0, h1]

/-- A trap of the encoding is taken before the commit. -/
theorem irrevocable_early {i : Instr} {early body : M Unit} {s : State} {e : Stop} (he : early s = .error e) :
    irrevocable i early body s = .next (halt i s e) := by
  simp [irrevocable, he]

/-- In privileged mode an irrevocable instruction runs its work alone. -/
theorem irrevocable_priv {i : Instr} {early body : M Unit} {s t : State} (hp : s.priv = true) (he : early s = .ok ((), s))
    (hb : body s = .ok ((), t)) (hh : (t.advance i.size).priv = true) :
    irrevocable i early body s = .next (t.advance i.size) := by
  rw [irrevocable_ok he (commitStrip_priv hp) (by rw [checkpoint_priv hp]; exact hb) (commitStrip_priv hh), checkpoint_priv hh]

/-! Traps (13 R244-R246) -/

theorem returnPopped_run (F : Front) (l : List (Nat × QEntry)) : (returnPopped F l).run = F.run := by
  induction l with
  | nil => rfl
  | cons e l ih => exact ih

/-- A rollback changes no role. -/
theorem rollback_role (s : State) : (rollback s).role = s.role := by
  have h : (rollback s).run = s.run := by
    simp [rollback, State.run, Front.theRun, returnPopped_run]
  simp only [State.role, State.pair, h]
  rfl

/-- The trap registers after a trap begins. -/
theorem trapRegs_hart (s : State) (cause val : Nat) (pc : Word) (async : Bool) :
    let h := (trapRegs s cause val pc async).hart
    h.tcause = BitVec.ofNat 8 cause ∧ h.tval = BitVec.ofNat 64 val ∧ h.tpc = pc &&& ~~~1#64 ∧ h.tasync = async ∧ h.priv = true ∧
    h.wait = .none ∧ h.trole = BitVec.ofNat 2 s.role := by
  cases h : s.priv <;> simp [trapRegs, h, rollback_role]

/-- In privileged mode a trap changes no register of the program. -/
theorem trapRegs_regs_priv {s : State} (h : s.priv = true) (cause val : Nat) (pc : Word) (async : Bool) :
    (trapRegs s cause val pc async).regs = s.regs := by
  unfold trapRegs State.regs; simp [h]

/-- Otherwise the strip is rolled back: the registers are those of the checkpoint, and its stores are gone. -/
theorem trapRegs_rolled {s : State} (h : s.priv = false) (cause val : Nat) (pc : Word) (async : Bool) :
    (trapRegs s cause val pc async).regs = s.hart.ckpt ∧ (trapRegs s cause val pc async).hart.buf = [] := by
  simp [trapRegs, h, rollback, State.regs]

/-- A trap that is not a double trap: the record is written and the hart is at its handler. -/
theorem takeTrapWith_taken {s : State} {cause val : Nat} {pc : Word} {async : Bool} {ecomp eseq : Nat} {ps : List Piece}
    (hp : s.priv = false) (hd : s.front.drain = none)
    (ht : ((trapRegs s cause val pc async).ctxAt (trapRegs s cause val pc async).ctx).tvec.extractLsb' 2 62 ≠ 0)
    (hw : windowPieces (trapRegs s cause val pc async) (trapRegs s cause val pc async).ctx .write
      (trapRegs s cause val pc async).recordAddr 128 = .ok ps) :
    takeTrapWith s cause val pc async ecomp eseq =
      goToHandler ((trapRegs s cause val pc async).forcePieces (trapRegs s cause val pc async).ctx
        (trapRegs s cause val pc async).agent 8 ps
        (faultRecord (trapRegs s cause val pc async) pc cause val (if async then 1 else 0) ecomp eseq)) cause := by
  have h : (s.priv || (trapRegs s cause val pc async |>.ctxAt (trapRegs s cause val pc async).ctx).tvec.extractLsb' 2 62 == 0) = false := by
    rw [hp, Bool.false_or]; exact beq_eq_false_iff_ne.2 ht
  unfold takeTrapWith
  simp only [hd, hw, h, Option.isSome_none, Bool.false_eq_true, if_false, Nat.add_zero]

/-- The handler's address, and the mode there. -/
theorem goToHandler_pc (s : State) (cause : Nat) (hc : cause ≠ Cause.deadlock) :
    (goToHandler s cause).regs.pc = (s.ctxAt s.ctx).tvec &&& ~~~3#64 := by
  unfold goToHandler; simp only [if_neg hc, State.regs_goTo]

/-- A change of a front's execute hart that leaves its mode and its registers leaves those of each hart. -/
theorem Front.hart_stopped (F : Front) (c : Table (List Cmd)) (b : Bool) (sl : Slot) :
    (({ F with chain := c, e := { F.e with stopped := b } } : Front).hart sl).priv = (F.hart sl).priv ∧
    (({ F with chain := c, e := { F.e with stopped := b } } : Front).hart sl).regs = (F.hart sl).regs := by
  cases sl <;> exact ⟨rfl, rfl⟩

/-- RETT leaves privileged mode with the checkpoint's registers. -/
theorem returnFromTrap_hart (s : State) :
    (returnFromTrap s).hart.priv = false ∧ (returnFromTrap s).regs = s.hart.ckpt := by
  unfold returnFromTrap State.regs
  dsimp only
  generalize hu : (rollback s).setHart _ = u
  have h : u.hart.priv = false ∧ u.hart.regs = s.hart.ckpt := by subst hu; simp [rollback]
  split
  · have := Front.hart_stopped u.front (u.front.chain.map (fun e => (e.1, e.2.map (Cmd.returned u.slot)))) false u.slot
    simp only [State.hart, State.front_setFront, State.setFront_slot]
    exact ⟨this.1.trans h.1, this.2.trans h.2⟩
  · have := Front.hart_stopped u.front (u.front.chain.map (fun e => (e.1, e.2.map (Cmd.returned u.slot)))) u.front.e.stopped u.slot
    simp only [State.hart, State.front_setFront, State.setFront_slot]
    exact ⟨this.1.trans h.1, this.2.trans h.2⟩

end Sys2Proof.Machine
end

