-- ==== Sys2Proof/Tests/Slice0.lean ====
section
/-! SUPPORT. Tests of the model on small states: ill-formed terms, decoding, single steps with results worked out from the spec, and
for each statement a state and operands that meet its premises. -/

open Sys2Proof Sys2Proof.Machine Sys2Proof.Claims

namespace Sys2Proof.Tests

set_option Elab.async false

/-! ## Well-formedness: each check refuses a term -/

theorem test_wf_ld : Instr.wf (.ld 0 false 7 1 2) = false ∧ Instr.wf (.ld 0 false 6 1 2) = true := by decide +kernel
theorem test_wf_fcvt : Instr.wf (.fcvt false 0 14 1 2) = false ∧ Instr.wf (.fcvt false 0 13 1 2) = true := by decide +kernel
theorem test_wf_amo : Instr.wf (.amo false false false 9 1 2 3) = false ∧ Instr.wf (.amo false false false 8 1 2 3) = true := by decide +kernel
theorem test_wf_state : Instr.wf (.srd 0x016 1) = false ∧ Instr.wf (.swr 0x0C0 1 2) = false ∧ Instr.wf (.sset 0x10C 1 2) = false ∧
    Instr.wf (.sclr 0x016 1 2) = false ∧ Instr.wf (.srd 0x10B 1) = true := by decide +kernel
theorem test_wf_setvt : Instr.wf (.setvt 5) = false ∧ Instr.wf (.setvt 0x0B) = false ∧ Instr.wf (.setvt 0x0A) = true := by decide +kernel
theorem test_wf_vcmp : Instr.wf (.vcmp false false false 6 1 2 3) = false ∧ Instr.wf (.vcmp false false false 5 1 2 3) = true := by
  decide +kernel
theorem test_wf_fold : Instr.wf (.vscan false false 11 1 2) = false ∧ Instr.wf (.vred false false 11 1 2) = false ∧
    Instr.wf (.vredo false false 11 1 2) = false ∧ Instr.wf (.vred false false 10 1 2) = true := by decide +kernel
theorem test_wf_vfcvt : Instr.wf (.vfcvt false false false 13 1 2) = false ∧ Instr.wf (.vfcvt false false true 0 1 2) = false ∧
    Instr.wf (.vfcvt false false true 16 1 2) = true := by decide +kernel
theorem test_wf_vsf : Instr.wf (.vsf false false 9 1 2) = false ∧ Instr.wf (.vsf false false 8 1 2) = true := by decide +kernel
theorem test_wf_offset : Instr.wf (.vld false false false false false 8 1 2) = false ∧ Instr.wf (.vst false false false false 8 1 2) = false ∧
    Instr.wf (.vldq false false false 8 1 2) = false ∧ Instr.wf (.vstq false false false 8 1 2) = false ∧
    Instr.wf (.vld false false false false false 7 1 2) = true := by decide +kernel
theorem test_wf_kind : Instr.wf (.vsort false false 3 false 1 2) = false ∧ Instr.wf (.vrun false 3 false 1) = false ∧
    Instr.wf (.vrun false 2 false 1) = true := by decide +kernel
theorem test_wf_cMv : Instr.wf (.cMv 0 0) = false ∧ Instr.wf (.cMv 0 1) = true := by decide +kernel
theorem test_wf_tiles : Instr.wf (.tcfg 5 0) = false ∧ Instr.wf (.mopa 5 0 1 2) = false ∧ Instr.wf (.tsacc false 2 2 1 2) = false ∧
    Instr.wf (.tmovr 1 0 1 128) = false ∧ Instr.wf (.tmovc 1 0 1 128) = false ∧ Instr.wf (.tld 0 1 128) = false ∧
    Instr.wf (.tst 0 1 128) = false ∧ Instr.wf (.tst 0 1 127) = true := by decide +kernel

/-! ## Decoding: words of the spec's encodings -/

/-- Bytes, word and instruction: each word decodes to its instruction and nothing is left. -/
def reads (l : List (Nat × Word × Instr)) : Bool :=
  l.all (fun e => match decode (bytesOf e.1 e.2.1) with | .ok (i, []) => decide (i = e.2.2) | _ => false)

/-- Bytes and word: each is refused as no instruction. -/
def refuses (l : List (Nat × Word)) : Bool :=
  l.all (fun e => match decode (bytesOf e.1 e.2) with | .error (.notAnInstruction _) => true | _ => false)

/-- The fates of 15 R304: a halfword of zeros, compressed opcodes 15 and 28, reserved major opcodes, a reserved function, a policy bit over no
register, a shift amount out of range, SZ 111, a store of SZ 100, and a tile opcode from 10 up. -/
theorem test_decode_refused : refuses [(2, 0x0000), (2, 0x001E), (2, 0x0038), (4, 0x00000001), (4, 0x000000C9), (4, 0x0F800005),
    (4, 0x47800005), (4, 0x0100001D), (4, 0x001C2D31), (4, 0x00102035), (8, 0x0000002B)] = true := by decide +kernel

theorem test_decode_sys : reads [
    (4, 0x0218A961, .idle false false 6 5 9),  -- idle x9, x5, x6
    (4, 0x0398A961, .scanrd false false 6 5 9),  -- scanrd x9, x5, x6
    (4, 0x0300A061, .thaw false 5),  -- thaw x5
    (4, 0x041CC061, .tlbinv false false 7 6),  -- tlbinv x6, x7
    (4, 0x00014061, .trap false 10),  -- trap x10
    (4, 0x049CC061, .vpmset false false 7 6),  -- vpmset x6, x7
    (4, 0x051CC061, .vpminv false false 7 6),  -- vpminv x6, x7
    (4, 0x00800061, .rett),
    (4, 0x01000061, .brk),
    (4, 0x01800061, .iflush),
    (4, 0x82836061, .freeze true 27)] = true := by decide +kernel

theorem test_decode_task : reads [
    (4, 0x0080C069, .join false 6 0),  -- join x6
    (4, 0x0198AA69, .launch false false 6 5 10),  -- launch x10, x5, x6
    (4, 0x0498A069, .pin false false 6 5),  -- pin x5, x6
    (4, 0x04036069, .qsync false 27 0),  -- qsync x0, x27
    (4, 0x00826069, .join false 19 0),  -- join x19
    (4, 0x0002A069, .spawn false false 0 21),  -- spawn x21, x0
    (4, 0x0500A069, .unpin false 5),  -- unpin x5
    (4, 0x022C0A69, .withdraw false false 11 0 10),  -- withdraw x10, x0, x11
    (4, 0x039CC069, .wmpub false false 7 6),  -- wmpub x6, x7
    (4, 0x01000069, .exit),
    (4, 0x42A6C669, .claim false true 9 22 6),
    (4, 0x03000069, .yield)] = true := by decide +kernel

theorem test_decode_int : reads [
    (4, 0x05188805, .min false false 6 4 8),  -- min x8, x4, x6
    (4, 0x01BA3405, .or false false 14 17 20),  -- or x20, x17, x14
    (4, 0x0880C505, .popc false 6 5),  -- popc x5, x6
    (4, 0x37316A05, .scadd false false 3 12 11 10),  -- scadd x10, x11, x12, 3
    (4, 0x041CC505, .slt false false 7 6 5),  -- slt x5, x6, x7
    (4, 0x049CC505, .sltw false false 7 6 5),  -- sltw x5, x6, x7
    (4, 0x009CA505, .sub false false 7 5 5),  -- sub x5, x5, x7
    (4, 0x021CC505, .xor false false 7 6 5),  -- xor x5, x6, x7
    (4, 0x4019BB05, .add false true 6 13 27),
    (4, 0x416E5E05, .and false true 27 18 30),
    (4, 0x82957405, .shl true false 5 11 20),
    (4, 0x432E8905, .shr false true 11 20 9),
    (4, 0x83D13605, .sha true false 20 9 22),
    (4, 0x85B77205, .max true false 13 27 18),
    (4, 0x466E5E05, .minw false true 27 18 30),
    (4, 0x86CBC505, .maxw true false 18 30 5),
    (4, 0x8783C505, .clz true 30 5),
    (4, 0x0800AB05, .ctz false 5 11)] = true := by decide +kernel

theorem test_decode_mask : reads [
    (4, 0x00040295, .mlog false 0 1 0 2),  -- mlog m2, m0, m1, 0
    (4, 0x00846195, .mmovFromVector false false 3 1),  -- mmov m1, v3
    (4, 0x00041295, .mlog false 2 1 0 2),  -- mlog m2, m0, m1, 2
    (4, 0x10040295, .mlog false 4 1 0 2),  -- mlog m2, m0, m1, 4
    (4, 0x00880495, .mmovToVector false 0 4),  -- mmov v4, m0
    (4, 0x0080C695, .mmovMask false 6 6)] = true := by decide +kernel

theorem test_decode_view : reads [
    (4, 0x011CC579, .narrow false false 7 6 5),  -- narrow x5, x6, x7
    (4, 0x01108579, .narrow false false 4 4 5),  -- narrow x5, x4, x4
    (4, 0x0180A079, .viewdrop false 5),  -- viewdrop x5
    (4, 0x001CC579, .viewnew false false 7 6 5),  -- viewnew x5, x6, x7
    (4, 0x021CA979, .viewq false false 7 5 9),  -- viewq x9, x5, x7
    (4, 0x009CA879, .viewsplit false false 7 5 8),  -- viewsplit x8, x5, x7
    (4, 0x00106579, .viewnew false false 4 3 5)] = true := by decide +kernel  -- viewnew x5, x3, x4

theorem test_decode_muldiv : reads [
    (4, 0x029CC509, .rem false false 7 6 5),  -- rem x5, x6, x7
    (4, 0x031CC509, .remw false false 7 6 5),  -- remw x5, x6, x7
    (4, 0x4026C609, .mul false true 9 22 6),
    (4, 0x80D8CD09, .mulh true false 22 6 13),
    (4, 0x4119BB09, .mulhw false true 6 13 27),
    (4, 0x81B77209, .div true false 13 27 18),
    (4, 0x426E5E09, .divw false true 27 18 30)] = true := by decide +kernel

theorem test_decode_immediate : reads [
    (4, 0x0004C515, .ori 1 6 5),  -- ori x5, x6, 1
    (4, 0xFFFCC521, .slti 16383 6 5),  -- slti x5, x6, -1
    (4, 0x00002525, .upi 1 5),  -- upi x5, 1
    (4, 0x20000525, .upi 65536 5),  -- upi x5, 0x10000
    (4, 0xFFFCC519, .xori 16383 6 5),  -- xori x5, x6, -1
    (4, 0x02E3C50D, .addi 184 30 5),
    (4, 0x02FCAB11, .andi 191 5 11),
    (4, 0x0051361D, .shli 20 9 22),
    (4, 0x406EC61D, .shri 27 22 6),
    (4, 0x8088CD1D, .shai 34 6 13),
    (4, 0x001EF229, .aupc 247 18),
    (4, 0xFFFD6B0D, .addi 16383 11 11),  -- addi x11, x11, -1
    (4, 0x0008E81D, .shli 2 7 8)] = true := by decide +kernel  -- shli x8, x7, 2

theorem test_decode_sorus : reads [
    (4, 0x0011ACC5, .sgath false false false 4 13 12),  -- sgath x12, x13, v4
    (4, 0x0091ACC5, .sscat false false false false 4 13 12),  -- sscat x12, x13, v4
    (4, 0x1091ACC5, .sscat false false false true 4 13 12)] = true := by decide +kernel  -- sscat.add x12, x13, v4

theorem test_decode_spec : reads [
    (4, 0x001CC87D, .specb false false 7 6 8),  -- specb x8, x6, x7
    (4, 0x00810C7D, .specq false false 0 8 12),  -- specq x12, x8, x0
    (4, 0x0100A07D, .specx false 5)] = true := by decide +kernel  -- specx x5

theorem test_decode_state : reads [
    (4, 0x00200B65, .srd 8 11),  -- srd x11, seam
    (4, 0x8010A065, .sset 4 5 0),  -- sset x0, fflags, x5
    (4, 0x403CC065, .swr 15 6 0),  -- swr x0, kvblk, x6
    (4, 0x00001365, .srd 0 19),  -- srd x19, vl
    (4, 0x40252065, .swr 9 9 0),  -- swr x0, rad, x9
    (4, 0xC401BB65, .sclr 256 13 27)] = true := by decide +kernel

theorem test_decode_loadStore : reads [
    (4, 0x020C3835, .st 8 false 3 1 24),  -- st.d x24, [x1+8]
    (4, 0x3F897431, .ld 254 false 2 11 20),
    (4, 0x000C2D31, .ld 0 false 3 1 13)] = true := by decide +kernel  -- ld.d x13, [x1+0]

theorem test_decode_tile : reads [
    (8, 0x0000000000000303, .tcfg 0 3),  -- tcfg.bf16 t3
    (8, 0x0000000080000103, .tcfg 4 1),  -- tcfg.i8 t1
    (8, 0x0000000509000123, .tld 1 9 5),  -- tld t1, x9, 5
    (8, 0x000000001801801B, .tmovr 6 0 24 0),  -- tmovr v6, t0, x24, 0
    (8, 0x000000001801801F, .tmovc 6 0 24 0),  -- tmovc v6, t0, x24, 0
    (8, 0x0000000000000207, .toff2),  -- toff t2
    (8, 0x000000001400000F, .tpred20),  -- tpred x20
    (8, 0x0000620000002017, .tsacc false 0 4 2 3),  -- tsacc.e8 t0, t4, v2, v3
    (8, 0x0004620000002017, .tsacc true 0 4 2 3),  -- tsacc.f32 t0, t4, v2, v3
    (8, 0x0000000509000127, .tst 1 9 5),  -- tst t1, x9, 5
    (8, 0x000000000000000B, .tzero0),  -- tzero t0
    (8, 0x0000000000184013, .mopa 0 0 1 3),  -- mopa.bf16 t0, v1, v3
    (8, 0x0000000040520213, .mopa 2 2 8 10),  -- mopa.t8 t2, v8, v10
    (8, 0x0000000000000007, .toff0),  -- toff t0
    (8, 0x0000000000000107, .toff1),  -- toff t1
    (8, 0x0000000000000307, .toff3),  -- toff t3
    (8, 0x0000000000000407, .toff4),  -- toff t4
    (8, 0x0000000000000507, .toff5),  -- toff t5
    (8, 0x0000000000000607, .toff6),  -- toff t6
    (8, 0x0000000000000707, .toff7),  -- toff t7
    (8, 0x000000000000010B, .tzero1),  -- tzero t1
    (8, 0x000000000000020B, .tzero2),  -- tzero t2
    (8, 0x000000000000030B, .tzero3),  -- tzero t3
    (8, 0x000000000000040B, .tzero4),  -- tzero t4
    (8, 0x000000000000050B, .tzero5),  -- tzero t5
    (8, 0x000000000000060B, .tzero6),  -- tzero t6
    (8, 0x000000000000070B, .tzero7),  -- tzero t7
    (8, 0x000000000000000F, .tpred0),  -- tpred x0
    (8, 0x000000000100000F, .tpred1),  -- tpred x1
    (8, 0x000000000200000F, .tpred2),  -- tpred x2
    (8, 0x000000000300000F, .tpred3),  -- tpred x3
    (8, 0x000000000400000F, .tpred4),  -- tpred x4
    (8, 0x000000000500000F, .tpred5),  -- tpred x5
    (8, 0x000000000600000F, .tpred6),  -- tpred x6
    (8, 0x000000000700000F, .tpred7),  -- tpred x7
    (8, 0x000000000800000F, .tpred8),  -- tpred x8
    (8, 0x000000000900000F, .tpred9),  -- tpred x9
    (8, 0x000000000A00000F, .tpred10),  -- tpred x10
    (8, 0x000000000B00000F, .tpred11),  -- tpred x11
    (8, 0x000000000C00000F, .tpred12)] = true := by decide +kernel  -- tpred x12

theorem test_decode_tile_2 : reads [
    (8, 0x000000000D00000F, .tpred13),  -- tpred x13
    (8, 0x000000000E00000F, .tpred14),  -- tpred x14
    (8, 0x000000000F00000F, .tpred15),  -- tpred x15
    (8, 0x000000001000000F, .tpred16),  -- tpred x16
    (8, 0x000000001100000F, .tpred17),  -- tpred x17
    (8, 0x000000001200000F, .tpred18),  -- tpred x18
    (8, 0x000000001300000F, .tpred19),  -- tpred x19
    (8, 0x000000001500000F, .tpred21),  -- tpred x21
    (8, 0x000000001600000F, .tpred22),  -- tpred x22
    (8, 0x000000001700000F, .tpred23),  -- tpred x23
    (8, 0x000000001800000F, .tpred24),  -- tpred x24
    (8, 0x000000001900000F, .tpred25),  -- tpred x25
    (8, 0x000000001A00000F, .tpred26),  -- tpred x26
    (8, 0x000000001B00000F, .tpred27),  -- tpred x27
    (8, 0x000000001C00000F, .tpred28),  -- tpred x28
    (8, 0x000000001D00000F, .tpred29),  -- tpred x29
    (8, 0x000000001E00000F, .tpred30),  -- tpred x30
    (8, 0x000000001F00000F, .tpred31)] = true := by decide +kernel  -- tpred x31

theorem test_decode_vint : reads [
    (4, 0x04082381, .vandVr false false false 2 1 3),  -- vand v3, v1, v2
    (4, 0x02082381, .vdivVr false false false false 2 1 3),  -- vdiv v3, v1, v2
    (4, 0x12082381, .vdivVr false false false true 2 1 3),  -- vdiv.w v3, v1, v2
    (4, 0x01082381, .vmulVr false false false 2 1 3),  -- vmul v3, v1, v2
    (4, 0x04882381, .vorVr false false false 2 1 3),  -- vor v3, v1, v2
    (4, 0x02882381, .vremVr false false false false 2 1 3),  -- vrem v3, v1, v2
    (4, 0x07082381, .vsaddVr false false false false 2 1 3),  -- vsadd v3, v1, v2
    (4, 0x00882381, .vsubVr false false false 2 1 3),  -- vsub v3, v1, v2
    (4, 0x08082481, .vwmulVr false false false false 2 1 4),  -- vwmul v4, v1, v2
    (4, 0x05084281, .vxorVr false false false 2 2 2),  -- vxor v2, v2, v2
    (4, 0x01882381, .vmulhVr false false false false 2 1 3),  -- vmulh v3, v1, v2
    (4, 0x11882381, .vmulhVr false false false true 2 1 3),  -- vmulh.w v3, v1, v2
    (4, 0x12882381, .vremVr false false false true 2 1 3),  -- vrem.w v3, v1, v2
    (4, 0x07882381, .vssubVr false false false false 2 1 3),  -- vssub v3, v1, v2
    (4, 0x08882481, .vwmaccVr false false false false 2 1 4),  -- vwmacc v4, v1, v2
    (4, 0x05421081, .vxorVr false false false 16 16 16),  -- vxor v16, v16, v16
    (4, 0x4058CD81, .vaddVr false true false 22 6 13),
    (4, 0x5326C681, .vminVr false true false true 9 22 6),
    (4, 0xA3B77281, .vmaxVr true false true false 13 27 18),
    (4, 0xA5EE5E81, .vshlVr true false true 27 18 30),
    (4, 0x46157481, .vshrVr false true false 5 11 20),
    (4, 0xA6A6C681, .vshaVr true false true 9 22 6),
    (4, 0x5978AB81, .vnshrVr false true false true 30 5 11)] = true := by decide +kernel

theorem test_decode_vperm : reads [
    (4, 0x20082391, .vblend false false 2 1 3),  -- vblend v3, v1, v2, m0
    (4, 0x03808191, .vconf false false false 4 1),  -- vconf m1, v4
    (4, 0x06002991, .vfirst false 1 9),  -- vfirst x9, m1
    (4, 0x13808191, .vconf false false true 4 1),  -- vconf.l m1, v4
    (4, 0x00808291, .vmv false false 4 2),  -- vmv v2, v4
    (4, 0x02842391, .vpackm false 1 1 3),  -- vpackm v3, v1, m1
    (4, 0x01882391, .vpick false false false 2 1 3),  -- vpick v3, v1, v2
    (4, 0x05802A91, .vpopc false 1 10),  -- vpopc x10, m1
    (4, 0x02002391, .vprepop false 1 3),  -- vprepop v3, m1
    (4, 0x04A02391, .vred false false 8 1 3),  -- vred v3, v1, fadd
    (4, 0x04002391, .vscan false false 0 1 3),  -- vscan v3, v1, add
    (4, 0x01142391, .vslide false false false false 5 1 3),  -- vslide v3, v1, x5
    (4, 0x03042391, .vspread false 1 1 3),  -- vspread v3, v1, m1
    (4, 0x05202391, .vredo false false 8 1 3),  -- vredo v3, v1, fadd
    (4, 0x04202391, .vscan false false 8 1 3),  -- vscan v3, v1, fadd
    (4, 0x11142391, .vslide false false false true 5 1 3)] = true := by decide +kernel  -- vslide.up v3, v1, x5

theorem test_decode_vcmp : reads [
    (4, 0x0108208D, .vcmp false false false 2 2 1 0)] = true := by decide +kernel  -- vcmp.lt m0, v1, v2

theorem test_decode_vfp : reads [
    (4, 0x00082399, .vfaddVr false false false 2 1 3),  -- vfadd v3, v1, v2
    (4, 0x03882A99, .vfcmpVr false false false 2 1 1 2),  -- vfcmp.lt m2, v1, v2
    (4, 0x04008199, .vfcvt false false false 0 4 1),  -- vfcvt v1, v4, f32
    (4, 0x01882399, .vfdivVr false false false 2 1 3),  -- vfdiv v3, v1, v2
    (4, 0x02082399, .vfmaVr false false false 2 1 3),  -- vfma v3, v1, v2
    (4, 0x03082399, .vfmaxVr false false false 2 1 3),  -- vfmax v3, v1, v2
    (4, 0x01752A99, .vfmulVr false false false 29 9 10),  -- vfmul v10, v9, v29
    (4, 0x00882399, .vfsubVr false false false 2 1 3),  -- vfsub v3, v1, v2
    (4, 0x04402299, .vfcvt false false false 16 1 2),  -- vfcvt.i v2, v1, f32
    (4, 0x01C65C99, .vfdivVr false false false 17 18 28),  -- vfdiv v28, v18, v17
    (4, 0x02882399, .vfminVr false false false 2 1 3),  -- vfmin v3, v1, v2
    (4, 0x04B10A99, .vscaccVr false false false false 12 8 10)] = true := by decide +kernel  -- vscacc v10, v8, v12

theorem test_decode_vintI : reads [
    (4, 0x047C2389, .vandVi false false 31 1 3),  -- vand v3, v1, -1
    (4, 0x2019BB89, .vaddVi false true 6 13 27),
    (4, 0x80CBC589, .vsubVi true false 18 30 5),
    (4, 0x212E8989, .vmulVi false true 11 20 9),
    (4, 0x9199BB89, .vmulhVi true false true 6 13 27),
    (4, 0x224BC589, .vdivVi false true false 18 30 5),
    (4, 0x92AE8989, .vremVi true false true 11 20 9),
    (4, 0x2358CD89, .vminVi false true false 22 6 13),
    (4, 0x93EE5E89, .vmaxVi true false true 27 18 30),
    (4, 0x84D13689, .vorVi true false 20 9 22),
    (4, 0x2519BB89, .vxorVi false true 6 13 27),
    (4, 0x85CBC589, .vshlVi true false 18 30 5),
    (4, 0x262E8989, .vshrVi false true 11 20 9),
    (4, 0x86D8CD89, .vshaVi true false 22 6 13),
    (4, 0x274BC589, .vsaddVi false true false 18 30 5),
    (4, 0x97AE8989, .vssubVi true false true 11 20 9),
    (4, 0x2858CD89, .vwmulVi false true false 22 6 13),
    (4, 0x98EE5E89, .vwmaccVi true false true 27 18 30),
    (4, 0x29157489, .vnshrVi false true false 5 11 20)] = true := by decide +kernel

theorem test_decode_vfpX : reads [
    (4, 0x0008239D, .vfaddVx false false false 2 1 3),  -- vfadd v3, v1, x2
    (4, 0x0394389D, .vfcmpVx false false false 5 1 3 0),  -- vfcmp.un m0, v1, x5
    (4, 0x0254229D, .vfmaVx false false false 21 1 2),  -- vfma v2, v1, x21
    (4, 0x0088239D, .vfsubVx false false false 2 1 3),  -- vfsub v3, v1, x2
    (4, 0x4158CD9D, .vfmulVx false true false 22 6 13),
    (4, 0x41B7729D, .vfdivVx false true false 13 27 18),
    (4, 0x4295749D, .vfminVx false true false 5 11 20),
    (4, 0x4351369D, .vfmaxVx false true false 20 9 22),
    (4, 0xA4CBC59D, .vscaccVx true false true false 18 30 5)] = true := by decide +kernel

theorem test_decode_run : reads [
    (4, 0x019048BD, .vinter false false false 4 2 8),  -- vinter v8, v2, v4
    (4, 0x109046BD, .vmerge false false true 4 2 6),  -- vmerge.p v6, v2, v4
    (4, 0x031046BD, .vpart false false false 4 2 6),  -- vpart v6, v2, v4
    (4, 0x02A90CBD, .vrank false false false false 10 8 12),  -- vrank v12, v8, v10
    (4, 0x038002BD, .vrun false 0 false 2),  -- vrun.asc v2
    (4, 0x000021BD, .vsort false false 0 false 1 1),  -- vsort.asc v1, v1
    (4, 0x020046BD, .vuniq false false 2 6),  -- vuniq v6, v2
    (4, 0x040002BD, .vunrun 2),  -- vunrun v2
    (4, 0x011046BD, .vmergec false false false 4 2 6),  -- vmergec v6, v2, v4
    (4, 0x129026BD, .vrank false false false true 4 1 6),  -- vrank.le v6, v1, v4
    (4, 0x03A10ABD, .vrunLen false 8 10)] = true := by decide +kernel  -- vrun.len x10, v8

theorem test_decode_vmem : reads [
    (4, 0x0000A1B5, .vldq false false false 0 5 1),  -- vldq lq1, [x5]
    (4, 0x000083AD, .vst false false false false 0 4 3),  -- vst v3, [x4]
    (4, 0x000320B9, .vstq false false false 0 25 0),  -- vstq sq0, [x25]
    (4, 0x0003C0B5, .vldq false false false 0 30 0),  -- vldq lq0, [x30]
    (4, 0x007321B1, .vsts false false false false false 28 25 1),  -- vsts v1, [x25], x28
    (4, 0x829A89A5, .vld true false true false true 6 20 9),
    (4, 0x42A6C6A9, .vlds false true false true false true 9 22 6),
    (4, 0x000041A5, .vld false false false false false 0 2 1),  -- vld v1, [x2]
    (4, 0x007321A9, .vlds false false false false false false 28 25 1)] = true := by decide +kernel  -- vlds v1, [x25], x28

theorem test_decode_strip : reads [
    (4, 0x0180A46D, .vloop false 5 4),  -- vloop 4, x5
    (4, 0x00104975, .waitv false false false false 4 2 9),  -- waitv v9, v2, v4
    (4, 0x00025E6D, .setvl false 18 30),
    (4, 0x8095746D, .setvlw true false 5 11 20),
    (4, 0x412E896D, .setvlre false true 11 20 9),
    (4, 0x048C0071, .setvt 291)] = true := by decide +kernel

theorem test_decode_vintX : reads [
    (4, 0x09144185, .vnshrVx false false false false 5 2 1),  -- vnshr v1, v2, x5
    (4, 0xA019BB85, .vaddVx true false true 6 13 27),
    (4, 0x40CBC585, .vsubVx false true false 18 30 5),
    (4, 0xA12E8985, .vmulVx true false true 11 20 9),
    (4, 0x5199BB85, .vmulhVx false true false true 6 13 27),
    (4, 0xA24BC585, .vdivVx true false true false 18 30 5),
    (4, 0x52AE8985, .vremVx false true false true 11 20 9),
    (4, 0xA358CD85, .vminVx true false true false 22 6 13),
    (4, 0x53EE5E85, .vmaxVx false true false true 27 18 30),
    (4, 0xA478AB85, .vandVx true false true 30 5 11),
    (4, 0x44D13685, .vorVx false true false 20 9 22),
    (4, 0xA519BB85, .vxorVx true false true 6 13 27),
    (4, 0x45CBC585, .vshlVx false true false 18 30 5),
    (4, 0xA62E8985, .vshrVx true false true 11 20 9),
    (4, 0x46D8CD85, .vshaVx false true false 22 6 13),
    (4, 0xA74BC585, .vsaddVx true false true false 18 30 5),
    (4, 0x57AE8985, .vssubVx false true false true 11 20 9),
    (4, 0xA858CD85, .vwmulVx true false true false 22 6 13),
    (4, 0x58EE5E85, .vwmaccVx false true false true 27 18 30),
    (4, 0x20142185, .vaddVx false false true 5 1 1)] = true := by decide +kernel  -- vadd v1, v1, x5, m0

theorem test_decode_vsf : reads [
    (4, 0x000389A1, .vsf false false 0 28 9),  -- vsf v9, v28, exp2
    (4, 0x010029A1, .vsf false false 2 1 9)] = true := by decide +kernel  -- vsf v9, v1, rcp

theorem test_decode_branch : reads [
    (4, 0x042E8C41, .beq 268 11 20),
    (4, 0x04513345, .bne 275 20 9),
    (4, 0x0426DA49, .blt 282 9 22),
    (4, 0x04D8C14D, .bge 289 22 6),
    (4, 0x0499A851, .bltw 296 6 13),
    (4, 0x04B76F55, .bgew 303 13 27),
    (4, 0x0026DB59, .jal 310 27),
    (4, 0x04F65E5D, .jalr 317 18 30),
    (4, 0xFF817845, .bne 16376 0 11)] = true := by decide +kernel  -- bne x11, x0, -8 halfwords

theorem test_decode_fp : reads [
    (4, 0x902E892D, .fadd true false 1 11 20 9),
    (4, 0x70D1362D, .fsub false true 3 20 9 22),
    (4, 0x8126C62D, .fmul true false 0 9 22 6),
    (4, 0x51D8CD2D, .fdiv false true 1 22 6 13),
    (4, 0x9202C62D, .fsqrt true 1 22 6),
    (4, 0x62B7722D, .fmin false true 2 13 27 18),
    (4, 0x936E5E2D, .fmax true false 1 27 18 30),
    (4, 0x73CBCB2D, .fcmp false true 3 18 30 1 3),
    (4, 0xB44BC52D, .fcvt true 3 18 30 5),
    (4, 0x2483C52D, .fclass false 2 30 5),
    (4, 0x952E892D, .fma true false 1 11 20 9)] = true := by decide +kernel

theorem test_decode_atomic : reads [
    (4, 0x6226C639, .amo false true false 4 9 22 6),
    (4, 0xB026C63D, .cas true false true 9 22 6)] = true := by decide +kernel

theorem test_decode_engine : reads [
    (4, 0xA019A3C1, .eissue true false true 6 13 3),
    (4, 0x4099A0C1, .ewait false true 6 13),
    (4, 0x8100CDC1, .eseq true 6 13),
    (4, 0x41EE40C1, .epub false true 27 18)] = true := by decide +kernel

theorem test_decode_compressed : reads [
    (2, 0x9780, .cMv 18 30),
    (2, 0xF142, .cAdd 30 5),
    (2, 0x2AC4, .cSub 5 11),
    (2, 0x5D06, .cAnd 11 20),
    (2, 0xA248, .cOr 20 9),
    (2, 0x4D8A, .cXor 9 22),
    (2, 0xB18C, .cShli 22 6),
    (2, 0x334E, .cShri 6 13),
    (2, 0x6ED0, .cAddi 13 27),
    (2, 0xDC92, .cMul 27 18),
    (2, 0x9794, .cFadd 18 30),
    (2, 0xF156, .cFmul 30 5),
    (2, 0x2AD8, .cFma 5 11),
    (2, 0x5D1A, .cLd 11 20),
    (2, 0xA25C, .cSt 20 9),
    (2, 0x4DA0, .cVadd 9 22),
    (2, 0xB1A2, .cVsub 22 6),
    (2, 0x3364, .cVmul 6 13),
    (2, 0x6EE6, .cVfadd 13 27),
    (2, 0xDCA8, .cVfsub 27 18),
    (2, 0x97AA, .cVfmul 18 30),
    (2, 0xF16C, .cVfma 30 5),
    (2, 0x2AEE, .cVmax 5 11),
    (2, 0x5D30, .cVfmax 11 20),
    (2, 0xA272, .cVand 20 9),
    (2, 0x4DB4, .cVxor 9 22),
    (2, 0xB1B6, .cVmv 22 6),
    (2, 0x2B90, .cAddi 5 14),  -- c.addi x14, 5
    (2, 0x13CC, .cShli 2 15),  -- c.shli x15, 2
    (2, 0x6404, .cSub 12 16)] = true := by decide +kernel  -- c.sub x16, x12
/-! ## Small states -/

/-- Front 0 runs a SOLO CR of context 0 whose hart stands at address 0 in unprivileged mode; granule 0 may be read, written and executed. -/
def solo : State := State.reset.withFetchWord 32 0

/-- Values in x registers. -/
def setXs (s : State) (l : List (Reg × Word)) : State := l.foldl (fun s e => s.setRegs (s.regs.setX e.1 e.2)) s

/-- Bytes in memory. -/
def poke (s : State) (k : Nat) (bs : List Byte) : State := { s with mem := s.mem.setBytes k bs }

/-- Change the current hart. -/
def onHart (s : State) (f : Hart → Hart) : State := s.setHart (f s.hart)

/-- Change front 0. -/
def onFront (s : State) (f : Front → Front) : State := s.setFront (f s.front)

/-- Change what front 0 holds of its CR. -/
def onRun (s : State) (f : Run → Run) : State := s.setRun (f s.run)

/-- Privileged mode. -/
def inPriv (s : State) : State := onHart s (fun h => { h with priv := true })

/-- A handler at 0x1000 and fault records from 0x10000. -/
def handled (s : State) : State := s.setCtxAt 0 { s.ctxAt 0 with tvec := 0x1000, frec := 0x10000 }

/-- The access hart, or the execute hart, of a PAIR. -/
def pairAt (sl : Slot) (s : State) : State :=
  let F := s.front
  { (s.setFront { F with run := some { F.theRun with cr := { F.theRun.cr with kind := 2 } }, a := { F.e with live := true } }) with slot := sl }

/-- The next state of an outcome. -/
def after (o : Host.Outcome State Fault Refusal) : Option State :=
  match o with
  | .next t => some t
  | _ => none

/-- An outcome that has a next state is one. -/
theorem answers_of_after {o : Host.Outcome State Fault Refusal} (h : (after o).isSome = true) : ∃ t, o = .next t := by
  cases o with
  | next t => exact ⟨t, rfl⟩
  | fault r => exact nomatch r
  | refused r => exact nomatch h

/-- What an outcome's next state shows. -/
def shows {α : Type} (o : Host.Outcome State Fault Refusal) (f : State → α) : Option α := (after o).map f

/-! ## Scalar instructions -/

/-- x6 = 5, x7 = 3, and x8 to x10 at the corners of 64 bits. -/
def nums : State := setXs solo [(6, 5), (7, 3), (8, BitVec.allOnes 64), (9, BitVec.intMin 64), (10, 0)]

theorem witness_IntegerResult : ∃ f, intForm (.add false false 7 6 5) nums = some f ∧ f.ready nums := ⟨_, rfl, by decide +kernel⟩

theorem witness_IntegerResult_zero : ∃ f, intForm (.div false false 10 9 0) nums = some f ∧ f.d = 0 ∧ f.ready nums :=
  ⟨_, rfl, rfl, by decide +kernel⟩

theorem witness_ScalarFrame : ∃ f t, intForm (.sub false false 7 6 5) nums = some f ∧ f.ready nums ∧
    exec (.sub false false 7 6 5) nums = .next t := by
  obtain ⟨t, h⟩ := answers_of_after (o := exec (.sub false false 7 6 5) nums) (by decide +kernel)
  exact ⟨_, t, rfl, by decide +kernel, h⟩

theorem witness_CompressedScalarResult : ∃ f, compressedForm (.cAdd 7 5) nums = some f ∧ f.ready nums := by
  refine ⟨⟨[10, 7], 5, nums.regs.getX 10 + nums.regs.getX 7, id⟩, ?_, by decide +kernel⟩
  have : lastX nums.regs = some 10 := by decide +kernel
  simp [compressedForm, this]

theorem witness_ScalarFloatResult : ∃ f, floatForm (.fadd false false 0 7 6 5) nums = some f ∧ f.ready nums := by
  refine ⟨fpForm [6, 7] 5 ((subFmt 0).add nums.regs.frm.toNat (nums.regs.getX 6).toNat (nums.regs.getX 7).toNat), ?_, by decide +kernel⟩
  have : ¬ nums.regs.frm = 5#3 := by decide +kernel
  simp [floatForm, this]

theorem test_add_wraps : shows (exec (.add false false 8 6 5) nums) (fun t => (t.regs.getX 5, t.regs.pc)) = some (4, 4) := by decide +kernel
theorem test_add_x0 : shows (exec (.add false false 7 6 0) nums) (fun t => (t.regs.getX 0, t.regs.lastd.extractLsb' 0 8)) = some (0, 0x80) := by
  decide +kernel
theorem test_sub_order : shows (exec (.sub false false 6 7 5) nums) (fun t => t.regs.getX 5) = some (BitVec.ofInt 64 (-2)) := by decide +kernel
theorem test_sha_sign : shows (exec (.sha false false 7 9 5) nums) (fun t => t.regs.getX 5) = some 0xF000000000000000 := by decide +kernel
theorem test_shl_modulo : shows (exec (.shl false false 8 6 5) nums) (fun t => t.regs.getX 5) = some 0x8000000000000000 := by decide +kernel
theorem test_slt_signed : shows (exec (.slt false false 6 8 5) nums) (fun t => t.regs.getX 5) = some 1 := by decide +kernel
theorem test_sltw_unsigned : shows (exec (.sltw false false 6 8 5) nums) (fun t => t.regs.getX 5) = some 0 := by decide +kernel
theorem test_scadd : shows (exec (.scadd false false 3 7 6 5) nums) (fun t => t.regs.getX 5) = some 43 := by decide +kernel
theorem test_clz : shows (exec (.clz false 6 5) nums) (fun t => t.regs.getX 5) = some 61 := by decide +kernel
theorem test_ctz_zero : shows (exec (.ctz false 10 5) nums) (fun t => t.regs.getX 5) = some 64 := by decide +kernel
theorem test_mulh_signed : shows (exec (.mulh false false 8 8 5) nums) (fun t => t.regs.getX 5) = some 0 := by decide +kernel
theorem test_mulhw_unsigned : shows (exec (.mulhw false false 8 8 5) nums) (fun t => t.regs.getX 5) = some 0xFFFFFFFFFFFFFFFE := by
  decide +kernel
theorem test_div_zero : shows (exec (.div false false 10 6 5) nums) (fun t => (t.regs.getX 5, t.regs.vsflags)) =
    some (BitVec.allOnes 64, 1) := by decide +kernel
theorem test_div_overflow : shows (exec (.div false false 8 9 5) nums) (fun t => (t.regs.getX 5, t.regs.vsflags)) =
    some (BitVec.intMin 64, 2) := by decide +kernel
theorem test_rem_zero : shows (exec (.rem false false 10 6 5) nums) (fun t => (t.regs.getX 5, t.regs.vsflags)) = some (5, 1) := by
  decide +kernel
theorem test_andi_sign : shows (exec (.andi 0x3FFF 9 5) nums) (fun t => t.regs.getX 5) = some (BitVec.intMin 64) := by decide +kernel
theorem test_upi : shows (exec (.upi 1 5) nums) (fun t => t.regs.getX 5) = some 16384 := by decide +kernel
theorem test_fadd_one_one : shows (exec (.fadd false false 0 6 6 5) (setXs solo [(6, 0x3F800000)])) (fun t => t.regs.getX 5) =
    some 0x40000000 := by decide +kernel

/-- The run of three compressed forms of 15 R302: x12 = 100 was written last. -/
theorem test_compressed_addi : shows (exec (.cAddi 5 14) (setXs solo [(12, 100)])) (fun t => (t.regs.getX 14, t.regs.pc)) =
    some (105, 2) := by decide +kernel
theorem test_compressed_sub : shows (exec (.cSub 12 16) (setXs solo [(12, 100), (15, 420)])) (fun t => t.regs.getX 16) = some 320 := by
  decide +kernel
theorem test_compressed_no_last : shows (exec (.cAddi 5 14) (handled solo)) (fun t => (t.hart.tcause, t.hart.tval)) =
    some (0x1A, 0x2B90) := by decide +kernel

/-! ## Branches and jumps -/

theorem witness_BranchTarget : branchForm (.beq 8 6 6) nums = some (true, 8, 6, 6) ∧ fullX nums 6 ∧
    branchForm (.bne 8 6 6) nums = some (false, 8, 6, 6) := by decide +kernel
theorem witness_BranchTarget_empty :
    (let s := mapRegs nums (fun r => { r with xEmpty := 0x40 })
     branchForm (.beq 8 6 7) s = some (false, 8, 7, 6) ∧ ¬ (fullX s 7 ∧ fullX s 6)) := by decide +kernel
theorem witness_JumpLinks : fullX nums 1 ∧ fullX nums 6 := by decide +kernel

theorem test_bne_back : shows (exec (.bne 16376 0 6) (mapRegs nums (fun r => { r with pc := 64 }))) (fun t => t.regs.pc) = some 48 := by
  decide +kernel
theorem test_jalr_same : shows (exec (.jalr 2 6 6) nums) (fun t => (t.regs.pc, t.regs.getX 6)) = some (6, 4) := by decide +kernel

/-! ## Scalar memory -/

/-- x6 = 64, and bytes 01 02 … 80 there. -/
def memory : State := poke (setXs solo [(6, 64), (7, 0xFFEE), (8, 65)]) 64 [1, 2, 3, 4, 5, 6, 7, 0x80]

theorem witness_LoadResult : loadForm (.ld 0 false 3 6 5) memory = some (3, 6, 5, 0) ∧ memory.isExec = false ∧ fullX memory 6 ∧
    fullX memory 5 ∧ Claims.reaches memory .read 64 8 64 ∧ clearOfQueues memory 64 8 ∧
    memory.readVisible 8 ⟨64, 64, 8⟩ = .ok [1, 2, 3, 4, 5, 6, 7, 0x80] := by decide +kernel
theorem witness_LoadResult_late :
    (let s := { memory with late := true }
     loadForm (.ld 1 false 0 6 5) s = some (0, 6, 5, 1) ∧ s.isExec = false ∧ fullX s 6 ∧ fullX s 5 ∧
     Claims.reaches s .read 65 1 65 ∧ clearOfQueues s 65 1 ∧ s.readVisible 1 ⟨65, 65, 1⟩ = .ok [2] ∧ s.late = true ∧
     s.priv = false) := by decide +kernel
theorem witness_LoadSeesMemory : memory.hart.buf = [] ∧ memory.queuedParts false = [] ∧ memory.ticket = 0 ∧ noRace memory 8 64 ∧
    memory.readVisible 8 ⟨64, 64, 8⟩ = .ok [1, 2, 3, 4, 5, 6, 7, 0x80] := by decide +kernel
theorem witness_StoreBuffered : storeForm (.st 0 false 1 6 7) memory = some (2, 6, 7, 0) ∧ memory.isExec = false ∧
    memory.priv = false ∧ fullX memory 6 ∧ fullX memory 7 ∧ Claims.reaches memory .write 64 2 64 ∧ memory.ticket = 0 ∧
    bufferBlocks [.global 64 64 2 [0xEE, 0xFF] 0] ≤ 1024 := by decide +kernel
theorem witness_StorePrivileged :
    (let s := inPriv memory
     storeForm (.st 0 false 1 6 7) s = some (2, 6, 7, 0) ∧ s.isExec = false ∧ s.priv = true ∧ s.ticket = 0 ∧ fullX s 6 ∧ fullX s 7 ∧
     Claims.reaches s .write 64 2 64 ∧ s.mixed s.ctx s.agent 2 64 2 = false ∧ s.poisoned 64 2 = false ∧ allLand s 2 64 ∧
     (let t : State := { s with dev := { s.dev with poison := [65] } }
      Claims.reaches t .write 64 2 64 ∧ t.mixed t.ctx t.agent 2 64 2 = false ∧ t.poisoned 64 2 = true)) := by decide +kernel
theorem witness_CommitWritesStore :
    (let s := onHart memory (fun h => { h with buf := [.global 64 64 2 [0xEE, 0xFF] 0] })
     s.priv = false ∧ s.ticket = 0 ∧ s.front.drain = none ∧ s.hart.reads = [] ∧ queueAhead s = false ∧
     mayReach s 0 0 .write false 64 64 = true ∧ s.mixed 0 s.agent 2 64 2 = false ∧ s.poisoned 64 2 = false ∧
     (∀ j, j < 2 → s.lands s.agent 2 (64 + j) = true) ∧
     ({ s with dev := { s.dev with poison := [64] } } : State).poisoned 64 2 = true) := by decide +kernel
theorem witness_BrokenLeaseReruns :
    (let l : Lease := { va := 64, key := 64, byte := some 9 }
     let s := onHart memory (fun h => { h with reads := [l], buf := [.global 72 72 1 [9] 0] })
     s.priv = false ∧ s.front.drain = none ∧ commitWaits s = false ∧ l ∈ s.hart.reads ∧
     l.holds s s.fid s.ctx false = false) := by decide +kernel
theorem witness_MisalignedAccessTraps : loadForm (.ld 0 false 1 8 5) memory = some (1, 8, 5, 0) ∧ memory.isExec = false ∧
    fullX memory 8 ∧ fullX memory 7 ∧ (memory.regs.getX 8).toNat % szBytes 1 ≠ 0 ∧
    storeForm (.st 0 false 2 8 7) memory = some (4, 8, 7, 0) ∧ (memory.regs.getX 8).toNat % 4 ≠ 0 := by decide +kernel

theorem test_ld_d : shows (exec (.ld 0 false 3 6 5) memory) (fun t => t.regs.getX 5) = some 0x8007060504030201 := by decide +kernel
theorem test_ld_b_sign : shows (exec (.ld 7 false 0 6 5) memory) (fun t => t.regs.getX 5) = some 0xFFFFFFFFFFFFFF80 := by decide +kernel
theorem test_st_stays_in_strip : shows (exec (.st 0 false 1 6 7) memory) (fun t => (t.mem.bytes 64 2, t.hart.buf.length)) =
    some ([1, 2], 1) := by decide +kernel
theorem test_ld_sees_own_store :
    shows (exec (.ld 0 false 1 6 5) (onHart memory (fun h => { h with buf := [.global 64 64 2 [0xEE, 0x7F] 0] }))) (fun t => t.regs.getX 5) =
      some 0x7FEE := by decide +kernel
theorem test_st_privileged : shows (exec (.st 0 false 1 6 7) (inPriv memory)) (fun t => t.mem.bytes 64 3) = some [0xEE, 0xFF, 3] := by
  decide +kernel

/-- A hart whose x6 is empty, with a fill under way. -/
def filling : State :=
  onHart (mapRegs nums (fun r => { r with xEmpty := 0x40 })) (fun h => { h with fills := [{ reg := 6, val := 77 }], wait := .register })

theorem witness_FillLands : filling.hart.fills = { vec := false, reg := (6 : Reg).toNat, val := 77, old := false } :: [] := by decide +kernel
theorem witness_EmptyRegisterWaits : ∃ f, intForm (.add false false 7 6 5) filling = some f ∧ ¬ f.ready filling ∧
    (policies (.add false false 7 6 5) f).find? (fun x => x.2 && filling.regs.emptyX x.1) = none :=
  ⟨_, rfl, by decide +kernel, by decide +kernel⟩
theorem witness_EmptyRegisterWaits_trap : ∃ f, intForm (.add true false 7 6 5) filling = some f ∧ ¬ f.ready filling ∧
    (policies (.add true false 7 6 5) f).find? (fun x => x.2 && filling.regs.emptyX x.1) = some (6, true) :=
  ⟨_, rfl, by decide +kernel, by decide +kernel⟩
theorem test_empty_waits : shows (exec (.add false false 7 6 5) filling) (fun t => (t.hart.wait, t.regs.pc)) = some (.register, 0) := by
  decide +kernel
theorem test_empty_traps : shows (exec (.add true false 7 6 5) (handled filling)) (fun t => (t.hart.tcause, t.hart.tval)) =
    some (0x09, 6) := by decide +kernel

theorem witness_AtomicResult : memory.isExec = false ∧ Quiet memory ∧ fullX memory 6 ∧ fullX memory 7 ∧ fullX memory 5 ∧
    memory.ticket = 0 ∧ memory.late = false ∧ atomicReady memory 64 8 64 ∧ atomicReady memory 64 4 64 := by decide +kernel
theorem witness_CompareAndSwapResult : memory.isExec = false ∧ Quiet memory ∧ fullX memory 6 ∧ fullX memory 7 ∧ fullX memory 5 ∧
    memory.ticket = 0 ∧ memory.late = false ∧ atomicReady memory 64 4 64 := by decide +kernel
theorem test_amo_add : shows (exec (.amo false false false 0 7 6 5) memory) (fun t => (t.regs.getX 5, t.mem.bytes 64 5)) =
    some (0x04030201, [0xEF, 0x01, 0x04, 0x04, 5]) := by decide +kernel
theorem test_cas_stores : shows (exec (.cas false false false 7 6 5) (setXs memory [(5, 0x04030201)]))
    (fun t => (t.regs.getX 5, t.mem.bytes 64 5)) = some (0x04030201, [0xEE, 0xFF, 0, 0, 5]) := by decide +kernel
theorem test_cas_keeps : shows (exec (.cas false false false 7 6 5) memory) (fun t => t.mem.bytes 64 4) = some [1, 2, 3, 4] := by
  decide +kernel

/-! ## State registers, traps and SYS -/

theorem witness_StateReadResult : mayRead nums 0x008 (nums.regs.seam) ∧ mayRead (inPriv nums) 0x10B 0 ∧ fullX nums 5 := by decide +kernel
theorem witness_StateWriteResult : writeForm (.swr 0x00F 6 5) = some (0x00F, 6, 5, fun _ u => u) ∧ mayRead nums 0x00F 0 ∧ fullX nums 6 ∧
    fullX nums 5 ∧ plainMask 0x00F = some 0xFFFF ∧ readOnly 0x000 = true ∧ mayRead nums 0x000 0 ∧ mayRead (inPriv nums) 0x100 0 :=
  ⟨rfl, by decide +kernel⟩
theorem test_srd_seam : shows (exec (.srd 0x008 5) (mapRegs nums (fun r => { r with seam := 0x0000000300000002 })))
    (fun t => t.regs.getX 5) = some 0x0000000300000002 := by decide +kernel
theorem test_sset_fflags : shows (exec (.sset 0x004 6 5) (mapRegs nums (fun r => { r with fflags := 2 })))
    (fun t => (t.regs.fflags, t.regs.getX 5)) = some (7, 2) := by decide +kernel

theorem witness_StateWriteRules : writerForm (.swr 0x005 6 5) nums = some (0x005, 5) ∧ mayRead nums 0x005 0 ∧ nums.hart.buf = [] := by
  decide +kernel
theorem witness_StateWriteRules_each :
    (let s := inPriv nums
     ∀ n ∈ [0x004, 0x006, 0x007, 0x009, 0x00A, 0x00F, 0x014, 0x015, 0x100, 0x105, 0x106, 0x107, 0x108, 0x109, 0x10A, 0x10B],
       (writerForm (.swr (BitVec.ofNat 12 n) 6 5) s).isSome = true ∧ (s.readState n).isSome = true) := by decide +kernel
theorem witness_StateWriteRules_swatch :
    (let s := onRun nums (fun r => { r with swatches := [7] })
     writerForm (.swr 0x080 6 5) s = some (0x080, 5) ∧ (s.readState 0x080).isSome = true ∧ s.run.swatches[0x80 - 0x80]? = some 7) := by
  decide +kernel
theorem test_rad_write : shows (exec (.swr 0x009 7 0) nums) (fun t => t.regs.rad) = some 3 := by decide +kernel
theorem test_frm_reserved : shows (exec (.swr 0x005 6 0) (setXs nums [(6, 7)])) (fun t => t.regs.frm) = some 0 := by decide +kernel

theorem witness_PrivilegeTraps : needsPrivilege .rett = true ∧ needsPrivilege (.srd 0x10B 5) = true ∧ needsPrivilege (.srd 0x0BF 5) = false ∧
    nums.priv = false := by decide +kernel
theorem witness_TrapEntry : ∃ ps, trapReady (handled nums) ps := ⟨[⟨0x10080, 0x10080, 128⟩], by decide +kernel⟩
theorem witness_TrapWritesRecord : (handled nums).recordAddr = 0x10080 ∧ trapReady (handled nums) [⟨0x10080, 0x10080, 128⟩] := by
  decide +kernel
theorem witness_TrapWritesRecord_double :
    (let s := inPriv (handled nums)
     s.front.drain = none ∧ s.priv = true ∧ windowPieces s s.ctx .write s.recordAddr 128 = .ok [⟨s.recordAddr, 0x10080, 128⟩]) ∧
    (let s := nums.setCtxAt 0 { frec := 0x10000 }
     s.front.drain = none ∧ (s.ctxAt s.ctx).tvec.extractLsb' 2 62 = 0 ∧
     windowPieces s s.ctx .write s.recordAddr 128 = .ok [⟨s.recordAddr, 0x10080, 128⟩]) := by decide +kernel
theorem witness_DoubleTrap : (inPriv nums).priv = true ∧ nums.front.drain = none ∧ (nums.ctxAt nums.ctx).tvec.extractLsb' 2 62 = 0 := by decide +kernel
theorem witness_DoubleTrap_record :
    (let s := nums.setCtxAt 0 { tvec := 0x1000, frec := 0x3FFFFFF0000 }
     ∃ e, windowPieces s s.ctx .write s.recordAddr 128 = .error e) := ⟨(4, 0x3FFFFFF0080), by decide +kernel⟩
theorem witness_CallTraps : fullX (handled nums) 6 ∧ Quiet (handled nums) ∧ (handled nums).ticket = 0 := by decide +kernel
theorem witness_ReturnFromTrap : (inPriv nums).priv = true := by decide +kernel
theorem witness_FlushResult : Quiet nums := by decide +kernel
theorem test_trap : shows (exec (.trap false 6) (handled nums))
    (fun t => (t.hart.tcause, t.hart.tval, t.hart.tpc, t.regs.pc, t.hart.ckpt.pc, t.priv)) = some (0x18, 5, 0, 0x1000, 4, true) := by
  decide +kernel
theorem test_trap_record : shows (exec (.trap false 6) (handled nums)) (fun t => (t.mem.bytes 0x10088 8, t.mem.bytes 0x10090 1)) =
    some ([5, 0, 0, 0, 0, 0, 0, 0], [0x18]) := by decide +kernel
theorem test_rett : shows (exec .rett (inPriv (onHart nums (fun h => { h with ckpt := { h.ckpt with pc := 0x40 }, kvSaved := 9 }))))
    (fun t => (t.regs.pc, t.priv, t.hart.kvblk)) = some (0x40, false, 9) := by decide +kernel
theorem test_priv_trap : shows (exec .rett (handled nums)) (fun t => (t.hart.tcause, t.hart.tval)) = some (0x02, 0x00800061) := by
  decide +kernel

/-- A privileged hart that sleeps in IDLE on the line at 64, which has been written. -/
def sleeping (written : Bool) : State :=
  let s := inPriv (setXs solo [(6, 10), (7, 64)])
  let s := { s with cycle := 100 }
  let s := if written then { s with order := s.order.wrote 90 0 3 8 64 1 } else s
  onHart s (fun h => { h with wait := .idle, waitInstr := some (.idle false false 7 6 5), waitFrom := 50 })

theorem witness_IdleResult :
    (let s := inPriv (setXs solo [(6, 0), (7, 0)])
     s.priv = true ∧ fullX s 6 ∧ fullX s 7 ∧ fullX s 5 ∧ s.regs.getX 6 = 0 ∧ s.regs.getX 7 = 0) := by decide +kernel
theorem witness_IdleResult_woken : idleWaits (sleeping true) false false 7 6 5 true := by decide +kernel
theorem witness_IdleResult_timed : idleWaits (sleeping false) false false 7 6 5 false ∧ (sleeping false).regs.getX 6 ≠ 0 ∧
    ((sleeping false).regs.getX 6).toNat ≤ (sleeping false).cycle - (sleeping false).hart.waitFrom := by decide +kernel
theorem test_idle_now : shows (exec (.idle false false 7 6 5) (inPriv (setXs solo [(5, 9)]))) (fun t => (t.regs.getX 5, t.regs.pc)) =
    some (0, 4) := by decide +kernel

/-- A privileged hart of front 0 and a CR of context 0's region 5 on front 1; x6 = 5. -/
def jobs (frozen : Bool) : State :=
  let s := inPriv (setXs solo [(6, 5), (7, 64)])
  let s := s.setRegionAt 5 { status := 1, frozen := frozen }
  s.setFrontAt 1 { s.front with run := some { s.run with cr := { kind := 1, region := 5 } }, frozen := frozen,
                                e := { s.hart with regs := s.hart.regs.setX 3 99 } }

/-- A job of no other region does not hold one. -/
theorem not_inJob {s : State} {k m : Nat} (hk : k ≠ m)
    (h : ∀ e ∈ s.regions, ¬ (e.2.status = 1 ∧ e.1 / 65536 = k / 65536 ∧ e.2.parent = k % 65536 ∧ e.1 ≠ k)) : ¬ inJob s k m := by
  intro hj
  rcases Relation.ReflTransGen.cases_head hj with e | ⟨c, hc, -⟩
  · exact hk e
  obtain ⟨h1, h2, h3, h4⟩ := hc
  have hm : ∀ t : Table Region, (Table.get {} t c).status = 1 → (c, Table.get {} t c) ∈ t := by
    intro t
    induction t with
    | nil => intro h; exact nomatch h
    | cons e t ih =>
      obtain ⟨j, v⟩ := e
      rw [Table.get]
      split
      · rename_i e; subst e; intro _; exact List.mem_cons_self
      · intro h; exact List.mem_cons_of_mem _ (ih h)
  exact h _ (hm _ h1) ⟨h1, h2, h3, h4⟩

theorem witness_FreezeAndThaw : ∀ frozen : Bool,
    (let s := jobs frozen
     s.priv = true ∧ fullX s 6 ∧ 5 = s.regionNamed (s.regs.getX 6) ∧ Table.wf {} s.regions = true ∧ (s.regionAt 5).status = 1 ∧
     (s.regionAt 5).frozen = frozen ∧ ¬ inJob s 5 (regionKey s.ctx s.run.cr.region) ∧ s.drainsIn (s.job 5) = []) := by
  intro b
  refine ⟨by cases b <;> decide +kernel, by cases b <;> decide +kernel, by cases b <;> decide +kernel, by cases b <;> decide +kernel,
    by cases b <;> decide +kernel, by cases b <;> decide +kernel, not_inJob ?_ ?_, by cases b <;> decide +kernel⟩ <;>
  cases b <;> decide +kernel
theorem witness_FreezeAndThaw_none :
    (let s := setXs (jobs false) [(6, 9)]
     s.priv = true ∧ fullX s 6 ∧ 9 = s.regionNamed (s.regs.getX 6) ∧ Table.wf {} s.regions = true ∧ (s.regionAt 9).status ≠ 1) := by
  decide +kernel
theorem test_freeze : shows (exec (.freeze false 6) (jobs false)) (fun t => ((t.regionAt 5).frozen, (t.frontAt 1).frozen, t.front.frozen)) =
    some (true, true, false) := by decide +kernel

theorem witness_ScanResult :
    (let s := setXs (jobs true) [(6, 1), (7, 35)]
     s.priv = true ∧ fullX s 6 ∧ fullX s 7 ∧ fullX s 5 ∧ (s.regs.getX 6).toNat < 2 ^ 13 ∧ (s.frontAt 1).scannable = true ∧
     s.scan 1 0 false 35 = some 99) := by decide +kernel
theorem witness_ScanResult_refused : 2 ^ 13 ≤ (0x2001 : Word).toNat ∧ ((jobs false).frontAt 1).frozen = false ∧ ((jobs true).frontAt 9).run = none ∧
    (jobs true).scan 1 0 false 66 = none := by decide +kernel

theorem witness_PageMapResult :
    (let s := setXs (inPriv solo) [(6, 0x4000000), (7, 0xB80001)]
     s.priv = true ∧ queuesClear s ∧ fullX s 6 ∧ fullX s 7 ∧ (s.regs.getX 6).toNat < 2 ^ 42 ∧ granule (s.regs.getX 6) = 1 ∧
     s.vpmRefused 1 (s.regs.getX 7) = false ∧ Table.wf 0 s.dev.vpm = true) := by decide +kernel
theorem test_vpminv : shows (exec (.vpminv false false 0 0) (inPriv solo)) (fun t => (t.dev.vpm.get 0 0).getLsbD 23) = some false := by
  decide +kernel
theorem witness_TlbInvalidation :
    (let s := setXs (inPriv solo) [(6, 0x1000), (7, 0x11)]
     s.priv = true ∧ queuesClear s ∧ fullX s 6 ∧ fullX s 7 ∧ (s.regs.getX 7).toNat < 256 ∧ (s.regs.getX 7).extractLsb' 2 2 = 0 ∧
     (s.regs.getX 7).extractLsb' 0 2 ≠ 3) := by decide +kernel

/-! ## Strips -/

/-- Registers of a class with one of them given elements of `w` bits. -/
def vreg (k w : Nat) (l : List Nat) (s : State) : State :=
  mapRegs s (fun r => { r with v := r.v.set 0 k (BitVec.ofNat 16384 (packElems w l)) })

/-- Elements of a v register. -/
def elemsAt (k w n : Nat) (s : State) : List Nat := elems w (s.regs.v.get 0 k).toNat n

/-- Four lanes granted, vl and vtype given. -/
def lanes4 (vl : Nat) (vt : BitVec 9) (s : State) : State :=
  mapRegs (onFront s (fun F => { F with grant := 4 })) (fun r => { r with vl := BitVec.ofNat 16 vl, vtype := vt })

theorem witness_SetVlResult : Quiet nums ∧ fullX nums 6 ∧ fullX nums 5 ∧ nums.isExec = false := by decide +kernel

/-- The execute hart of a PAIR, with an entry of vl 2 of 32-bit elements at the head of lq0 and an empty sq1. -/
def queued : State :=
  let s := lanes4 2 3 (onFront (pairAt .e solo) (fun F => { F with lq := F.lq.set [] 0 [{ vl := 2, sew := 3, bits := packElems 32 [10, 20] }] }))
  vreg 9 32 [1, 2] (vreg 8 32 [7, 8] s)

theorem witness_SetVlOfQueue : ∃ e es, Quiet queued ∧ fullX queued 5 ∧ queued.isExec = true ∧ queued.front.lq.get [] 0 = e :: es :=
  ⟨_, _, by decide +kernel, by decide +kernel, by decide +kernel, rfl⟩
theorem test_setvl_caps : shows (exec (.setvl false 8 5) (lanes4 0 3 nums)) (fun t => (t.regs.vl, t.regs.getX 5)) = some (32, 32) := by
  decide +kernel
theorem test_setvlre : shows (exec (.setvlre false false 7 6 5) (onHart (setXs (lanes4 0 3 solo) [(6, 20), (7, 13)])
    (fun h => { h with kvblk := 8 }))) (fun t => (t.regs.vl, t.regs.getX 5)) = some (3, 3) := by decide +kernel

/-- x6 = 4 elements, x7 = 64 where a watermark of 7 stands; wmbase is 3. -/
def marked : State :=
  mapRegs (poke (setXs (lanes4 0 3 solo) [(6, 4), (7, 64)]) 64 [7]) (fun r => { r with wmbase := 3 })

theorem witness_SetVlwResult : Quiet marked ∧ fullX marked 6 ∧ fullX marked 7 ∧ fullX marked 5 ∧ marked.isExec = false ∧
    markReached marked 64 7 64 := by decide +kernel
theorem witness_SetVlwResult_zero : min ((setXs marked [(6, 0)]).regs.getX 6).toNat (setXs marked [(6, 0)]).vlmax = 0 := by decide +kernel
theorem test_setvlw : shows (exec (.setvlw false false 7 6 5) marked) (fun t => (t.regs.vl, t.regs.wmbase, t.regs.pc)) = some (4, 7, 4) := by
  decide +kernel
theorem test_setvlw_waits : shows (exec (.setvlw false false 7 6 5) (mapRegs marked (fun r => { r with wmbase := 4 })))
    (fun t => (t.hart.wait, t.regs.pc)) = some (.setvlw, 0) := by decide +kernel

/-- It waits, and its context stalls after 10 cycles. -/
def waiting : State :=
  let s := onHart marked (fun h => { h with wait := .setvlw, waitInstr := some (.setvlw false false 7 6 5), waitFrom := 0 })
  { (s.setCtxAt 0 { tvec := 0x1000, frec := 0x10000, stallmax := 10 }) with cycle := 10 }

theorem witness_SetVlwWaits : waiting.hart.wait = .setvlw ∧ waiting.hart.waitInstr = some (.setvlw false false 7 6 5) ∧ Quiet waiting ∧
    fullX waiting 6 ∧ fullX waiting 7 ∧ fullX waiting 5 ∧ waiting.isExec = false ∧ markReached waiting 64 7 64 ∧
    (waiting.ctxAt waiting.ctx).stallmax ≠ 0 ∧ (waiting.ctxAt waiting.ctx).stallmax.toNat ≤ waiting.cycle - waiting.hart.waitFrom := by
  decide +kernel
theorem test_wmstall : shows (exec .wmstall waiting) (fun t => (t.hart.tcause, t.hart.tval)) = some (0x12, 64) := by decide +kernel

theorem witness_SetVtResult : vtypeLegal 0x083 = true ∧ vtypeLegal 5 = false := by decide +kernel
theorem test_setvt_lowers_vl : shows (exec (.setvt 4) (lanes4 30 3 solo)) (fun t => (t.regs.vl, t.regs.vtype)) = some (16, 4) := by
  decide +kernel

/-! ## VLOOP -/

/-- At its pc 0, a VLOOP of one instruction (VADD v3, v1, v2) over x5 elements, with vl 2. -/
def looping (n : Word) : State :=
  let code := bytesOf 4 (Instr.bits (.vloop false 5 1)) ++ bytesOf 4 (Instr.bits (.vaddVr false false false 2 1 3))
  let s := lanes4 2 3 (setXs solo [(5, n)])
  onFront { s with mem := s.mem.setBytes 0 code } (fun F => { F with image := F.image.setBytes 0 code })

theorem witness_LoopBegins : ∃ l, loopReady (looping 5) 5 1 l ∧ Quiet (looping 5) ∧ (looping 5).regs.loop = none ∧
    (looping 5).regs.loopAct = false ∧ (looping 5).regs.getX 5 ≠ 0 ∧ (looping 5).regs.vl ≠ 0 :=
  ⟨[some (.vaddVr false false false 2 1 3)], by decide +kernel⟩
theorem witness_LoopBegins_none : ∃ l, loopReady (looping 0) 5 1 l ∧ Quiet (looping 0) ∧ (looping 0).regs.loop = none ∧
    (looping 0).regs.loopAct = false ∧ (looping 0).regs.getX 5 = 0 :=
  ⟨[some (.vaddVr false false false 2 1 3)], by decide +kernel⟩

/-- The same over a strided load of v1 (base x6, stride x7). -/
def loopingLoad (done : Nat) : State :=
  let code := bytesOf 4 (Instr.bits (.vloop false 5 1)) ++ bytesOf 4 (Instr.bits (.vlds false false false false false false 7 6 1))
  let s := lanes4 2 3 (setXs solo [(5, 5), (6, 64), (7, 8)])
  mapRegs (onFront { s with mem := s.mem.setBytes 0 code } (fun F => { F with image := F.image.setBytes 0 code }))
    (fun r => { r with loop := some 0, loopi := loopWord true 1 2 done })

/-- Back at the VLOOP after `done` elements and an iteration of 2. -/
def again (done : Nat) : State :=
  mapRegs (looping 5) (fun r => { r with loop := some 0, loopi := loopWord true 1 2 done })

theorem witness_LoopReturns : ∃ l, loopReady (again 2) 5 1 l ∧ Quiet (again 2) ∧ (again 2).regs.loop = some (again 2).regs.pc ∧
    (again 2).regs.loopAct = true :=
  ⟨[some (.vaddVr false false false 2 1 3)], by decide +kernel⟩
theorem witness_LoopReturns_last : ∃ l, loopReady (again 4) 5 1 l ∧ (again 4).regs.loop = some (again 4).regs.pc ∧
    (again 4).regs.loopAct = true ∧ ¬ ((again 4).regs.loopDone + 2) % 2 ^ 32 < ((again 4).regs.getX 5).toNat :=
  ⟨[some (.vaddVr false false false 2 1 3)], by decide +kernel⟩
theorem witness_LoopReturns_load : ∃ l, loopReady (loopingLoad 2) 5 1 l ∧ Quiet (loopingLoad 2) ∧
    (loopingLoad 2).regs.loop = some (loopingLoad 2).regs.pc ∧ (loopingLoad 2).regs.loopAct = true ∧ stridesApart (capturedMem l) ∧
    (6, some 7) ∈ capturedMem l := by
  refine ⟨[some (.vlds false false false false false false 7 6 1)], by decide +kernel, by decide +kernel, by decide +kernel, by decide +kernel, ?_,
    by decide +kernel⟩
  rw [show capturedMem [some (.vlds false false false false false false 7 6 1)] = [(6, some 7)] by decide +kernel]
  simp [stridesApart]
theorem test_vloop_advances : shows (exec (.vloop false 5 1) (loopingLoad 2)) (fun t => t.regs.getX 6) = some 80 := by decide +kernel
theorem test_vloop_last : shows (exec (.vloop false 5 1) (again 3)) (fun t => (t.regs.pc, t.regs.loopAct)) = some (8, false) := by
  decide +kernel
theorem test_vloop_rest : shows (exec (.vloop false 5 1) (again 2)) (fun t => (t.regs.pc, t.regs.vl, t.regs.loopDone)) = some (4, 1, 4) := by
  decide +kernel

/-! ## Vector arithmetic -/

/-- v1 = 1, 2, 3, 4 and v2 = 10, 0, 2^31, 2^32 - 1 of 32 bits; x6 = 5; m0 = 1101 and m1 = 0110 from element 0. -/
def vecs : State :=
  mapRegs (vreg 3 32 [9, 9, 9, 9, 9] (vreg 2 32 [10, 0, 0x80000000, 0xFFFFFFFF] (vreg 1 32 [1, 2, 3, 4] (lanes4 4 3 (setXs solo [(6, 5)])))))
    (fun r => { r with m := (r.m.set 0 0 0b1011).set 0 1 0b0110 })

theorem witness_intVector : ∃ f, intVector (.vaddVr false false true 2 1 3) vecs = some f ∧ f.ready vecs ∧ vecs.isQueue f.d.toNat = false :=
  ⟨_, rfl, by decide +kernel⟩
theorem witness_intVector_queue : ∃ f, intVector (.vaddVx false false false 0 28 29) queued = some f ∧ f.ready queued ∧
    queued.isQueue f.d.toNat = true ∧ Quiet queued ∧ f.room queued :=
  ⟨_, rfl, by decide +kernel⟩
theorem witness_wideVector : ∃ f, wideVector (.vwmulVr false false false false 2 1 4) vecs = some f ∧ f.ready vecs :=
  ⟨_, rfl, by decide +kernel⟩
theorem witness_floatVector : ∃ f, floatVector (.vfaddVr false false false 2 1 3) vecs = some f ∧ f.ready vecs :=
  ⟨_, rfl, by decide +kernel⟩
theorem witness_permVector : ∃ f, permVector (.vslide false false false true 6 1 4) vecs = some f ∧ f.ready vecs :=
  ⟨_, rfl, by decide +kernel⟩
theorem witness_permVector_queue : ∃ f, permVector (.vmv false false 28 29) queued = some f ∧ f.ready queued ∧
    queued.isQueue f.d.toNat = true ∧ Quiet queued ∧ f.room queued :=
  ⟨_, rfl, by decide +kernel⟩
theorem witness_MaskResult : ∃ f, maskForm (.vcmp false false false 2 2 1 3) vecs = some f ∧ f.ready vecs := ⟨_, rfl, by decide +kernel⟩
theorem witness_MaskCountResult : ∃ f, countForm (.vpopc true 1 5) vecs = some f ∧ f.ready vecs := ⟨_, rfl, by decide +kernel⟩
theorem witness_GroupWriteElements : 1 ≤ vecs.cap ∧ vecs.cap ≤ 16384 ∧ 32 * [Out.put 5, .idle, .keep].length ≤ vecs.cap * 1 := by
  decide +kernel
theorem witness_VectorIntegerFunctions : 1 ≤ 8 ∧ 0x80 < 2 ^ 8 ∧ 0xFF < 2 ^ 8 := by decide

theorem test_vadd_masked : shows (exec (.vaddVr false false true 2 1 3) vecs) (elemsAt 3 32 5) = some [11, 2, 9, 3, 9] := by decide +kernel
theorem test_vadd_policies : shows (exec (.vaddVr false false true 2 1 3) (mapRegs vecs (fun r => { r with vtype := 0x183 }))) (elemsAt 3 32 5) =
    some [11, 2, 0, 3, 0] := by decide +kernel
theorem test_vadd_queue : shows (exec (.vaddVr false false false 8 28 29) queued)
    (fun t => ((t.front.sqData.get [] 1).map QEntry.bits, (t.front.lq.get [] 0).length)) = some ([packElems 32 [17, 28]], 0) := by decide +kernel
theorem test_vdiv_zero : shows (exec (.vdivVr false false false false 2 1 3) vecs) (fun t => (elemsAt 3 32 3 t, t.regs.vsflags)) =
    some ([0, 0xFFFFFFFF, 0], 1) := by decide +kernel
theorem test_vsadd_saturates : shows (exec (.vsaddVr false false false true 2 1 3) vecs) (fun t => (elemsAt 3 32 4 t, t.regs.vsflags)) =
    some ([11, 2, 0x80000003, 0xFFFFFFFF], 4) := by decide +kernel
theorem test_vwmul : shows (exec (.vwmulVr false false false false 2 1 4) vecs) (fun t => elemsAt 4 64 4 t) =
    some [10, 0, 0xFFFFFFFE80000000, 0xFFFFFFFFFFFFFFFC] := by decide +kernel
theorem test_vslide_up : shows (exec (.vslide false false false true 6 1 4) (setXs (vreg 4 32 [7, 7, 7, 7] vecs) [(6, 1)])) (elemsAt 4 32 4) =
    some [7, 1, 2, 3] := by decide +kernel
theorem test_vcmp : shows (exec (.vcmp false false false 2 2 1 3) vecs) (fun t => (t.regs.m.get 0 3).extractLsb' 0 4) = some 0b0001 := by
  decide +kernel
theorem test_vpopc_predicated : shows (exec (.vpopc true 1 5) vecs) (fun t => t.regs.getX 5) = some 1 := by decide +kernel
theorem test_vfirst : shows (exec (.vfirst false 1 5) vecs) (fun t => t.regs.getX 5) = some 1 := by decide +kernel
theorem test_vfadd : shows (exec (.vfaddVr false false false 1 1 3) (vreg 1 32 [0x3F800000, 0x40000000] vecs)) (elemsAt 3 32 2) =
    some [0x40000000, 0x40800000] := by decide +kernel
theorem test_vred_sum : shows (exec (.vred false false 0 1 3) vecs) (elemsAt 3 32 2) = some [19, 9] := by decide +kernel
/-! ## Vector memory -/

/-- An answer that is not an error. -/
def okay {ε α : Type} : Except ε α → Bool
  | .ok _ => true
  | .error _ => false

theorem ok_of_okay {ε α : Type} {x : Except ε α} (h : okay x = true) : ∃ a, x = .ok a := by
  cases x with
  | ok a => exact ⟨a, rfl⟩
  | error e => exact nomatch h

/-- x6 = 64, where 1, 2, 3, 4 of 32 bits stand; v1 = 5, 6, 7, 8; m0 = 1101. -/
def array : State :=
  mapRegs (vreg 1 32 [5, 6, 7, 8] (lanes4 4 3 (poke (setXs solo [(6, 64), (7, 8)]) 64 (toBytes 16 (packElems 32 [1, 2, 3, 4])))))
    (fun r => { r with m := r.m.set 0 0 0b1011 })

/-- The same at the end of a granule, with the next granule absent. -/
def atEnd : State := setXs (poke array 0x3FFFFF8 [1, 0, 0, 0, 2, 0, 0, 0]) [(6, 0x3FFFFF8)]

theorem witness_VectorLoadResult : ∃ f, vloadForm (.vld false true false false false 0 6 3) array = some f ∧ f.ready array ∧
    firstFailure array .read f.loc 0 (f.elems array) = none ∧ unhindered array f.loc (f.elems array) ∧
    ∃ r, loadElems f.loc (sewNow array) (f.elems array) array = .ok r :=
  ⟨_, rfl, by decide +kernel, by decide +kernel, by decide +kernel, ok_of_okay (by decide +kernel)⟩
theorem witness_VectorLoadResult_trap : ∃ f, vloadForm (.vld false false false false false 0 6 3) atEnd = some f ∧ f.ready atEnd ∧
    firstFailure atEnd .read f.loc 0 (f.elems atEnd) = some (2, 0x4000000, Cause.pageabs) ∧ f.ff = false :=
  ⟨_, rfl, by decide +kernel, by decide +kernel, rfl⟩
theorem witness_VectorLoadResult_ff : ∃ f, vloadForm (.vld false false false true false 0 6 3) atEnd = some f ∧ f.ready atEnd ∧
    firstFailure atEnd .read f.loc 0 (f.elems atEnd) = some (2, 0x4000000, Cause.pageabs) ∧ f.ff = true ∧
    unhindered atEnd f.loc ((f.elems atEnd).take 2) ∧
    ∃ r, loadElems f.loc (sewNow atEnd) ((f.elems atEnd).take 2) (mapRegs atEnd (fun r => { r with vl := BitVec.ofNat 16 2 })) = .ok r :=
  ⟨_, rfl, by decide +kernel, by decide +kernel, rfl, by decide +kernel, ok_of_okay (by decide +kernel)⟩
theorem witness_ElementReadsMemory : array.hart.buf = [] ∧ array.queuedParts false = [] ∧ array.queuedParts true = [] ∧ array.ticket = 0 ∧
    noRace array 4 64 ∧ windowPieces array array.ctx .read 64 4 = .ok [⟨64, 64, 4⟩] ∧ 8 * 4 ≠ 6 ∧
    array.readVisible 4 ⟨64, 64, 4⟩ = .ok [1, 0, 0, 0] := by
  decide +kernel
theorem witness_VectorStoreBuffered : ∃ f, vstoreForm (.vst false true false false 0 6 1) array = some f ∧ f.ready array ∧
    array.priv = false ∧ firstFailure array .write f.loc 0 (f.elems array) = none ∧
    (∀ e ∈ actives (f.elems array), elemStalls array f.loc e = false) ∧ ticketTakes array (f.elems array) ∧
    (∀ e ∈ actives (f.elems array), ∃ ps, windowPieces array array.ctx .write e.va e.n = .ok ps) ∧
    bufferBlocks (array.hart.buf ++ f.buffered array) ≤ 1024 := by
  have h : ∀ e ∈ [(⟨64, 4, 0⟩ : Elem), ⟨68, 4, 0⟩, ⟨76, 4, 0⟩], okay (windowPieces array array.ctx .write e.va e.n) = true := by decide +kernel
  refine ⟨_, rfl, by decide +kernel, by decide +kernel, by decide +kernel, by decide +kernel, by decide +kernel, fun e he => ?_, by decide +kernel⟩
  exact ok_of_okay (h e (by
    have : actives (VLoad.elems (⟨true, false, false, (array.regs.getX 6).toNat, sewNow array / 8, 0, 1, [6],
      if array.regs.sewCode = 0 then (0 : BitVec 5).toNat < 8 else (0 : BitVec 5) = 0⟩) array) =
        [⟨64, 4, 0⟩, ⟨68, 4, 0⟩, ⟨76, 4, 0⟩] := by decide +kernel
    rw [← this]; exact he))
theorem witness_VectorStoreBuffered_local : ∃ f, vstoreForm (.vst false false false true 0 6 1) array = some f ∧ f.ready array ∧
    firstFailure array .write f.loc 0 (f.elems array) = none ∧ (∀ e ∈ actives (f.elems array), elemStalls array f.loc e = false) ∧
    f.loc = true :=
  ⟨_, rfl, by decide +kernel, by decide +kernel, by decide +kernel, rfl⟩

theorem test_vld_masked : shows (exec (.vld false true false false false 0 6 3) (vreg 3 32 [9, 9, 9, 9, 9] array)) (elemsAt 3 32 5) =
    some [1, 2, 9, 4, 9] := by decide +kernel
theorem test_vlds_stride : shows (exec (.vlds false false false false false false 7 6 3) (lanes4 2 3 array)) (elemsAt 3 32 2) = some [1, 3] := by
  decide +kernel
theorem test_vld_ff : shows (exec (.vld false false false true false 0 6 3) atEnd) (fun t => (t.regs.vl, elemsAt 3 32 2 t)) =
    some (2, [1, 2]) := by decide +kernel
theorem test_vst_commits : shows (exec (.setvl false 6 5) ((after (exec (.vst false true false false 0 6 1) array)).getD array))
    (fun t => elems 32 (ofBytes (t.mem.bytes 64 16)) 4) = some [5, 6, 3, 8] := by decide +kernel

/-- The access hart of a PAIR over the same memory, and a store queue with one complete pair. -/
def fed : State := lanes4 2 3 (poke (setXs (pairAt .a solo) [(6, 64)]) 64 (toBytes 16 (packElems 32 [1, 2, 3, 4])))

theorem witness_QueuePushes : fed.isAccess = true ∧ Quiet fed ∧ badOffset 0 fed.regs = false ∧ fullX fed 6 ∧
    (fed.front.queueSeen (1 : BitVec 2).toNat).length < min 16 fed.regs.rad.toNat ∧
    firstFailure fed .read false 0 (queueElemsAt fed 0 6) = none ∧ unhindered fed false (queueElemsAt fed 0 6) ∧
    ∃ r, loadElems false (sewNow fed) (queueElemsAt fed 0 6) (fresh fed) = .ok r :=
  ⟨by decide +kernel, by decide +kernel, by decide +kernel, by decide +kernel, by decide +kernel, by decide +kernel, by decide +kernel,
    ok_of_okay (by decide +kernel)⟩
theorem witness_QueuePushes_store : fed.isAccess = true ∧ Quiet fed ∧ badOffset 0 fed.regs = false ∧ fullX fed 6 ∧
    (fed.front.sqAddr.get [] (1 : BitVec 2).toNat).length < 16 ∧ firstFailure fed .write false 0 (queueElemsAt fed 0 6) = none ∧
    (∀ x ∈ actives (queueElemsAt fed 0 6), elemStalls fed false x = false) ∧ ticketTakes fed (queueElemsAt fed 0 6) ∧
    (fed.front.sqData.get [] (1 : BitVec 2).toNat)[(fed.front.sqAddr.get [] (1 : BitVec 2).toNat).length]? = none := by decide +kernel
theorem test_vldq : shows (exec (.vldq false false false 0 6 1) fed) (fun t => t.front.lq.get [] 1) =
    some [{ vl := 2, sew := 3, bits := packElems 32 [1, 2] }] := by decide +kernel

/-- Both harts live, and sq1 holds the address 72 and the data 30, 40. -/
def paired : State :=
  onFront fed (fun F => { F with
    sqAddr := F.sqAddr.set [] 1 [{ base := 72, vl := 2, sew := 3, time := 0 }]
    sqData := F.sqData.set [] 1 [{ vl := 2, sew := 3, bits := packElems 32 [30, 40] }] })

theorem witness_StoreQueueStores :
    (let s := paired
     let x : AEntry := { base := 72, vl := 2, sew := 3, time := 0 }
     let y : QEntry := { vl := 2, sew := 3, bits := packElems 32 [30, 40] }
     let v : State := { s with fid := 0, slot := .a }
     let F := v.front
     let es := elemsOf (sewBits x.sew) x.base (sewBits x.sew / 8) x.bo x.vl
     let w := v.setFront { F with
       sqAddr := F.sqAddr.set [] 1 (F.sqAddr.get [] 1).tail, sqData := F.sqData.set [] 1 []
       held := F.held.filter (fun h => x.time < h.1) }
     let r := storePair x.loc (sewBits x.sew) w (es.zip (elems (sewBits x.sew) y.bits x.vl))
     s.arg.front = 0 ∧ (s.frontAt 0).frozen = false ∧ (s.frontAt 0).earliest = some (1, x) ∧ (s.frontAt 0).sqData.get [] 1 = [y] ∧
     (s.frontAt 0).e.live = true ∧ es.any (elemStalls v x.loc) = false ∧ r.2 = none ∧ (r.1.frontAt 0).e.live = true) := by decide +kernel
theorem witness_StoreQueueStores_element : paired.ticket = 0 ∧ elemCause paired .write false ⟨72, 4, 0⟩ = none ∧
    windowPieces paired paired.ctx .write 72 4 = .ok [⟨72, 72, 4⟩] ∧ paired.mixed paired.ctx paired.agent 4 72 4 = false ∧
    paired.poisoned 72 4 = false ∧ allLand paired 4 72 := by decide +kernel
theorem test_store_queue : shows (exec .storeQueueStore paired) (fun t => (elems 32 (ofBytes (t.mem.bytes 64 16)) 4, t.front.sqData.get [] 1)) =
    some ([1, 2, 30, 40], []) := by decide +kernel

/-! ## WAITV -/

/-- Two flags, 5 and 6, at 64 and 72; their addresses in v1, and the values waited for in v2. -/
def flagged (want : Nat) : State :=
  vreg 2 64 [5, want] (vreg 1 64 [64, 72] (lanes4 2 4 (poke solo 64 (toBytes 16 (packElems 64 [5, 6])))))

/-- It waits, and its context stalls after 10 cycles. -/
def flagWait (want : Nat) : State :=
  let s := onHart (flagged want) (fun h => { h with wait := .waitv, waitInstr := some (.waitv false false false true 2 1 3), waitFrom := 0 })
  { (s.setCtxAt 0 { stallmax := 10 }) with cycle := 10 }

theorem flags_read (s : State) (h : s.isExec = false ∧ s.regs.sewCode = 4 ∧ srcReady s 1 (grpNow s) 64 ∧ srcReady s 2 (grpNow s) 64 ∧
    dstReady s 3 (grpNow s) ∧ (∀ e ∈ actives (flagElems s false 1), e.va % 8 = 0) ∧
    firstFailure s .read false 0 (flagElems s false 1) = none)
    (k : okay (readFlags (flagElems s false 1) (observing s (flagElems s false 1))) = true) :
    ∃ fs u, flagsRead s false 2 1 3 fs u := by
  obtain ⟨⟨fs, u⟩, r⟩ := ok_of_okay k
  exact ⟨fs, u, h.1, h.2.1, h.2.2.1, h.2.2.2.1, h.2.2.2.2.1, h.2.2.2.2.2.1, h.2.2.2.2.2.2, r⟩

theorem witness_WaitVectorResult : ∃ fs u, flagsRead (flagWait 6) false 2 1 3 fs u := flags_read _ (by decide +kernel) (by decide +kernel)
theorem witness_WaitVectorResult_met : allMet (flagWait 6) false true 2 [5, 6] = true ∧ allMet (flagWait 7) false true 2 [5, 6] = false ∧
    (flagWait 7).hart.wait = .waitv ∧ (flagWait 7).hart.waitInstr = some (.waitv false false false true 2 1 3) ∧
    ((flagWait 7).ctxAt (flagWait 7).ctx).stallmax ≠ 0 ∧
    ((flagWait 7).ctxAt (flagWait 7).ctx).stallmax.toNat ≤ (flagWait 7).cycle - (flagWait 7).hart.waitFrom := by decide +kernel
theorem test_waitv_passes : shows (exec (.waitv false false false true 2 1 3) (flagged 6)) (fun t => (t.regs.pc, elemsAt 3 64 2 t)) =
    some (4, [0, 0]) := by decide +kernel
theorem test_waitv_timeout : shows (exec .waitvTimeout (flagWait 7)) (fun t => (t.regs.pc, elemsAt 3 64 2 t)) = some (4, [0, 1]) := by
  decide +kernel

/-! ## Runs -/

/-- v1 = 4, 1, 3, 1 and v2 a run 1, 3 of length 2. -/
def runs : State :=
  mapRegs (vreg 3 32 [1, 4, 5] (vreg 2 32 [1, 3] (vreg 1 32 [4, 1, 3, 1] (lanes4 4 3 solo))))
    (fun r => { r with stag := (r.stag.set 0 2 0x88000002).set 0 3 0x88000003 })

theorem witness_RunResult : ∃ f, runForm (.vsort false false 0 false 1 4) runs = some f ∧ f.legal = true ∧ runReady f.x runs ∧
    runs.regs.vl ≠ 0 ∧ f.keys.length ≤ runs.vlmax :=
  ⟨_, rfl, by decide +kernel⟩
theorem witness_RunResult_runs : ∃ f, runForm (.vmerge false false false 3 2 4) runs = some f ∧ f.legal = true ∧ runReady f.x runs ∧
    f.keys.length ≤ 2 * runs.vlmax :=
  ⟨_, rfl, by decide +kernel⟩
theorem witness_RunResult_vl0 : ∃ f, runForm (.vuniq false false 2 4) (lanes4 0 3 runs) = some f ∧ f.legal = true ∧
    runReady f.x (lanes4 0 3 runs) ∧ (lanes4 0 3 runs).regs.vl = 0 :=
  ⟨_, rfl, by decide +kernel⟩
theorem witness_RankAndTags :
    (let x : RunArgs := { i := .vrank false false false true 1 2 4, d := 4, srcs := [.run false 2, .data false 1], pays := [], pay := false,
                          apart := [.run false 2] }
     runReady x runs ∧ runs.regs.vl ≠ 0) := by decide +kernel
theorem witness_RankAndTags_vrun : runs.regs.sewCode ≠ 0 ∧ badKind 0 runs.regs = false ∧ runs.isQueue (1 : Reg).toNat = false ∧
    dstReady runs 1 (grpNow runs) ∧ runs.owns (2 : Reg).toNat 1 = true ∧ runs.regs.emptyV (2 : Reg).toNat = false ∧ fullX runs 5 := by decide +kernel

theorem witness_RankAndTags_vl0 :
    (let s := lanes4 0 3 runs
     let x : RunArgs := { i := .vrank false false false true 1 2 4, d := 4, srcs := [.run false 2, .data false 1], pays := [], pay := false,
                          apart := [.run false 2] }
     runReady x s ∧ s.regs.vl = 0) := by decide +kernel
theorem witness_RankAndTags_len : runs.owns (2 : Reg).toNat 1 = true ∧ srcFull runs 2 1 (sewNow runs) ∧ fullX runs 5 ∧
    queued.isQueue (28 : Reg).toNat = true ∧ queued.regs.sewCode ≠ 0 ∧ srcFull queued 28 1 (sewNow queued) ∧ fullX queued 5 := by decide +kernel
theorem witness_KeysAreOrdered : 0x80 < 2 ^ ({ kw := 8 } : KeyOrder).kw ∧ 1 ≤ ({ kw := 8 } : KeyOrder).kw ∧ ({ kw := 8 } : KeyOrder).kt ≤ 2 ∧
    ({ kw := 8 } : KeyOrder).desc = false := by decide
theorem witness_KeysAreOrdered_sorted : ({ kw := 8 } : KeyOrder).sorted [0x80, 0xFF, 0, 0x7F] = true ∧
    ({ kw := 8, kt := 2 } : KeyOrder).sorted [0xFF, 0x80, 0, 0x7F] = true ∧ ({ kw := 8, kt := 1, desc := true } : KeyOrder).sorted [0xFF, 0x80, 0x7F, 0] = true := by
  decide
theorem test_sorted : KeyOrder.sorted {} (((({} : KeyOrder).sort [(4, 0), (1, 1), (3, 2), (1, 3)])).map (fun e => e.1)) = true ∧
    ({} : KeyOrder).sort [(4, 0), (1, 1), (3, 2), (1, 3)] = [(1, 1), (1, 3), (3, 2), (4, 0)] := by decide +kernel
theorem test_vsort : shows (exec (.vsort false false 0 false 1 4) runs) (fun t => (elemsAt 4 32 4 t, t.regs.stag.get 0 4)) =
    some ([1, 1, 3, 4], 0x88000004) := by decide +kernel
theorem test_vmerge : shows (exec (.vmerge false false false 3 2 4) runs) (fun t => elemsAt 4 32 5 t) = some [1, 1, 3, 4, 5] := by decide +kernel
theorem test_vrank : shows (exec (.vrank false false false true 1 2 4) runs) (fun t => elemsAt 4 32 4 t) = some [2, 1, 2, 1] := by decide +kernel
theorem test_vrunLen : shows (exec (.vrunLen false 2 5) runs) (fun t => t.regs.getX 5) = some 2 := by decide +kernel
theorem test_vmergec : shows (exec (.vmergec false false false 3 2 4) runs) (fun t => (elemsAt 4 32 3 t, t.regs.seam)) =
    some ([1, 1, 3], 0x0000000100000002) := by decide +kernel

/-! ## Tiles -/

/-- The CR's tiles 0 and 1 are the core's 3 and 5, IDLE; x6 = 64; local memory from 64 holds 1, 2. -/
def tiled : State :=
  let s := onRun (setXs solo [(6, 64), (7, 2)]) (fun r => { r with tiles := [3, 5] })
  let C := s.core
  let T : Tile := { st := .idle }
  s.setCore { C with tiles := (C.tiles.set {} 3 { T with cells := 7 }).set {} 5 T,
                     scratch := C.scratch.setBytes 64 [1, 0, 0, 0, 2] }

theorem witness_TileSetUp : tileForm (.tcfg 4 1) = some (1, false, fun t => { t with st := .idle, fmt := 4, int := (4 : BitVec 3) == 4, cells := 0 }) ∧
    tiled.isAccess = false ∧ tileFree tiled 1 5 false := ⟨rfl, by decide +kernel⟩
theorem witness_TileSetUp_zero : tileForm .tzero0 = some (0, true, fun t => { t with cells := 0 }) ∧ tileFree tiled 0 3 true :=
  ⟨rfl, by decide +kernel⟩
theorem witness_TileSetUp_busy :
    (let s := setTile tiled 3 { st := .busy }
     s.isAccess = false ∧ s.run.tiles[0]? = some 3 ∧ (s.core.tiles.get {} 3).st = .busy) := by decide +kernel
theorem witness_TileSetUp_pred : predForm .tpred6 = some 6 ∧ fullX (setXs tiled [(6, 0x0201)]) 6 ∧
    badPredicate ((setXs tiled [(6, 0x0201)]).regs.getX 6) = false := by decide +kernel
theorem witness_OuterProductResult : tiled.isAccess = false ∧ tileFree tiled 0 3 true ∧
    slabReady tiled 1 (sliceBits (0 : BitVec 3).toNat) (tileWidth (0 : BitVec 3).toNat) ∧
    slabReady tiled 2 (sliceBits (0 : BitVec 3).toNat) (tileWidth (0 : BitVec 3).toNat) ∧ (tiled.core.tiles.get {} 3).int = ((0 : BitVec 3) == 4) := by
  decide +kernel
theorem witness_ScaleAccumulateResult : tiled.isAccess = false ∧ (0 : BitVec 3) ≠ 1 ∧ (3 : Nat) ≠ 5 ∧ tileFree tiled 0 3 true ∧ tileFree tiled 1 5 true ∧
    (tiled.core.tiles.get {} 3).int = false ∧ slabReady tiled 1 4096 32 ∧ slabReady tiled 2 4096 32 := by decide +kernel
theorem witness_TileMoveResult : tileMoveForm (.tmovr 1 0 7 5) = some (false, 1, 0, 7, 5) ∧ tiled.isAccess = false ∧ tileFree tiled 0 3 true ∧
    fullX tiled 7 ∧ (tiled.regs.getX 7).toNat + (5 : BitVec 8).toNat ≤ 127 ∧ tiled.badSlab (1 : Reg).toNat 4096 = false ∧
    tiled.isQueue (1 : Reg).toNat = false ∧ (∀ j, j < tiled.slabs 4096 → tiled.regs.emptyV ((1 : Reg).toNat + j) = false) := by decide +kernel
theorem witness_TileMoveResult_queue :
    (let s := pairAt .e tiled
     s.isAccess = false ∧ tileFree s 0 3 true ∧ fullX s 7 ∧ s.badSlab (30 : Reg).toNat 4096 = false ∧ s.isQueue (30 : Reg).toNat = true ∧ Quiet s ∧
     (s.front.sqData.get [] 2).length < 16 ∧ (s.front.sqAddr.get [] 2)[(s.front.sqData.get [] 2).length]? = none) := by decide +kernel
theorem witness_TileRowResult : rowReady tiled 3 0 6 127 ∧ tiled.hart.buf = [] ∧ tiled.priv = false := by decide +kernel

theorem test_tcfg : shows (exec (.tcfg 4 0) tiled) (fun t => ((t.core.tiles.get {} 3).int, (t.core.tiles.get {} 3).cells == 0, t.regs.pc)) =
    some (true, true, 8) := by decide +kernel
theorem test_tld : shows (exec (.tld 0 6 1) tiled) (fun t => (cellAt (t.core.tiles.get {} 3).cells 0 0, cellAt (t.core.tiles.get {} 3).cells 1 0,
    cellAt (t.core.tiles.get {} 3).cells 1 1)) = some (7, 1, 2) := by decide +kernel
theorem test_mopa_i32 :
    (let s := mapRegs (setTile tiled 3 { st := .idle, fmt := 4, int := true, cells := 7 }) (fun r => { r with tpred := 0x0101 })
     shows (exec (.mopa 4 0 1 2) (vreg 1 8 [2, 3, 0, 0] (vreg 2 8 [5, 0xFF, 0, 0] s))) (fun t => cellAt (t.core.tiles.get {} 3).cells 0 0)) =
      some 14 := by decide +kernel
/-! ## Views -/

/-- Granule 1 is covered storage with two slabs of pool; x6 = its start, x7 = one patch. -/
def covered : State :=
  let s := setXs solo [(6, 0x4000000), (7, 0x10000)]
  { s with dev := { s.dev with vpm := s.dev.vpm.set 0 1 0x0001000000F80000, pool := 2 } }

theorem witness_ViewNewResult : issueReady covered ∧ fullX covered 6 ∧ fullX covered 7 ∧ fullX covered 5 ∧ covered.late = false ∧
    0x4010000 ≤ 2 ^ 42 ∧ covered.uncoverable 0x4000000 0x4010000 = none ∧ covered.nextView = some 0 ∧
    covered.poolShort (covered.newPatches 0x4000000 0x4010000) = false := by decide +kernel
theorem witness_ViewNewResult_short :
    (let s : State := { covered with dev := { covered.dev with pool := 0 } }
     issueReady s ∧ s.uncoverable 0x4000000 0x4010000 = none ∧ s.nextView = some 0 ∧
     s.poolShort (s.newPatches 0x4000000 0x4010000) = true) := by decide +kernel

/-- x6 is the handle of a live view [0x4000000, 0x4020000); x7 and x8 stand inside it. -/
def viewed : State :=
  let s := setXs covered [(6, handleOf 1 0), (7, 0x4010000), (8, 0x4010000)]
  s.setView 0 { live := true, gen := 1, lo := 0x4000000, hi := 0x4020000, ctx := 0 }

theorem witness_ViewChangeResult :
    (let w : View := { live := true, gen := 1, lo := 0x4000000, hi := 0x4020000, ctx := 0 }
     issueReady viewed ∧ fullX viewed 6 ∧ fullX viewed 7 ∧ fullX viewed 8 ∧ viewed.liveView (viewed.regs.getX 6) = some w ∧
     w.lo ≤ (viewed.regs.getX 7).toNat ∧ (viewed.regs.getX 7).toNat ≤ (viewed.regs.getX 8).toNat ∧ (viewed.regs.getX 8).toNat ≤ w.hi ∧
     viewed.nextView = some 1) := by decide +kernel
theorem witness_ViewQueryResult :
    (let s := setXs viewed [(7, 1)]
     issueReady s ∧ fullX s 6 ∧ fullX s 7 ∧ fullX s 5 ∧ s.late = false ∧ (s.regs.getX 7).toNat ≤ 3) := by decide +kernel
theorem test_viewnew : shows (exec (.viewnew false false 7 6 5) covered) (fun t => (t.regs.getX 5, t.dev.patches.get 0 1024)) =
    some (0x1000000, 1) := by decide +kernel
theorem test_viewq_hi : shows (exec (.viewq false false 7 6 5) (setXs viewed [(7, 1)])) (fun t => t.regs.getX 5) = some 0x4020000 := by
  decide +kernel
theorem test_viewdrop : shows (exec (.viewdrop false 6) viewed) (fun t => (t.liveView (handleOf 1 0)).isSome) = some false := by decide +kernel

/-! ## Tasks -/

/-- An answer that is not an error and of which `f` holds. -/
def also {ε α : Type} (x : Except ε α) (f : α → Bool) : Bool :=
  match x with
  | .ok a => f a
  | .error _ => false

theorem of_also {ε α : Type} {x : Except ε α} {f : α → Bool} (h : also x f = true) : ∃ a, x = .ok a ∧ f a = true := by
  cases x with
  | ok a => exact ⟨a, rfl, h⟩
  | error e => exact nomatch h

/-- A CR image: code 0x40, frame 0x80, join counter, 1 to 2 slices, SOLO. -/
def image (join : Nat) : List Byte :=
  toBytes 8 0x40 ++ toBytes 8 0x80 ++ toBytes 8 join ++ toBytes 8 0 ++ toBytes 4 7 ++ toBytes 2 0 ++ [1, 2, 1, 0] ++ toBytes 6 0 ++
    toBytes 8 0 ++ toBytes 8 0

/-- A CR of region 5, which holds 8 entries on queue 0; x6 = 64, where an image stands, x7 = 3; the counter at 0x200 is 2. -/
def tasked (join : Nat) : State :=
  let s := onRun (setXs solo [(6, 64), (7, 3)]) (fun r => { r with cr := { r.cr with region := 5, weight := 100 }, cweight := 100 })
  let s := s.setRegionAt 5 { status := 1, lanemin := 1, lanemax := 8, hkind := 1, hmin := 1, hmax := 8, fronts := 4, share := 1,
                              reserve := Table.set 0 [] 0 8 }
  poke (poke s 64 (image join)) 0x200 [2]

theorem witness_SpawnResult : ∃ img u, issueReady (tasked 0) ∧ fullX (tasked 0) 6 ∧ fullX (tasked 0) 7 ∧
    loadBlock 64 64 8 (fresh (tasked 0)) = .ok (img, u) ∧ imageIllegal (tasked 0).regionNow img = false ∧
    spawnCharge (tasked 0) 3 0 3 ∧ (spawnedCr (tasked 0) img 3).joinaddr = 0 := by
  have h : also (loadBlock 64 64 8 (fresh (tasked 0))) (fun r => imageIllegal (tasked 0).regionNow r.1 == false &&
      (spawnedCr (tasked 0) r.1 3).joinaddr == 0) = true := by decide +kernel
  obtain ⟨⟨img, u⟩, e, k⟩ := of_also h
  simp only [Bool.and_eq_true, beq_iff_eq] at k
  exact ⟨img, u, by decide +kernel, by decide +kernel, by decide +kernel, e, k.1, by decide +kernel, k.2⟩
theorem witness_SpawnResult_parked : ∃ img u v, loadBlock 64 64 8 (fresh (tasked 0x200)) = .ok (img, u) ∧
    imageIllegal (tasked 0x200).regionNow img = false ∧ spawnCharge (tasked 0x200) 3 0 3 ∧
    (spawnedCr (tasked 0x200) img 3).joinaddr ≠ 0 ∧ readCounter (spawnedCr (tasked 0x200) img 3).joinaddr.toNat u = .ok (2, v) := by
  have h : also (loadBlock 64 64 8 (fresh (tasked 0x200))) (fun r => imageIllegal (tasked 0x200).regionNow r.1 == false &&
      (spawnedCr (tasked 0x200) r.1 3).joinaddr != 0 &&
      also (readCounter (spawnedCr (tasked 0x200) r.1 3).joinaddr.toNat r.2) (fun x => x.1 == 2)) = true := by decide +kernel
  obtain ⟨⟨img, u⟩, e, k⟩ := of_also h
  simp only [Bool.and_eq_true, beq_iff_eq, bne_iff_ne] at k
  obtain ⟨⟨n, v⟩, e', k'⟩ := of_also k.2
  simp only [beq_iff_eq] at k'
  exact ⟨img, u, v, e, k.1.1, by decide +kernel, k.1.2, by rw [e', k']⟩
theorem test_spawn : shows (exec (.spawn false false 7 6) (tasked 0))
    (fun t => (t.run.cweight, t.run.spawns, t.regionNow.ready.map CR.code, t.regionNow.ready.map CR.weight)) =
    some (97, 1, [0x40], [3]) := by decide +kernel
theorem test_spawn_parks : shows (exec (.spawn false false 7 6) (tasked 0x200)) (fun t => (t.regionNow.ready.length, t.regionNow.parked.length)) =
    some (0, 1) := by decide +kernel

theorem witness_JoinResult :
    (let s := setXs (tasked 0) [(6, 0x200)]
     issueReady s ∧ fullX s 6 ∧ fullX s 5 ∧ s.late = false ∧ atomicReady s (s.regs.getX 6).toNat 8 0x200) := by decide +kernel
theorem test_join_wakes :
    (let s := (setXs (tasked 0) [(6, 0x200)]).setRegionAt 5 { (tasked 0).regionNow with parked := [{ joinaddr := 0x200, tag := 9 }] }
     shows (exec (.join false 6 5) (poke s 0x200 [1])) (fun t => (t.regs.getX 5, t.mem.get 0 0x200, t.regionNow.ready.length))) =
      some (1, 0, 1) := by decide +kernel

theorem witness_ExitResult : (tasked 0).pair = false ∧ (tasked 0).priv = false ∧ Quiet (tasked 0) ∧ (tasked 0).late = false ∧ (tasked 0).ticket = 0 ∧
    (tasked 0).run.cr.save = 0 ∧ noneFailing (tasked 0) ∧
    ((tasked 0).regionNow.returned + (tasked 0).run.cweight).toNat ≠ 2 ^ 62 + (tasked 0).regionNow.drawn.toNat := by decide +kernel
theorem witness_ExitResult_late :
    (let s : State := { tasked 0 with late := true }
     s.pair = false ∧ s.priv = false ∧ s.front.drain = none ∧ s.late = true ∧ s.hart.holds = false) := by decide +kernel
theorem witness_ExitResult_pair : fed.isAccess = true ∧ fed.priv = false ∧ Quiet fed ∧ fed.front.e.live = true ∧
    (∀ q, q < 4 → (fed.front.queueSeen q).length < 16) ∧ (inPriv solo).priv = true := by decide +kernel
theorem test_exit : shows (exec .exit (tasked 0)) (fun t => (t.front.run.isNone, t.regionNow.returned)) = some (true, 0) := by decide +kernel
theorem test_exit_returns : shows (exec .exit (tasked 0)) (fun t => (t.regionAt 5).returned) = some 100 := by decide +kernel

/-- A descriptor header at 128 and an RCB image at 256 that takes all it can from region 0 of context 0, with room for 16 entries. -/
def launching : State :=
  let s := setXs solo [(6, 128), (7, 256)]
  let s := s.setCtxAt 0 { qentries := 16, scratch := 0, tiles := 0 }
  let hdr := toBytes 4 1 ++ toBytes 4 0 ++ toBytes 8 0x40 ++ toBytes 8 0x80 ++ [1, 1, 2, 0] ++ toBytes 4 0 ++ toBytes 4 3 ++ toBytes 92 0
  let img := toBytes 48 0 ++ toBytes 8 0x1000 ++ toBytes 4 8 ++ toBytes 196 0
  poke (poke s 128 hdr) 256 img

theorem witness_LaunchResult : ∃ hdr img u v, issueReady launching ∧ fullX launching 6 ∧ fullX launching 7 ∧ fullX launching 5 ∧
    launching.late = false ∧ loadBlock 128 128 128 (fresh launching) = .ok (hdr, u) ∧ loadBlock 256 256 256 u = .ok (img, v) := by
  have h : also (loadBlock 128 128 128 (fresh launching)) (fun r => okay (loadBlock 256 256 256 r.2)) = true := by decide +kernel
  obtain ⟨⟨hdr, u⟩, e, k⟩ := of_also h
  obtain ⟨⟨img, v⟩, e'⟩ := ok_of_okay k
  exact ⟨hdr, img, u, v, by decide +kernel, by decide +kernel, by decide +kernel, by decide +kernel, by decide +kernel, e, e'⟩
theorem witness_LaunchResult_status :
    (let s := launching
     let x : LaunchArgs := ⟨s.mem.bytes 128 128, s.mem.bytes 256 256, 256⟩
     freeRegion s.regions 0 65535 1 = some 1 ∧ launchStatus (s.effective 0) (resolve (s.effective 0) x) (s.childrenOf 0) false x = 0 ∧
     launchStatus (s.effective 0) (resolve (s.effective 0) x) (s.childrenOf 0) true x = 1) := by decide +kernel
theorem test_launch : shows (exec (.launch false false 7 6 5) launching)
    (fun t => (t.regs.getX 5, (t.regionAt 1).status, (t.regionAt 1).ready.map (fun c => (c.code, c.weight, c.root)))) =
    some (0x10000, 1, [(0x40, 0x4000000000000000, true)]) := by decide +kernel

theorem witness_WithdrawResult :
    (let s := (tasked 0).setRegionAt 5 { (tasked 0).regionNow with ready := [{ tag := 7, weight := 5 }, { tag := 8, weight := 6 }] }
     let out := ((s.regionAt 5).ready ++ (s.regionAt 5).parked).filter (withdrawable 7 0xFFFFFFFF)
     issueReady s ∧ fullX s 6 ∧ fullX s 7 ∧ fullX s 5 ∧ s.late = false ∧ (s.regionAt 5).status = 1 ∧
     (s.regionAt 5).returned + weightOf out ≠ BitVec.ofNat 64 (2 ^ 62) + (s.regionAt 5).drawn ∧ (s.regionAt 5).drawn.toNat ≤ 2 ^ 63) := by
  decide +kernel

/-- The block at 64 holds the index 10 and the limit 12. -/
def claiming : State := poke (setXs (lanes4 0 3 solo) [(6, 64), (7, 5)]) 64 (toBytes 8 10 ++ toBytes 8 12)

theorem witness_ClaimResult : issueReady claiming ∧ fullX claiming 6 ∧ fullX claiming 7 ∧ fullX claiming 5 ∧ claiming.late = false ∧
    Claims.reaches claiming .both (claiming.regs.getX 6).toNat 16 64 ∧ claiming.mixed claiming.ctx claiming.agent 8 64 16 = false ∧
    claiming.poisoned 64 16 = false ∧ (∀ j, j < 16 → claiming.stands claiming.agent 8 (64 + j) = true) ∧ (∀ j, j < 8 → claiming.lands claiming.agent 8 (64 + j) = true) := by decide +kernel
theorem test_claim : shows (exec (.claim false false 7 6 5) claiming) (fun t => (t.regs.getX 5, t.regs.vl, t.mem.bytes 64 2)) =
    some (10, 2, [12, 0]) := by decide +kernel

/-- The save pool holds one slab of each stack. -/
def saving : State := { tasked 0 with dev := { (tasked 0).dev with savePool := 8 } }

theorem witness_YieldResult : (inPriv solo).pair = false ∧ (inPriv solo).priv = true ∧
    (tasked 0).pair = false ∧ (tasked 0).priv = false ∧ Quiet (tasked 0) ∧ (tasked 0).hart.fills = [] ∧ (tasked 0).crBusy 0 = false ∧
    ((checkpoint ((fresh (tasked 0)).advance 4)).saveCr 0 true []).isNone = true ∧
    ((checkpoint ((fresh saving).advance 4)).saveCr 0 true []).isSome = true := by decide +kernel
theorem test_yield : shows (exec .yield saving) (fun t => (t.front.run.isNone, (t.regionAt 5).ready.map CR.weight)) = some (true, [100]) := by
  decide +kernel

theorem witness_WatermarkPublished :
    (let s := setXs (tasked 0) [(6, 0x200), (7, 9)]
     issueReady s ∧ fullX s 6 ∧ fullX s 7 ∧ atomicReady s (s.regs.getX 6).toNat 8 0x200) := by decide +kernel
theorem test_wmpub_raises : shows (exec (.wmpub false false 7 6) (setXs (tasked 0) [(6, 0x200), (7, 9)])) (fun t => t.mem.get 0 0x200) = some 9 := by
  decide +kernel
theorem test_wmpub_keeps : shows (exec (.wmpub false false 7 6) (setXs (tasked 0) [(6, 0x200), (7, 1)])) (fun t => t.mem.get 0 0x200) = some 2 := by
  decide +kernel
theorem witness_QueueSyncResult :
    (let s := setXs (tasked 0) [(6, 1)]
     s.isExec = false ∧ fullX s 6 ∧ fullX s 5 ∧ s.late = false ∧ (s.regs.getX 6).toNat ≤ 3) := by decide +kernel
theorem witness_RetentionResult :
    (let s := setXs solo [(6, 0x1000 + 8 * 3 + 2), (7, 0x100)]
     s.isExec = false ∧ fullX s 6 ∧ fullX s 7 ∧ (s.regs.getX 6).getLsbD 6 = false ∧ s.regs.getX 7 ≠ 0 ∧ (s.regs.getX 7).toNat % 128 = 0 ∧
     (s.regs.getX 6).toNat / 128 * 128 < 2 ^ 42 ∧ (s.regs.getX 6).toNat / 128 * 128 + (s.regs.getX 7).toNat ≤ 2 ^ 42) := by decide +kernel
theorem test_pin : shows (exec (.pin false false 7 6) (setXs solo [(6, 0x1000 + 8 * 3 + 2), (7, 0x100)]))
    (fun t => let e := (t.ctxAt 0).retention.get {} 2; (e.base, e.len, e.ways)) = some (0x1000, 0x100, 4) := by decide +kernel

/-- The front's CR holds the last of its region's weight; the region's `done` counter is at `done`. -/
def completing (done : Word) : State :=
  poke ((tasked 0).setRegionAt 5 { (tasked 0).regionNow with returned := BitVec.ofNat 64 (2 ^ 62 - 100), done := done }) 0x200 [2]

theorem witness_RegionCompletes :
    (let s := completing 0x200
     s.pair = false ∧ s.priv = false ∧ Quiet s ∧ s.late = false ∧ s.ticket = 0 ∧ s.run.cr.save = 0 ∧ noneFailing s ∧ s.regionNow.status = 1 ∧
     (s.regionNow.returned + s.run.cweight).toNat = 2 ^ 62 + s.regionNow.drawn.toNat) := by decide +kernel
theorem witness_RegionCompletes_region :
    (let s := (tasked 0).setRegionAt 5 { (tasked 0).regionNow with returned := BitVec.ofNat 64 (2 ^ 62), done := 0x200 }
     let R := s.regionAt 5
     R.status = 1 ∧ R.failing = false ∧ R.returned.toNat = 2 ^ 62 + R.drawn.toNat) := by decide +kernel
theorem witness_RegionCompletes_joined :
    (let s := completing 0x200
     let c := cacheLeaf s 256 0 .both true 0x200
     let v := { c with order := c.order.acquire deviceAgent 0x200 }
     (0x200 : Nat) % 8 = 0 ∧ scalarByte s 256 0 .both true 0x200 = .ok 0x200 ∧ v.mixed 0 deviceAgent 8 0x200 8 = false ∧ v.poisoned 0x200 8 = false ∧
     (∀ j, j < 8 → v.stands deviceAgent 8 (0x200 + j) = true ∧ v.lands deviceAgent 8 (0x200 + j) = true)) := by decide +kernel
theorem test_completes : shows (exec .exit (completing 0x200)) (fun t => ((t.regionAt 5).status, t.mem.get 0 0x200)) = some (2, 1) := by decide +kernel

/-- A privileged hart, whose exit terminates its CR, in a region of this policy and parent. -/
def terminating (propagate : Bool) (parent : Nat) : State :=
  let s := inPriv (tasked 0)
  let s := s.setRegionAt 6 { status := 1, faults := 3 }
  s.setRegionAt 5 { s.regionNow with propagate := propagate, parent := parent, ready := [{ weight := 9, region := 5 }] }

theorem witness_CrTerminated :
    (let s := terminating false 0
     s.priv = true ∧ s.ticket = 0 ∧ s.regionNow.propagate = false ∧ noneFailing s ∧
     (s.regionNow.returned + s.run.cweight).toNat ≠ 2 ^ 62 + s.regionNow.drawn.toNat) := by decide +kernel
theorem witness_RegionFails : ∀ p, p ∈ [0, 6] →
    (let s := terminating true p
     s.priv = true ∧ s.ticket = 0 ∧ s.regionNow.propagate = true ∧ s.regionNow.status = 1 ∧ noneFailing s ∧
     s.childrenOf s.regionKeyNow = [] ∧
     (∀ e ∈ s.dev.tickets, regionKey e.2.ctx e.2.region = s.regionKeyNow → e.2.live = false ∧ e.2.owing = false) ∧
     (∀ r ∈ s.running, regionKey r.2.ctx r.2.cr.region = s.regionKeyNow → r.1 = s.fid) ∧ (∀ c ∈ s.regionNow.ready, c.started = false) ∧
     s.regionNow.parent = p ∧ (s.regionAt 6).status = 1 ∧ (s.regionAt 6).propagate = false) := by decide +kernel
theorem test_region_fails : shows (exec .exit (terminating true 6)) (fun t => ((t.regionAt 5).status, (t.regionAt 5).ready.length, (t.regionAt 6).faults)) =
    some (3, 0, 4) := by decide +kernel

/-- On front 1 the queue of a CR of region 5 drains, whose last strip has buffered `buf`, and a CR of the region runs behind it. -/
def draining (buf : List Buffered) (behind : Bool) : State :=
  let s := tasked 0
  let x : Drain := { run := { s.run with cweight := 7 }, hart := { s.front.e with buf := buf }, grant := 8, lanes := 0xFF }
  s.setFrontAt 1 { s.front with drain := some x, run := if behind then some { s.run with cweight := 5 } else none, grant := 8, lanes := 0xFF }

theorem witness_DrainResult : ∀ b : Bool, ∃ x, drainReady (draining [] b) 1 x := by
  intro b
  refine ⟨((draining [] b).frontAt 1).drain.getD default, ?_⟩
  unfold drainReady
  cases b <;> decide +kernel
theorem witness_DrainResult_undrained :
    (let s := draining [] true
     (s.frontAt 1).drain.isSome = true ∧ (s.frontAt 1).run.isSome = true) := by decide +kernel
theorem witness_DrainResult_trap :
    (let s := draining [.global 0x4000000 0x4000000 1 [9] 0x44] true
     let s := { s with dev := { s.dev with vpm := s.dev.vpm.set 0 1 0x0001000000F80000 } }
     let x := (s.frontAt 1).drain.getD default
     (s.frontAt 1).drain = some x ∧ commitStrip ({ s with fid := 1, slot := .e }.setFrontAt 1
      { s.frontAt 1 with run := some x.run, drain := none, e := x.hart, image := x.image }) = .error (.trapAt 0x07 0x4000000 0x44)) := by
  decide +kernel
theorem test_drains : (let t := (draining [] true).drainFront 1
    ((t.frontAt 1).drain.isNone, (t.frontAt 1).run.isSome, (t.regionAt 5).returned)) = (true, true, 7) := by decide +kernel
theorem test_undrains : (let t := (draining [] true).undrain 1
    ((t.frontAt 1).run.map (fun r => r.cweight), (t.regionAt 5).ready.map CR.weight)) = (some 7, [5]) := by decide +kernel

/-! ## Dispatch and pre-emption -/

/-- Region 5 has a ready CR of one slice, and front 2 is idle. -/
def queue5 (kind : Nat) : State :=
  let s := (tasked 0).setRegionAt 5 { (tasked 0).regionNow with
    ready := [{ code := 0x40, frame := 0x80, weight := 50, kind := kind, lanemin := 1, lanemax := 2, region := 5 }] }
  { s with arg := { s.arg with front := 2 } }

theorem of_any {α : Type} {o : Option α} {p : α → Bool} (h : o.any p = true) : ∃ a, o = some a ∧ p a = true := by
  cases o with
  | none => exact nomatch h
  | some a => exact ⟨a, rfl, h⟩

theorem witness_DispatchResult : ∃ k g c D, (queue5 1).arg.front % 256 = 2 ∧ ((queue5 1).frontAt 2).frozen = false ∧
    ((queue5 1).frontAt 2).run = none ∧ ((queue5 1).frontAt 2).drain = none ∧ (queue5 1).firstOfDie 2 = true ∧
    (queue5 1).stranded 2 = none ∧ (queue5 1).decision 2 = some (k, c, g, D) ∧ c.save = 0 := by
  obtain ⟨⟨k, c, g, D⟩, x, y⟩ := of_any (o := (queue5 1).decision 2) (p := fun x => x.2.1.save == 0) (by decide +kernel)
  exact ⟨k, g, c, D, by decide +kernel, by decide +kernel, by decide +kernel, by decide +kernel, by decide +kernel, by decide +kernel, x,
    by simpa using y⟩
theorem witness_DispatchResult_pair : ((queue5 2).decision 2).any (fun x => x.2.1.save == 0 && x.2.1.kind == 2) = true ∧
    ((queue5 2).frontAt 2).frozen = false ∧ ((queue5 2).frontAt 2).run = none ∧ ((queue5 2).frontAt 2).drain = none ∧
    (queue5 2).firstOfDie 2 = true ∧ (queue5 2).stranded 2 = none := by decide +kernel

/-- A SOLO CR of region 5 with 8 lanes that has exited. -/
def leaving : Drain := { run := { (tasked 0).run with cweight := 7 }, grant := 8, lanes := 0xFF }

/-- Its queue drains on front 2, and the ready CR may run ahead. -/
def behind5 : State :=
  (queue5 1).setFrontAt 2 { (queue5 1).frontAt 2 with drain := some leaving, grant := 8, lanes := 0xFF }
theorem witness_DispatchResult_behind : ∃ k g c D, behind5.arg.front % 256 = 2 ∧ (behind5.frontAt 2).frozen = false ∧
    (behind5.frontAt 2).run = none ∧ (behind5.frontAt 2).drain = some leaving ∧ behind5.firstOfDie 2 = true ∧
    behind5.decisionBehind 2 leaving = some (k, c, g, D) ∧ c.save = 0 := by
  obtain ⟨⟨k, c, g, D⟩, e, y⟩ := of_any (o := behind5.decisionBehind 2 leaving) (p := fun x => x.2.1.save == 0) (by decide +kernel)
  exact ⟨k, g, c, D, by decide +kernel, by decide +kernel, by decide +kernel, by decide +kernel, by decide +kernel, e, by simpa using y⟩
theorem test_run_ahead : shows (exec .dispatch behind5) (fun t => ((t.frontAt 2).grant, (t.frontAt 2).lanes, (t.frontAt 2).drain.isSome,
    (t.frontAt 2).run.isSome)) = some (8, 0xFF, true, true) := by decide +kernel
theorem test_exit_drains : shows (exec .exit (onFront { tasked 0 with late := true } (fun F => { F with grant := 8, lanes := 0xFF }))) (fun t =>
    (t.front.run.isNone, t.front.drain.map (fun x => (x.run.cweight, x.grant, x.lanes)), (t.regionAt 5).returned)) =
    some (true, some (100, 8, 0xFF), 0) := by decide +kernel
theorem test_dispatch : shows (exec .dispatch (queue5 2)) (fun t => ((t.frontAt 2).grant, (t.frontAt 2).a.regs.pc, (t.frontAt 2).e.regs.pc,
    (t.frontAt 2).e.regs.getX 1, (t.regionAt 5).ready.length)) = some (16, 0x40, 0x44, 0x80, 0) := by decide +kernel

/-- A CR on front 0 that lost its lanes. -/
def laneless : State := onRun (tasked 0) (fun r => { r with laneless := true, cr := { r.cr with lanemin := 1, lanemax := 2 } })
theorem witness_DispatchResult_laneless :
    (let r := (laneless.frontAt 0).theRun
     laneless.arg.front % 256 = 0 ∧ (laneless.frontAt 0).frozen = false ∧ (laneless.frontAt 0).run.isSome = true ∧ r.laneless = true ∧
     min (r.cr.lanemax * 8) (laneCount (laneless.freeLanes 0).2 / 8 * 8) = 16 ∧ r.cr.lanemin * 8 ≤ 16 ∧
     (∀ x ∈ laneless.needsOf 0, Machine.reaches 16 x = true)) := by decide +kernel

/-- A saved CR bound to front 1, whose lanes are all retired. -/
def marooned : State :=
  let s := (tasked 0).setRegionAt 5 { (tasked 0).regionNow with
    ready := [{ weight := 50, kind := 1, lanemin := 1, lanemax := 2, region := 5, save := 3 }] }
  let s := s.setCore { s.core with lanemap := BitVec.allOnes 64 }
  { s with arg := { s.arg with front := 1 },
           dev := { s.dev with saves := s.dev.saves.set {} 3 { run := { bound := true }, front := 1 } } }
theorem witness_DispatchResult_stranded : marooned.arg.front % 256 = 1 ∧ (marooned.frontAt 1).frozen = false ∧
    (marooned.frontAt 1).run = none ∧ (marooned.frontAt 1).drain = none ∧ marooned.firstOfDie 1 = true ∧
    (marooned.stranded 1).isSome = true := by decide +kernel

/-- Front 0 runs a pre-emptible CR of region 5; region 6, of higher priority, has a ready CR `c`, and no other core has a lane. -/
def contendedBy (lanes : Word) (c : CR) : State :=
  let s := onFront saving (fun F => { F with lanes := lanes, grant := 8 })
  let s := s.setRegionAt 5 { s.regionNow with preemptible := true, priority := 1 }
  let s := s.setRegionAt 6 { s.regionNow with priority := 5, ready := [c] }
  let dead : Core := { lanemap := BitVec.allOnes 64 }
  { s with cores := (List.range 127).map (fun k => (k + 1, dead)) }

/-- A CR that needs the whole core. -/
def contended : State := contendedBy 0xFF { weight := 50, kind := 1, lanemin := 8, lanemax := 8, region := 6 }

/-- A CR that is bound to front 1, for which front 0 leaves no lanes. -/
def reclaimed : State :=
  let s := contendedBy (BitVec.allOnes 64) { weight := 50, kind := 1, lanemin := 1, lanemax := 2, region := 6, save := 3 }
  { s with dev := { s.dev with saves := s.dev.saves.set {} 3 { run := { bound := true }, front := 1 } } }

/-- Lane 0 of front 0 is retired. -/
def lane0Lost : State :=
  let s := onFront saving (fun F => { F with lanes := 0xFF, grant := 8 })
  s.setCore { s.core with lanemap := 1 }

theorem witness_BoundaryPreemptionResult : contended.arg.front % 256 = 0 ∧ contended.victim = some (0, false) ∧
    (contended.frontAt 0).anyPriv = false ∧ (contended.frontAt 0).a.fills = [] ∧ (contended.frontAt 0).e.fills = [] ∧
    (contended.frontAt 0).midLoop = false ∧ (contended.frontAt 0).drain = none ∧ nothingPending contended 0 ∧
    (contended.saveArea 0 true []).isSome = true := by
  refine ⟨by decide +kernel, by decide +kernel, by decide +kernel, by decide +kernel, by decide +kernel, by decide +kernel, by decide +kernel, ?_,
    by decide +kernel⟩
  intro sl
  cases sl <;> decide +kernel
theorem witness_AbortPreemptionResult : reclaimed.arg.front % 256 = 0 ∧ Claims.abortable reclaimed 0 ∧ reclaimed.laneLost 0 = false ∧
    reclaimed.victim = some (0, true) ∧ ((reclaimed.abortHarts 0).saveArea 0 false []).isSome = true := by decide +kernel
theorem witness_AbortPreemptionResult_full :
    (let s := { reclaimed with dev := { reclaimed.dev with saves := reclaimed.dev.saves.set {} 4 { units0 := 32768 } } }
     Claims.abortable s 0 ∧ s.laneLost 0 = false ∧ s.victim = some (0, true) ∧ ((s.abortHarts 0).saveArea 0 false []).isSome = false) := by
  decide +kernel
theorem witness_AbortPreemptionResult_lane : lane0Lost.arg.front % 256 = 0 ∧ Claims.abortable lane0Lost 0 ∧ lane0Lost.laneLost 0 = true ∧
    lane0Lost.arg.flag = false ∧ (lane0Lost.frontAt 0).theRun.bound = false ∧ (lane0Lost.abortHarts 0).crBusy 0 = false ∧
    ((lane0Lost.abortHarts 0).saveArea 0 false []).isSome = true := by decide +kernel
theorem witness_AbortPreemptionResult_laneless :
    (let s := { lane0Lost with dev := { lane0Lost.dev with savePool := 0 } }
     Claims.abortable s 0 ∧ s.laneLost 0 = true ∧ s.arg.flag = false ∧ (s.frontAt 0).theRun.bound = false ∧
     ((s.abortHarts 0).saveArea 0 false []).isSome = false) := by decide +kernel
theorem witness_AbortPreemptionResult_hopeless :
    (let s := onRun lane0Lost (fun r => { r with bound := true, cr := { r.cr with lanemin := 8, lanemax := 8 } })
     let t := s.abortHarts 0
     Claims.abortable s 0 ∧ s.laneLost 0 = true ∧ s.arg.flag = false ∧ (s.frontAt 0).theRun.bound = true ∧
     t.hopeless 0 (s.frontAt 0).theRun.cr (t.needsOf 0) = true) := by decide +kernel
theorem witness_AbortPreemptionResult_ecc :
    (let s := { lane0Lost with arg := { lane0Lost.arg with flag := true } }
     Claims.abortable s 0 ∧ s.laneLost 0 = true ∧ s.arg.flag = true) := by decide +kernel
theorem witness_AbortPreemptionResult_none : (tasked 0).laneLost 0 = false ∧ (tasked 0).victim ≠ some (0, true) := by decide +kernel
theorem test_boundary : shows (exec .boundaryPreemption contended) (fun t => (t.front.run.isNone, (t.regionAt 5).ready.map CR.weight)) =
    some (true, [100]) := by decide +kernel
theorem test_abort : shows (exec .abortPreemption reclaimed) (fun t => (t.front.run.isNone, (t.regionAt 5).ready.length)) = some (true, 1) := by
  decide +kernel

/-! ## Speculation -/

/-- x6 = 64, a request block of mode FIDDLE with an output range at 0x1000; x7 = 192, an image; a descriptor at 128 of one FP32 element at
0x2000, with the history at 0x3000 and the watermark at 0x3100. `versions` is how many versions it holds. -/
def guessing (versions : Nat) : State :=
  let s := setXs (tasked 0) [(6, 64), (7, 192)]
  let blk := toBytes 8 0 ++ toBytes 8 128 ++ toBytes 8 5 ++ toBytes 8 0 ++ toBytes 8 0 ++ toBytes 8 (0x1000 + 4 * 2 ^ 42) ++ toBytes 16 0
  let desc := toBytes 8 0x2000 ++ toBytes 8 (versions * 2 ^ 19) ++ toBytes 8 0x3000 ++ toBytes 8 0x3100 ++ toBytes 32 0
  poke (poke (poke (poke s 64 blk) 128 desc) 192 (image 0)) 0x3000 (toBytes 4 0x3F800000)

/-- SPECB's operands and ranges, as a test. -/
def specReads (s : State) : Bool :=
  also (loadBlock 64 64 64 (fresh s)) (fun x =>
    let r := Request.ofBytes x.1
    r.mode == 0 && also (loadBlock r.first 64 64 x.2) (fun y => also (loadBlock 192 64 8 y.2) (fun z =>
      let D := VersionDesc.ofBytes y.1
      !imageIllegal s.regionNow z.1 && (CR.ofBytes z.1).joinaddr == 0 && r.rejoin == 0 &&
      (r.loads D).all (fun g => okay (windowPieces z.2 z.2.ctx .read g.1 g.2)) &&
      r.outs.all (fun g => okay (windowPieces z.2 z.2.ctx .write g.1 g.2)) &&
      s.specStatus r D == if D.versions = 0 then 3 else 0)))

theorem spec_reads (s : State) (ha : s.regs.getX 6 = 64) (hb : s.regs.getX 7 = 192) (h : specReads s = true) :
    ∃ blk desc img u, specOperands s 6 7 blk desc img u ∧ specProbes u (Request.ofBytes blk) (VersionDesc.ofBytes desc) ∧
      s.specStatus (Request.ofBytes blk) (VersionDesc.ofBytes desc) = if (VersionDesc.ofBytes desc).versions = 0 then 3 else 0 := by
  obtain ⟨⟨blk, t⟩, e1, k⟩ := of_also h
  simp only [Bool.and_eq_true, beq_iff_eq] at k
  obtain ⟨⟨desc, v⟩, e2, k2⟩ := of_also k.2
  obtain ⟨⟨img, u⟩, e3, k3⟩ := of_also k2
  simp only [Bool.and_eq_true, beq_iff_eq, Bool.not_eq_true', List.all_eq_true] at k3
  obtain ⟨⟨⟨⟨⟨p1, p2⟩, p3⟩, p4⟩, p5⟩, p6⟩ := k3
  refine ⟨blk, desc, img, u, ⟨t, v, ?_, ?_, ?_, p1, p2⟩, ⟨fun x hx => ok_of_okay (p4 x hx), fun x hx _ => ok_of_okay (p5 x hx), .inl p3⟩, p6⟩
  · rw [ha]; exact e1
  · rw [if_pos k.1]; exact e2
  · rw [hb]; exact e3

theorem witness_SpeculationBegins : issueReady (guessing 1) ∧ fullX (guessing 1) 6 ∧ fullX (guessing 1) 7 ∧ fullX (guessing 1) 5 ∧
    (guessing 1).late = false ∧ spawnCharge (guessing 1) 0 0 50 ∧ (guessing 1).freeTicket = 1 := by decide +kernel
theorem witness_SpeculationBegins_accepted : ∃ blk desc img u, specOperands (guessing 1) 6 7 blk desc img u ∧
    specProbes u (Request.ofBytes blk) (VersionDesc.ofBytes desc) ∧
    (guessing 1).specStatus (Request.ofBytes blk) (VersionDesc.ofBytes desc) =
      if (VersionDesc.ofBytes desc).versions = 0 then 3 else 0 :=
  spec_reads _ (by decide +kernel) (by decide +kernel) (by decide +kernel)
theorem witness_SpeculationBegins_refused : ∃ blk desc img u, specOperands (guessing 0) 6 7 blk desc img u ∧
    specProbes u (Request.ofBytes blk) (VersionDesc.ofBytes desc) ∧
    (guessing 0).specStatus (Request.ofBytes blk) (VersionDesc.ofBytes desc) =
      if (VersionDesc.ofBytes desc).versions = 0 then 3 else 0 :=
  spec_reads _ (by decide +kernel) (by decide +kernel) (by decide +kernel)
theorem witness_SpeculationBegins_owing :
    (let s := (guessing 1).setTicketAt 1 { st := .squashed, gen := 1, region := 5, owing := true, total := 20, pool := 5 }
     issueReady s ∧ spawnCharge s 0 0 50 ∧ specReads s = true ∧ s.freeTicket = 1 ∧ (s.ticketAt 1).owing = true) := by decide +kernel
theorem test_specb : shows (exec (.specb false false 7 6 5) (guessing 1)) (fun t =>
    (t.regs.getX 5, t.run.cweight, (t.ticketAt 1).st, (t.ticketAt 1).pred.bytes 0x2000 4)) =
    some (0x101, 50, .opened, toBytes 4 0x3F800000) := by decide +kernel
theorem test_specb_history : shows (exec (.specb false false 7 6 5) (guessing 0)) (fun t => (t.regs.getX 5, t.run.cweight)) = some (3, 100) := by
  decide +kernel

/-- x6 names ticket 1 of context 0 and region 5, in state `st`: one FP32 element at 0x2000, predicted 1.0, whose watermark at 0x3100 is 5;
the CR of the front is another. -/
def ticketed (st : TicketSt) (real : Nat) : State :=
  let s := setXs (tasked 0) [(6, 0x101), (7, 1)]
  let T : Ticket := { st := st, gen := 1, region := 5, desc := 128, buf := 0x2000, count := 1, wm := 0x3100, target := 5,
                      pred := Table.setBytes [] 0x2000 (toBytes 4 0x3F800000), total := 50, pool := 50,
                      image := { weight := 50, region := 5, kind := 1, lanemin := 1, lanemax := 2, ticket := 1 } }
  let s := poke (poke s 0x3100 [5]) 0x2000 (toBytes 4 real)
  { (s.setTicketAt 1 T) with arg := { s.arg with ticket := 1 } }

theorem witness_TicketAnswers :
    (let s := ticketed .committed 0
     s.isExec = false ∧ s.ticket = 0 ∧ fullX s 6 ∧ fullX s 7 ∧ fullX s 5 ∧ s.late = false ∧ (s.regs.getX 7).toNat ≤ 1 ∧
     named s 6 = some 1 ∧ (s.ticketAt 1).live = false) := by decide +kernel
theorem witness_TicketAnswers_waits :
    (let s := setXs (ticketed .opened 0) [(7, 0)]
     s.isExec = false ∧ s.ticket = 0 ∧ fullX s 6 ∧ fullX s 7 ∧ fullX s 5 ∧ s.late = false ∧ named s 6 = some 1 ∧
     (s.ticketAt 1).live = true ∧ s.regs.getX 7 = 0) := by decide +kernel
theorem witness_TicketAnswers_returns :
    (let s := onHart (setXs (ticketed .squashed 0) [(7, 0)]) (fun h => { h with wait := .specq, waitInstr := some (.specq false false 7 6 5) })
     s.isExec = false ∧ s.ticket = 0 ∧ s.hart.wait = .specq ∧ s.hart.waitInstr = some (.specq false false 7 6 5) ∧ named s 6 = some 1 ∧
     (s.ticketAt 1).live = false) := by decide +kernel
theorem test_specq : shows (exec (.specq false false 7 6 5) (ticketed .committed 0)) (fun t => t.regs.getX 5) = some 0x0000FFFFFFFF0002 := by
  decide +kernel
theorem witness_TicketAbandoned : issueReady (ticketed .opened 0) ∧ fullX (ticketed .opened 0) 6 ∧
    (ticketed .opened 0).liveTicket ((ticketed .opened 0).regs.getX 6) = some 1 ∧
    (ticketed .committed 0).liveTicket ((ticketed .committed 0).regs.getX 6) = none := by decide +kernel
theorem test_specx : shows (exec (.specx false 6) (ticketed .opened 0)) (fun t => ((t.ticketAt 1).st, (t.ticketAt 1).cause)) =
    some (.abandoned, 0xFD) := by decide +kernel
theorem witness_GaugeJudges : (ticketed .opened 0x3F800000).arg.ticket = 1 ∧
    (ticketed .opened 0x3F800000).checkDue ((ticketed .opened 0x3F800000).ticketAt 1) = true ∧
    ((ticketed .opened 0x3F800000).ticketAt 1).real = none ∧
    (ticketed .opened 0x3F800000).peekWindow 0 0x2000 4 = .ok (toBytes 4 0x3F800000) := by decide +kernel
theorem witness_GaugeJudges_taken :
    (let s := ticketed .opened 0
     let s := s.setTicketAt 1 { s.ticketAt 1 with real := some (0, toBytes 4 0x3F800000) }
     s.arg.ticket = 1 ∧ s.checkDue (s.ticketAt 1) = true ∧ (s.ticketAt 1).real = some (0, toBytes 4 0x3F800000)) := by decide +kernel
theorem witness_GaugeJudges_unreadable :
    (let s := ticketed .opened 0
     let s := s.setTicketAt 1 { s.ticketAt 1 with buf := 0x4000000 }
     s.checkDue (s.ticketAt 1) = true ∧ s.peekWindow 0 0x4000000 4 = .error 0x04) := by decide +kernel
theorem test_gauge_passes : shows (exec .gaugeCheck (ticketed .opened 0x3F800000)) (fun t => (t.ticketAt 1).verdict) = some (some true) := by
  decide +kernel
theorem test_gauge_squashes : shows (exec .gaugeCheck (ticketed .opened 0x40000000)) (fun t => ((t.ticketAt 1).st, (t.ticketAt 1).first)) =
    some (.squashed, 0) := by decide +kernel

/-- Ticket 1 is DONE and has passed; ticket 2 is its child. -/
def passing : State :=
  let s := ticketed .done 0
  let s := s.setTicketAt 1 { s.ticketAt 1 with verdict := some true, shadow := Table.setBytes [] 0x1000 [7], written := [0x1000], outs := [(0x1000, 4)] }
  s.setTicketAt 2 { st := .opened, gen := 1, region := 5, chain := true, parent := 1 }

theorem witness_TicketCommits : passing.arg.ticket = 1 ∧ passing.commitDue (passing.ticketAt 1) = true ∧ (passing.ticketAt 2).live = true ∧
    (passing.ticketAt 2).chain = true ∧ (passing.ticketAt 2).parent = 1 ∧ vectorByte passing 0 .write 0x1000 = .ok 0x1000 := by decide +kernel
theorem test_ticket_commit : shows (exec .ticketCommit passing) (fun t => ((t.ticketAt 1).st, t.mem.get 0 0x1000, (t.ticketAt 2).verdict)) =
    some (.committed, 7, some true) := by decide +kernel

/-- A squashed ticket that is owed its weight, with all of it or half of it back. -/
def owed (pool : Word) : State :=
  let s := ticketed .squashed 0
  s.setTicketAt 1 { s.ticketAt 1 with owing := true, pool := pool }

theorem witness_TicketRequeues : (owed 50).arg.ticket = 1 ∧ ((owed 50).ticketAt 1).owing = true ∧ ((owed 50).ticketAt 1).live = false ∧
    (owed 50).frozenTicket ((owed 50).ticketAt 1) = false ∧ noneFailing (owed 50) ∧
    (((owed 50).sweepTicket 1).ticketAt 1).gathered = true ∧ ((owed 50).sweepTicket 1).noRequeue (((owed 50).sweepTicket 1).ticketAt 1) = false ∧
    (((owed 50).sweepTicket 1).ticketAt 1).rejoin = 0 ∧ (((owed 25).sweepTicket 1).ticketAt 1).gathered = false := by decide +kernel
theorem test_requeue : shows (exec .squashRequeue (owed 50)) (fun t => ((t.regionAt 5).ready.map CR.weight, (t.regionAt 5).ready.map CR.ticket,
    (t.ticketAt 1).owing)) = some ([50], [0], false) := by decide +kernel
/-! ## Engines -/

/-- A record of eight dwords. -/
def record (l : List Nat) : BitVec 512 := BitVec.ofNat 512 (packElems 64 l)

/-- A front with one command in the chain of an engine. -/
def chained (sel : Nat) (c : Cmd) (s : State) : State := onFront s (fun F => { F with chain := F.chain.set [] sel [c] })

theorem working_alone (s : State) (e : Site) (c : Cmd) (h : (s.arg.front = e.f ∧ e.f < 256 ∧ s.arg.n = 1 ∧
    s.cmdAt e.f e.sel e.k = some c ∧ e.seq = c.seq ∧ s.mayWork e.f e.sel e.k c = true ∧ c.phase = .running) ∧ e.k = 0 ∧
    ∀ sel, sel < 3 → ((s.frontAt e.f).chain.get [] sel).length ≤ if sel = e.sel then 1 else 0) : working s e c := by
  obtain ⟨⟨a1, a2, a3, a4, a5, a6, a7⟩, k0, l⟩ := h
  refine ⟨a1, a2, a3, a4, a5, a6, a7, fun sel k x hs hx _ => ?_⟩
  have hk : k < ((s.frontAt e.f).chain.get [] sel).length := by
    rcases Nat.lt_or_ge k ((s.frontAt e.f).chain.get [] sel).length with h | h
    · exact h
    · have : s.cmdAt e.f sel k = none := List.getElem?_eq_none h
      rw [this] at hx; exact nomatch hx
  have hl := l sel (by omega)
  by_cases he : sel = e.sel
  · rw [if_pos he] at hl; exact ⟨he, by omega⟩
  · rw [if_neg he] at hl; omega

/-- vl 8 of 64-bit elements: a record in v8 that copies 8 bytes from 64 to 128; x6 names the copy engine; one entry for copies. -/
def issuing : State :=
  let s := setXs (tasked 0) [(6, 0), (7, 0)]
  let s := s.setRegionAt 5 { s.regionNow with reserve := (Table.set 0 [] 0 8).set 0 1 1 }
  vreg 8 64 [0, 8, 64, 128, 0, 0, 0, 0] (lanes4 8 4 s)

theorem witness_RecordsIssued : issueReady issuing ∧ fullX issuing 6 ∧ issuing.regs.sewCode = 4 ∧ issuing.regs.vl.toNat % 8 = 0 ∧
    srcReady issuing 8 (grpNow issuing) 64 ∧ (issuing.regs.getX 6).toNat ≤ 2 ∧
    checkRecords 0 (issuedRecords issuing false 8) (fresh issuing) = .ok ((), fresh issuing) := by decide +kernel
theorem witness_RecordsIssued_room : copyFol (record [0, 8, 64, 128, 0, 0, 0, 0]) = false ∧ issuing.regionNow.queueFull 1 = false ∧
    issuing.swatchesFree (issuing.copySwatches (record [0, 8, 64, 128, 0, 0, 0, 0])) = true ∧ (tasked 0).regionNow.queueFull 1 = true := by
  decide +kernel
theorem test_eissue : shows (exec (.eissue false false false 8 6 2) issuing) (fun t => (t.regs.mbit 2 0, (t.front.chain.get [] 0).length, t.run.bound,
    t.regionNow.charged.get 0 1)) = some (true, 1, true, 1) := by decide +kernel
theorem test_eissue_full : shows (exec (.eissue false false false 8 6 2) (issuing.setRegionAt 5 (tasked 0).regionNow)) (fun t => (t.regs.mbit 2 0,
    (t.front.chain.get [] 0).length)) = some (false, 0) := by decide +kernel

/-- The copy engine's number is 3; x6 names it and x7 asks for `n`. -/
def sequenced (n : Word) : State := onFront (setXs solo [(6, 0), (7, n)]) (fun F => { F with seq := F.seq.set 0 0 3 })

theorem witness_EngineSequence : (sequenced 3).isExec = false ∧ fullX (sequenced 3) 6 ∧ fullX (sequenced 3) 7 ∧ fullX (sequenced 3) 5 ∧
    (sequenced 3).late = false ∧ ((sequenced 3).regs.getX 6).toNat ≤ 2 ∧ targetReached (sequenced 3) 6 7 ∧ ¬ targetReached (sequenced 4) 6 7 := by
  decide +kernel
theorem witness_EngineSequence_own :
    (let s := onFront (sequenced 3) (fun F => { F with own := F.own.set none 1 (some 7) })
     (sequenced 3).front.own.get none (3 * (sequenced 3).ctx + 1) = none ∧ s.front.own.get none (3 * s.ctx + 1) = some 7) := by decide +kernel
theorem witness_EngineSequence_woken :
    (let s := onHart (sequenced 3) (fun h => { h with wait := .ewait, waitInstr := some (.ewait false false 7 6) })
     s.isExec = false ∧ fullX s 6 ∧ fullX s 7 ∧ targetReached s 6 7 ∧ s.hart.wait = .ewait ∧ s.hart.waitInstr = some (.ewait false false 7 6)) := by
  decide +kernel
theorem test_eseq : shows (exec (.eseq false 6 5) (sequenced 3)) (fun t => t.regs.getX 5) = some 3 := by decide +kernel
theorem test_ewait_waits : shows (exec (.ewait false false 7 6) (sequenced 4)) (fun t => (t.hart.wait, t.regs.pc)) = some (.ewait, 0) := by
  decide +kernel

/-- Two completed commands whose shadows are to be published, of numbers 2 and 4. -/
def shadowed : State :=
  let l : List Cmd := [{ seq := 2, label := 2, complete := true, shadow := Table.setBytes [] 64 [9] },
    { seq := 4, label := 4, complete := true, shadow := Table.setBytes [] 65 [8] }]
  onFront (sequenced 3) (fun F => { F with shadows := F.shadows.set [] 0 l })

theorem witness_ShadowsPublished : issueReady shadowed ∧ fullX shadowed 6 ∧ fullX shadowed 7 ∧ (shadowed.regs.getX 6).toNat ≤ 2 ∧
    targetReached shadowed 6 7 := by decide +kernel
theorem witness_ShadowsPublished_woken :
    (let s := onHart shadowed (fun h => { h with wait := .epub, waitInstr := some (.epub false false 7 6) })
     issueReady s ∧ targetReached s 6 7 ∧ s.hart.wait = .epub ∧ s.hart.waitInstr = some (.epub false false 7 6)) := by decide +kernel
theorem witness_ShadowsPublished_ticket :
    (let s := onRun (ticketed .opened 0) (fun r => { r with cr := { r.cr with ticket := 1 } })
     let s := setXs s [(6, 0), (7, 3)]
     s.isExec = false ∧ Quiet s ∧ queuesClear s ∧ fullX s 6 ∧ fullX s 7 ∧ (s.regs.getX 6).toNat ≤ 2 ∧ s.ticket ≠ 0 ∧
     (s.ticketAt s.ticket).log.length < 16) := by decide +kernel
theorem witness_ShadowsPublished_bytes : controlInWindow shadowed ∧
    (let l : List (Nat × Nat × Byte) := [(0, 64, 9), (0, 65, 8)]
     vectorByte shadowed 0 .write 64 = .ok 64 ∧ vectorByte shadowed 0 .write 65 = .ok 65 ∧
     (∀ x ∈ l, ∀ y ∈ l, vectorByte shadowed x.1 .write x.2.1 = vectorByte shadowed y.1 .write y.2.1 → y = x) ∧
     (∀ x ∈ l, shadowed.hardwareOwned x.2.1 = false) ∧ ∀ x ∈ l, vectorByte shadowed x.1 .write x.2.1 ≠ .ok 66) := by
  decide +kernel
theorem test_epub : shows (exec (.epub false false 7 6) shadowed) (fun t => (t.mem.get 0 64, t.mem.get 0 65, (t.front.shadows.get [] 0).length)) =
    some (9, 0, 1) := by decide +kernel

/-! ## Work on commands -/

/-- A running copy command, over 1.0 and 2.0 as FP32 at 64 and a table of cosine 1 and sine 0 at 256. -/
def copying (l : List Nat) : State :=
  let s := chained 0 { raw := record l, phase := .running, seq := 1 } solo
  poke (poke s 64 (toBytes 4 0x3F800000 ++ toBytes 4 0x40000000)) 256 (toBytes 4 0x3F800000)

/-- Its command. -/
def copyCmd (l : List Nat) : Cmd := { raw := record l, phase := .running, seq := 1 }

/-- What a copy of one unit to global memory at 128 asks, its access of `n` bytes of `size`. -/
abbrev copyReady (l : List Nat) (op size n : Nat) : Prop :=
  let s := copying l
  let c := copyCmd l
  let e : Site := ⟨0, 0, 0, 1⟩
  copyOp c.raw = op ∧ s.arg.k = e.k ∧ plainCommand c ∧ (unitWrites s e c).any (fun x => x.1 == size && x.2.1.length == n) = true ∧
  undisturbed s e c n ∧ isLocal (copyDst c.raw + c.pos) = false ∧ windowPieces s c.ctx .write (copyDst c.raw + c.pos) n = .ok [⟨128, 128, n⟩] ∧
  s.mixed c.ctx e.agent size 128 n = false ∧ (∀ j, j < n → s.lands e.agent size (128 + j) = true) ∧ controlInWindow s

theorem witness_CopyWork_working : ∀ l, l ∈ [[0, 8, 64, 128], [1, 8, 0, 128, 0, 5], [2 + 2 ^ 26, 1, 64, 128], [3, 2, 64, 128, 0, 256 + 2 ^ 48],
    [1, 8, 0, 2 ^ 63 + 64, 0, 5]] → working (copying l) ⟨0, 0, 0, 1⟩ (copyCmd l) := by
  have h : ∀ l, l ∈ [[0, 8, 64, 128], [1, 8, 0, 128, 0, 5], [2 + 2 ^ 26, 1, 64, 128], [3, 2, 64, 128, 0, 256 + 2 ^ 48],
      [1, 8, 0, 2 ^ 63 + 64, 0, 5]] →
    (((copying l).arg.front = 0 ∧ 0 < 256 ∧ (copying l).arg.n = 1 ∧ (copying l).cmdAt 0 0 0 = some (copyCmd l) ∧ 1 = (copyCmd l).seq ∧
      (copying l).mayWork 0 0 0 (copyCmd l) = true ∧ (copyCmd l).phase = .running) ∧ 0 = 0 ∧
      ∀ sel, sel < 3 → (((copying l).frontAt 0).chain.get [] sel).length ≤ if sel = 0 then 1 else 0) := by decide +kernel
  exact fun l hl => working_alone _ _ _ (h l hl)
theorem witness_CopyWork_copy : copyStepOf .copy = some 0 ∧ copyReady [0, 8, 64, 128] 0 8 8 := by decide +kernel
theorem witness_CopyWork_fill : copyStepOf .fill = some 1 ∧ copyReady [1, 8, 0, 128, 0, 5] 1 8 8 := by decide +kernel
theorem witness_CopyWork_cvt : copyStepOf .cvt = some 2 ∧ copyReady [2 + 2 ^ 26, 1, 64, 128] 2 2 2 := by decide +kernel
theorem witness_CopyWork_rot : copyStepOf .rot = some 3 ∧ copyReady [3, 2, 64, 128, 0, 256 + 2 ^ 48] 3 4 8 := by decide +kernel
theorem witness_CopyWork_local :
    (let l := [1, 8, 0, 2 ^ 63 + 64, 0, 5]
     plainCommand (copyCmd l) ∧ (unitWrites (copying l) ⟨0, 0, 0, 1⟩ (copyCmd l)).any (fun x => x.2.1.length == 8) = true ∧
     undisturbed (copying l) ⟨0, 0, 0, 1⟩ (copyCmd l) 8 ∧ isLocal (copyDst (copyCmd l).raw + (copyCmd l).pos) = true) := by decide +kernel
theorem witness_CopyWork_read :
    (let s := copying [0, 8, 64, 128]
     windowPieces s 0 .read 64 8 = .ok [⟨64, 64, 8⟩] ∧ s.mixed 0 (Site.agent ⟨0, 0, 0, 1⟩) 8 64 8 = false ∧ s.poisoned 64 8 = false ∧
     (∀ j, j < 8 → s.order.settled (Site.agent ⟨0, 0, 0, 1⟩) 8 (64 + j) = true)) := by decide +kernel
theorem test_copy : shows (exec .copy (copying [0, 8, 64, 128])) (fun t => (t.mem.bytes 128 8, (t.cmdAt 0 0 0).map Cmd.phase)) =
    some ([0, 0, 0x80, 0x3F, 0, 0, 0, 0x40], some .finished) := by decide +kernel
theorem test_cvt : shows (exec .cvt (copying [2 + 2 ^ 26, 1, 64, 128])) (fun t => t.mem.bytes 128 2) = some [0x00, 0x3C] := by decide +kernel
theorem test_rot : shows (exec .rot (copying [3, 2, 64, 128, 0, 256 + 2 ^ 48])) (fun t => t.mem.bytes 128 8) =
    some [0, 0, 0x80, 0x3F, 0, 0, 0, 0x40] := by decide +kernel

/-- A running matrix command of op `op` over swatches 0 and 1 of the core, at 0 and 1024 of the scratchpad, and its tile 3. -/
def matrixCmd (op : Nat) : Cmd :=
  { raw := record [op + 4 * 256 + 2 ^ 20 + 2 ^ 28 + 2 ^ 42 + 2 ^ 48], phase := .running, seq := 1, srcs := if op = 2 then [] else [0, 1],
    dsts := if op = 2 then [0] else [], tile := some 3 }

def matrixState (op : Nat) : State :=
  let s := chained 1 (matrixCmd op) (setTile tiled 3 { st := .busy, fmt := 4, int := true, cells := 7 })
  let C := s.core
  s.setCore { C with swatches := (C.swatches.set {} 0 { len := 512, base := 0 }).set {} 1 { len := 512, base := 1024 }
                     scratch := (C.scratch.setBytes 0 [2, 3]).setBytes 1024 [5, 0xFF] }

theorem witness_MatrixWork_working : ∀ op, op ∈ [0, 1, 2] → working (matrixState op) ⟨0, 1, 0, 1⟩ (matrixCmd op) := by
  have h : ∀ op, op ∈ [0, 1, 2] →
    (((matrixState op).arg.front = 0 ∧ 0 < 256 ∧ (matrixState op).arg.n = 1 ∧ (matrixState op).cmdAt 0 1 0 = some (matrixCmd op) ∧ 1 = (matrixCmd op).seq ∧
      (matrixState op).mayWork 0 1 0 (matrixCmd op) = true ∧ (matrixCmd op).phase = .running) ∧ 0 = 0 ∧
      ∀ sel, sel < 3 → (((matrixState op).frontAt 0).chain.get [] sel).length ≤ if sel = 1 then 1 else 0) := by decide +kernel
  exact fun op ho => working_alone _ _ _ (h op ho)
theorem witness_MatrixWork : ∀ op, op ∈ [0, 1, 2] → (((matrixState op).coreAt 0).tileFor (matrixCmd op)).retired = false ∧
    (matrixCmd op).pos < matCount (matrixCmd op).raw ∧ matOp (matrixCmd op).raw = op := by decide +kernel
theorem witness_MatrixWork_follow :
    (let c (d : Bool) : Cmd := { follow := true, dropped := d, started := true }
     let s (d : Bool) := chained 1 (c d) solo
     ∀ d, (s d).arg.front = 0 ∧ (s d).cmdAt 0 1 0 = some (c d) ∧ (c d).phase = .waiting ∧ (s d).frozenCmd (c d) = false ∧
       (c d).away = false) := by decide +kernel
theorem test_macc : shows (exec .macc (matrixState 0)) (fun t => (cellAt (t.core.tiles.get {} 3).cells 0 0, (t.cmdAt 0 1 0).map Cmd.phase)) =
    some (14, some .finished) := by decide +kernel
theorem test_mload : shows (exec .mload (matrixState 1)) (fun t => cellAt (t.core.tiles.get {} 3).cells 0 0) = some 0x0302 := by decide +kernel
theorem test_mstore : shows (exec .mstore (matrixState 2)) (fun t => t.core.scratch.bytes 0 4) = some [7, 0, 0, 0] := by decide +kernel

/-- One row of 32 elements of BF16: W at 0x1000 holds 2.0 first, X at 0x2000 holds 3.0 first, Y is at 0x3000. -/
def matvecCmd : Cmd := { raw := record [0, 1 + 32 * 2 ^ 32, 0x1000, 0x2000, 0x3000], phase := .running, seq := 1 }

def matvecState : State := poke (poke (chained 2 matvecCmd solo) 0x1000 [0x00, 0x40]) 0x2000 [0x40, 0x40]

theorem witness_MatvecWork : working matvecState ⟨0, 2, 0, 1⟩ matvecCmd ∧ matvecState.arg.k = 0 ∧
    matvecCmd.pos < rhizM matvecCmd.raw * rhizBlocks matvecCmd.raw ∧
    (matvecState.stackFault 0 0 0x1000 64).all (fun x => x.1 != Cause.engine) = true ∧ matvecCmd.kept = none ∧
    matvecState.engineRead ⟨0, 2, 0, 1⟩ matvecCmd true 0x2000 2 64 = .ok (matvecState.mem.bytes 0x2000 64) ∧
    matvecState.engineRead ⟨0, 2, 0, 1⟩ matvecCmd true 0x1000 2 64 = .ok (matvecState.mem.bytes 0x1000 64) ∧ isLocal 0x3000 = false ∧
    windowPieces matvecState 0 .write 0x3000 4 = .ok [⟨0x3000, 0x3000, 4⟩] ∧
    matvecState.mixed 0 (Site.agent ⟨0, 2, 0, 1⟩) 4 0x3000 4 = false ∧
    (∀ j, j < 4 → matvecState.lands (Site.agent ⟨0, 2, 0, 1⟩) 4 (0x3000 + j) = true) :=
  ⟨working_alone _ _ _ (by decide +kernel), by decide +kernel, by decide +kernel, by decide +kernel, rfl, by decide +kernel, by decide +kernel,
    by decide +kernel, by decide +kernel, by decide +kernel, by decide +kernel⟩
/-- Its vector may have been read already. -/
theorem witness_MatvecWork_kept :
    (let c : Cmd := { matvecCmd with kept := some (0x2000, List.replicate 64 5) }
     c.kept = some (0x2000, List.replicate 64 5) ∧ 0x2000 ≤ 0x2000 + 0 * 64 ∧ 0x2000 + (0 + 1) * 64 ≤ 0x2000 + (List.replicate 64 (5 : Byte)).length) := by
  decide +kernel
theorem test_matvec : shows (exec .matvec matvecState) (fun t => (t.mem.bytes 0x3000 4, (t.cmdAt 0 2 0).map Cmd.phase)) =
    some ([0, 0, 0xC0, 0x40], some .finished) := by decide +kernel

/-! ## The end of commands -/

/-- A finished copy command with a completion record at `comp`, at the head of its chain. -/
def finished (comp : Nat) : State :=
  chained 0 { raw := record [0, 8, 64, 128, comp], phase := .finished, done := 8, seq := 1, label := 1 } solo

theorem witness_CommandCompletes : ∀ comp, comp ∈ [0, 256] →
    ending (finished comp) ⟨0, 0, 0, 1⟩ { raw := record [0, 8, 64, 128, comp], phase := .finished, done := 8, seq := 1, label := 1 } := by decide +kernel
theorem witness_CommandCompletes_record :
    (let s := finished 256
     windowPieces s 0 .write 256 8 = .ok [⟨256, 256, 8⟩] ∧ windowPieces s 0 .write 264 8 = .ok [⟨264, 264, 8⟩] ∧
     s.mixed 0 (Site.agent ⟨0, 0, 0, 1⟩) 8 256 16 = false ∧ (∀ j, j < 16 → s.lands (Site.agent ⟨0, 0, 0, 1⟩) 8 (256 + j) = true) ∧
     controlInWindow s ∧ copySkip (record [0, 8, 64, 128, 256]) = false) := by decide +kernel
theorem test_complete : shows (exec .commandComplete (finished 256)) (fun t => (t.mem.bytes 256 16, t.front.seq.get 0 0, t.front.chain.get [] 0)) =
    some ([8, 0, 0, 0, 0, 0, 0, 0, 1, 0, 0, 0, 0, 0, 0, 0], 1, []) := by decide +kernel

/-- A command of engine `sel` whose handler has returned. -/
def retrying (sel : Nat) (rec : Bool) : State := chained sel { raw := record [0, 8, 64, 128], phase := .retry, recordFailed := rec, seq := 1 } solo

theorem witness_CommandRetries : ∀ b : Bool, ∀ sel, sel ∈ [0, 2] →
    (let s := { retrying sel b with arg := { (retrying sel b).arg with sel := sel } }
     let c : Cmd := { raw := record [0, 8, 64, 128], phase := .retry, recordFailed := b, seq := 1 }
     s.arg.front = 0 ∧ s.arg.sel = sel ∧ s.arg.k = 0 ∧ sel ≤ 2 ∧ s.cmdAt 0 sel 0 = some c ∧ c.seq = 1 ∧ s.frozenCmd c = false ∧ c.away = false ∧ c.phase = .retry ∧
     c.recordFailed = b) := by decide +kernel
theorem witness_CommandRetries_skip :
    (let c : Cmd := { raw := record [2 ^ 9, 8, 64, 128, 256], phase := .running, pos := 1, skipTrap := .retry, skipped := [0], seq := 1 }
     let s := chained 0 c solo
     s.cmdAt 0 0 0 = some c ∧ c.seq = 1 ∧ s.frozenCmd c = false ∧ c.away = false ∧ copySkip c.raw = true ∧ segCount c.raw ≤ c.pos) := by decide +kernel

/-- A hart with a failed store of a store queue waiting, and one with a failed copy command. -/
def asyncStore : State := onHart (handled solo) (fun h => { h with pend := [{ cause := 0x04, val := 72 }] })
def asyncEngine : State :=
  chained 0 { raw := record [0, 8, 64, 128, 256], phase := .faulted, failAddr := 64, failCause := 4, seq := 1 } (handled solo)

theorem witness_AsyncTrapTaken : asyncStore.arg.front = 0 ∧ asyncStore.arg.slot = .e ∧ asyncStore.asyncDue 0 .e = true ∧
    asyncStore.hart.pend = { cause := 0x04, val := 72 } :: [] := by decide +kernel
theorem witness_AsyncTrapTaken_engine : asyncEngine.arg.front = 0 ∧ asyncEngine.arg.slot = .e ∧ asyncEngine.asyncDue 0 .e = true ∧
    asyncEngine.hart.pend = [] ∧ asyncEngine.nextFault 0 .e = some (0, 0) ∧ (asyncEngine.cmdAt 0 0 0).isSome = true := by decide +kernel
theorem test_async_store : shows (exec .asyncTrapDelivery asyncStore) (fun t => (t.hart.tcause, t.hart.tval, t.hart.tasync, t.hart.pend)) =
    some (0x04, 72, true, []) := by decide +kernel
theorem test_async_engine : shows (exec .asyncTrapDelivery asyncEngine) (fun t => (t.hart.tcause, t.hart.tval, t.mem.get 0 0x100A0)) =
    some (0x1B, 64, 0) := by decide +kernel

/-! ## Sorus -/

/-- vl 2 of 32-bit elements; v8 = 0, 1; x6 = 64, where 1, 2 of 32 bits stand; x7 describes swatch 0 and 4-byte elements. -/
def sorus (st : SwSt) : State :=
  let s := onRun (lanes4 2 3 (poke (setXs solo [(6, 64), (7, 2 * 64)]) 64 (toBytes 8 (packElems 32 [1, 2])))) (fun r => { r with swatches := [0] })
  let C := s.core
  vreg 8 32 [0, 1] (s.setCore { C with swatches := C.swatches.set {} 0 { st := st, len := 64, base := 128, serial := 1 }, scratch := C.scratch.setBytes 128 [9, 0, 0, 0, 8] })

theorem witness_SorusIssued_form : sorusForm (.sgath false false false 8 6 7) = some (false, false, false, 8, 6, 7) ∧
    sorusForm (.sscat false false false true 8 6 7) = some (true, true, false, 8, 6, 7) := ⟨rfl, rfl⟩
theorem witness_SorusIssued : issueReady (sorus .empty) ∧
    fullX (sorus .empty) 7 ∧ (sorus .empty).regs.sewCode = 3 ∧ (sorus .empty).badGroup (8 : Reg).toNat (grpNow (sorus .empty)) = false ∧
    badDescriptor false false 1 ((sorus .empty).regs.getX 7) = false ∧ (sorus .empty).regs.vl.toNat ≠ 0 ∧ fullX (sorus .empty) 6 ∧
    srcReady (sorus .empty) 8 (grpNow (sorus .empty)) 32 ∧
    swatchBad false ((fresh (sorus .empty)).swatchSeen 0) (bitmapAt 2 4 + bitmapLen 2) = false := by decide +kernel
theorem witness_SorusIssued_scatter : issueReady (sorus .ready) ∧
    badDescriptor true true 1 ((sorus .ready).regs.getX 7) = false ∧
    swatchBad true ((fresh (sorus .ready)).swatchSeen 0) (bitmapAt 2 4 + bitmapLen 2) = false ∧ (lanes4 0 3 (sorus .ready)).regs.vl.toNat = 0 := by
  decide +kernel

/-- A command on swatch 0. -/
def sorusCmd (scatter add : Bool) : Sorus :=
  if scatter then { scatter := true, add := add, size := 4, base := 64, idx := [1], act := [true] } else { size := 4, base := 64, idx := [0, 1], act := [true, true] }

def sorusState (scatter add : Bool) : State :=
  let s := sorus (if scatter then .draining else .filling)
  s.setCore { s.core with sorus := s.core.sorus.set none 0 (some (sorusCmd scatter add)) }

theorem witness_SorusCompletes : sorusAt (sorusState false false) 0 0 (sorusCmd false false) false := by decide +kernel
theorem witness_SorusCompletes_scatter : ∀ add : Bool, sorusAt (sorusState true add) 0 0 (sorusCmd true add) true ∧
    (sorusCmd true add).act = [true] ∧ (sorusCmd true add).idx = [1] ∧ (sorusCmd true add).fp = false ∧
    (sorusCmd true add).piecesOf (sorusState true add) 1 = some [⟨68, 68, 4⟩] ∧
    (∀ j, j < 4 → (sorusState true add).lands (sorusCmd true add).agent 4 (68 + j) = true ∧
      (sorusState true add).stands (sorusCmd true add).agent 4 (68 + j) = true) := by decide +kernel
theorem test_gather : shows (exec .sgathComplete (sorusState false false)) (fun t => (t.core.scratch.bytes 128 8, (t.core.swatches.get {} 0).st)) =
    some ([1, 0, 0, 0, 2, 0, 0, 0], .ready) := by decide +kernel
theorem test_scatter_add : shows (exec .sscatComplete (sorusState true true)) (fun t => (t.mem.bytes 64 8, (t.core.swatches.get {} 0).st)) =
    some ([1, 0, 0, 0, 11, 0, 0, 0], .empty) := by decide +kernel
/-! ## The host -/

/-- Host accesses reach context 0. -/
def hosted (off size : Nat) (data : List Byte) : State :=
  { memory with arg := { memory.arg with off := off, size := size, data := data } }

theorem witness_HostAccess : (hosted 64 4 []).arg.flag = false ∧ hostReaches (hosted 64 4 []) .read 64 4 (fun j => 64 + j) ∧
    (∀ j, j < 4 → (hosted 64 4 []).stands hostAgent (hostSize 64 4) (64 + j) = true) ∧
    (∀ j, j < 4 → (hosted 64 4 []).poisoned (64 + j) 1 = false) := by
  refine ⟨by decide +kernel, ?_, by decide +kernel, by decide +kernel⟩
  show ∀ j, j < 4 → _
  decide +kernel
theorem witness_HostAccess_absent : vectorByte (hosted 0x4000000 4 []) (hosted 0x4000000 4 []).dev.hctx.toNat .read (0x4000000 + 0) = .error 0x04 := by
  decide +kernel
theorem witness_HostAccess_write : hostReaches (hosted 64 0 [9, 8]) .write 64 2 (fun j => 64 + j) ∧
    (∀ j, j < 2 → (hosted 64 0 [9, 8]).lands hostAgent (hostSize 64 2) (64 + j) = true) ∧ controlInWindow (hosted 64 0 [9, 8]) := by
  refine ⟨?_, by decide +kernel, by decide +kernel⟩
  show ∀ j, j < 2 → _
  decide +kernel
theorem witness_HostAccess_dropped : (hosted 0x4000000 0 [9]).arg.data = [9] ∧
    vectorByte (hosted 0x4000000 0 [9]) (hosted 0x4000000 0 [9]).dev.hctx.toNat .write 0x4000000 = .error 0x04 := by decide +kernel
theorem test_host_read : shows (exec .hostRead (hosted 64 4 [])) (fun t => t.dev.answer) = some (some [1, 2, 3, 4]) := by decide +kernel
/-- A host read of 8 bytes of BAR0. -/
def reading (off : Nat) : State :=
  { hosted off 8 [] with arg := { (hosted off 8 []).arg with flag := true }, dev := { (hosted off 8 []).dev with hctx := 3 } }
theorem witness_RegisterReads : ∀ off, off ∈ [0x3F8, 0x400, 0x408, 0x410, 0x4F8, 0x500, 0x578, 0x580, 0x5F8, 0x600, 0x6F8, 0x700, 0x7F8] →
    (reading off).arg.flag = true ∧ (reading off).arg.size = 8 ∧ (reading off).arg.off % 8 = 0 ∧ (reading off).arg.off = off := by decide +kernel
theorem test_register_read : shows (exec .hostRead (reading 0x408)) (fun t => t.dev.answer) = some (some (toBytes 8 3)) ∧
    shows (exec .hostRead (reading 0x400)) (fun t => t.dev.answer) = some (some (toBytes 8 0)) := by decide +kernel
theorem test_host_read_poison : shows (exec .hostRead (hosted 0x3FFFFFE 4 [])) (fun t => t.dev.answer) = some none := by decide +kernel
theorem test_host_write : shows (exec .hostWrite (hosted 64 0 [9, 8])) (fun t => t.mem.bytes 64 3) = some [9, 8, 3] := by decide +kernel

/-- A value of a host register, of context 0, with a root region that carves 4 entries. -/
def registered (off : Nat) (v : Word) : State :=
  let s := solo.setRegionAt 5 { status := 1, qentries := 4, scratch := 64, tiles := 1 }
  { s with arg := { s.arg with off := off, val := v } }

theorem witness_HostRegisters :
    (let s := registered 0 0x0000004000000004
     s.arg.k = 0 ∧ s.rootCarved 0 Region.qentries ≤ (s.arg.val.extractLsb' 0 32).toNat ∧
     s.rootCarved 0 Region.scratch ≤ (s.arg.val.extractLsb' 32 32).toNat ∧ s.rootCarved 0 Region.tiles ≤ min (s.arg.val.extractLsb' 0 4).toNat 8) := by
  decide +kernel
theorem witness_HostRegisters_short :
    (let s := registered 0 0x0000004000000000
     s.arg.k = 0 ∧ (s.arg.val.extractLsb' 0 32).toNat < s.rootCarved 0 Region.qentries ∧
     min (s.arg.val.extractLsb' 0 4).toNat 8 < s.rootCarved 0 Region.tiles) := by decide +kernel
theorem witness_HostRegisters_offsets : (registered 0x408 3).arg.off = 0x408 ∧ (registered 0x570 3).arg.off = 0x500 + 16 * 7 ∧
    (registered 0x578 3).arg.off = 0x508 + 16 * 7 ∧ (registered 0x400 11).arg.off = 0x400 ∧
    ((registered 0x400 11).arg.val.extractLsb' 0 4).toNat < 12 ∧ 12 ≤ ((registered 0x400 12).arg.val.extractLsb' 0 4).toNat ∧
    (registered 0x6F0 3).arg.off = 0x600 + 16 * 15 ∧ (registered 0x6F8 3).arg.off = 0x608 + 16 * 15 ∧
    (registered 0x3F8 3).arg.off = 64 * 15 + 8 * 7 ∧ (registered 0x3F8 3).dev.events = [] ∧
    (0x410 ≤ (registered 0x410 0).arg.off ∧ (registered 0x410 0).arg.off < 0x500) ∧
    (0x580 ≤ (registered 0x5F8 0).arg.off ∧ (registered 0x5F8 0).arg.off < 0x600) ∧
    (0x700 ≤ (registered 0x7F8 0).arg.off ∧ (registered 0x7F8 0).arg.off < 0x800) ∧ (registered 0x401 0).arg.off % 8 ≠ 0 := by decide +kernel
theorem test_mailbox_word : shows (exec .hostRegisterWrite (registered 0x048 3)) (fun t => t.dev.mailbox.get 0 1) = some (3 * 2 ^ 64) := by
  decide +kernel

/-- All four event slots are full, and one event waits. -/
def eventful (waits : Bool) : State :=
  let v := eventSlot 0x80 0 5 1 2
  { solo with dev := { solo.dev with
      mailbox := [(12, v), (13, v), (14, v), (15, v)]
      events := if waits then [(0x81, 0, 6, 3, 4)] else [] } }

theorem witness_HostRegisters_events : (eventful false).arg.mslot < 4 ∧ (eventful false).dev.events = [] ∧
    (eventful true).dev.events = (0x81, 0, 6, 3, 4) :: [] ∧ slotStatus (eventSlot 0x81 0 6 3 4) ≠ 0 := by decide +kernel
theorem witness_HostRegisters_slots : ∀ j, 12 ≤ j → j < 16 → j ≠ 12 + (eventful true).arg.mslot →
    slotStatus ((eventful true).dev.mailbox.get 0 j) ≠ 0 := by
  have h : ∀ j, j < 16 → 12 ≤ j → slotStatus ((eventful true).dev.mailbox.get 0 j) ≠ 0 := by decide +kernel
  exact fun j a b _ => h j b a
theorem test_hctx : shows (exec .hostRegisterWrite (registered 0x408 3)) (fun t => t.dev.hctx) = some 3 := by decide +kernel
theorem test_rbq_ignored : shows (exec .rbqWrite (registered 0 3)) (fun t => (t.ctxAt 0).qentries) = some 0 := by decide +kernel
theorem test_event_slot : shows (exec .eventSlotFree (eventful true)) (fun t => (slotOp (t.dev.mailbox.get 0 12), t.dev.msix, t.dev.events.length)) =
    some (0x81, 1, 0) := by decide +kernel

/-- A request rung at slot 2: OP, REGION, A0, A1 of context 0. -/
def rung (op region a0 a1 : Nat) (s : State) : State :=
  { s with dev := { s.dev with
      mailbox := s.dev.mailbox.set 0 2 (BitVec.ofNat 512 (op + region * 2 ^ 32 + a0 * 2 ^ 64 + a1 * 2 ^ 128))
      doorbells := [2] } }

/-- What stands in its slot. -/
def asksOf (op region a0 a1 : Nat) : BitVec 512 := BitVec.ofNat 512 (op + region * 2 ^ 32 + a0 * 2 ^ 64 + a1 * 2 ^ 128)

theorem witness_HostRequests : ∀ op, op ∈ [1, 2, 3, 4, 5] → asked (rung op 5 64 0 (tasked 0)) 2 (asksOf op 5 64 0) op := by decide +kernel
theorem witness_HostRequests_badop : asked (rung 0x0B 5 64 0 (tasked 0)) 2 (asksOf 0x0B 5 64 0) 0 := by decide +kernel
theorem witness_HostRequests_launch : okay ((rung 1 0 128 256 launching).taken.requestReads 0 128 128 256 256) = true ∧
    asked (rung 1 0 128 256 launching) 2 (asksOf 1 0 128 256) 1 := by decide +kernel
theorem witness_HostRequests_launch_status :
    (let s := rung 1 0 128 256 launching
     let t := rung 1 0 128 0x4000000 (poke launching 0x4000000 (launching.mem.bytes 256 256))
     s.taken.rcbFailure 0 256 = none ∧ (t.taken.rcbFailure 0 0x4000000).isSome = true) := by decide +kernel
theorem witness_HostRequests_push : ∃ img, pushRead (rung 2 5 64 0 (tasked 0)).taken (asksOf 2 5 64 0) img 0 ∧
    imageIllegal ((tasked 0).regionAt 5) img = false ∧ ((tasked 0).regionAt 5).status = 1 ∧ ((tasked 0).regionAt 5).failing = false ∧
    ((tasked 0).regionAt 5).charged.get 0 0 + 2 ≤ ((tasked 0).regionAt 5).reserve.get 0 0 ∧
    ((tasked 0).regionAt 5).drawn.toNat + 2 ^ 32 ≤ 2 ^ 63 := by
  obtain ⟨img, e, k⟩ := of_also (x := (rung 2 5 64 0 (tasked 0)).taken.requestRead 0 64 64 8)
    (f := fun img => !imageIllegal ((tasked 0).regionAt 5) img && (CR.ofBytes img).joinaddr == 0) (by decide +kernel)
  simp only [Bool.and_eq_true, beq_iff_eq, Bool.not_eq_true'] at k
  have h1 : slotCtx (asksOf 2 5 64 0) = 0 := by decide +kernel
  have h2 : (slotA0 (asksOf 2 5 64 0)).toNat = 64 := by decide +kernel
  exact ⟨img, ⟨by rw [h1, h2]; exact e, .inl ⟨k.2, rfl⟩⟩, k.1, by decide +kernel, by decide +kernel, by decide +kernel, by decide +kernel⟩
theorem witness_HostRequests_push_parked : ∃ img, pushRead (rung 2 5 64 0 (tasked 0x200)).taken (asksOf 2 5 64 0) img 2 ∧
    imageIllegal ((tasked 0x200).regionAt 5) img = false := by
  obtain ⟨img, e, k⟩ := of_also (x := (rung 2 5 64 0 (tasked 0x200)).taken.requestRead 0 64 64 8)
    (f := fun img => !imageIllegal ((tasked 0x200).regionAt 5) img && (CR.ofBytes img).joinaddr != 0 &&
      also ((rung 2 5 64 0 (tasked 0x200)).taken.requestRead 0 (CR.ofBytes img).joinaddr.toNat 8 8) (fun bs => 2 == ofBytes bs)) (by decide +kernel)
  simp only [Bool.and_eq_true, bne_iff_ne, Bool.not_eq_true'] at k
  obtain ⟨bs, e', k'⟩ := of_also k.2
  have h1 : slotCtx (asksOf 2 5 64 0) = 0 := by decide +kernel
  have h2 : (slotA0 (asksOf 2 5 64 0)).toNat = 64 := by decide +kernel
  exact ⟨img, ⟨by rw [h1, h2]; exact e, .inr ⟨k.1.2, bs, by rw [h1]; exact e', by simpa using k'⟩⟩, k.1.1⟩
theorem test_push : shows (exec .push (rung 2 5 64 0 (tasked 0))) (fun t =>
    ((t.regionAt 5).ready.map CR.weight, (t.regionAt 5).drawn, slotStatus (t.dev.mailbox.get 0 2))) =
    some ([0x100000000], 0x100000000, 1) := by decide +kernel
theorem test_host_withdraw : shows (exec .hostWithdraw (rung 3 5 0 0 ((tasked 0).setRegionAt 5 { (tasked 0).regionNow with ready := [{ weight := 5 }] })))
    (fun t => ((t.dev.mailbox.get 0 2).extractLsb' 192 64, (t.regionAt 5).returned)) = some (1, 5) := by decide +kernel
theorem test_badop : shows (exec .badop (rung 0x0B 5 0 0 (tasked 0))) (fun t => slotStatus (t.dev.mailbox.get 0 2)) = some 3 := by decide +kernel

/-- A copy record at 64 of 8 bytes from 0x200 to 128. -/
def peering : State := rung 7 0 64 (3 + 7 * 16) (poke (tasked 0) 64 (toBytes 64 (packElems 64 [0, 8, 0x200, 128, 0, 0, 0, 0])))

theorem witness_HostTransfers : asked peering 2 (asksOf 7 0 64 (3 + 7 * 16)) 7 ∧
    peering.taken.requestRead 0 64 64 8 = .ok (toBytes 64 (packElems 64 [0, 8, 0x200, 128, 0, 0, 0, 0])) ∧
    copyMalformed (record [0, 8, 0x200, 128, 0, 0, 0, 0]) = false ∧ ((slotA1 (asksOf 7 0 64 (3 + 7 * 16))).extractLsb' 0 4).toNat < 12 ∧
    okay (peering.taken.peerSource 0 (record [0, 8, 0x200, 128, 0, 0, 0, 0])) = true := by decide +kernel
/-- The report's layout, and so its length, is a constant without a body: this is the case of one of 64 bytes. -/
theorem witness_HostTransfers_attest : asked (rung 8 0 64 256 solo) 2 (asksOf 8 0 64 256) 8 ∧
    okay ((rung 8 0 64 256 solo).taken.requestRead 0 64 32 1) = true ∧
    windowPieces (rung 8 0 64 256 solo).taken 0 .write 256 64 = .ok [⟨256, 256, 64⟩] ∧
    (∀ j, j < 64 → vectorByte (rung 8 0 64 256 solo).taken 0 .write (256 + j) = .ok (256 + j) ∧
      (rung 8 0 64 256 solo).taken.lands hostAgent 8 (256 + j) = true) ∧
    controlInWindow (rung 8 0 64 256 solo) := by decide +kernel
theorem witness_HostTransfers_receive :
    (let s := { solo with arg := { solo.arg with record := record [0, 8, 0x200, 128], data := toBytes 8 5 } }
     s.arg.front = 0 ∧ s.peerRefused (s.arg.sel % 16) s.arg.record = false) := by decide +kernel

theorem witness_CheckpointAndRestore : asked (rung 6 5 0x3CF 0x1000 (tasked 0)) 2 (asksOf 6 5 0x3CF 0x1000) 6 ∧
    goodPorts (slotA0 (asksOf 6 5 0x3CF 0x1000)) = true ∧ asked (rung 6 5 0x3C 0x1000 (tasked 0)) 2 (asksOf 6 5 0x3C 0x1000) 6 ∧
    goodPorts (slotA0 (asksOf 6 5 0x3C 0x1000)) = false ∧ ((rung 6 5 0x3CF 0x1000 (tasked 0)).taken.jobKeys 0 5).contains 5 = true ∧
    (rung 6 5 0x3CF 0x1000 (tasked 0)).taken.drainsIn ((rung 6 5 0x3CF 0x1000 (tasked 0)).taken.jobKeys 0 5) = [] := by
  decide +kernel
theorem witness_CheckpointAndRestore_acknowledged :
    ({ solo with dev := { solo.dev with streaming := some { slot := 2, base := 0x1000 } } } : State).dev.streaming =
      some { slot := 2, base := 0x1000 } := by decide +kernel

/-- The safe tier holds an image of one granule of context 0. -/
def imaged (mask : Nat) : State :=
  let s := rung 10 0 mask 0x1000 solo
  { s with dev := { s.dev with images := [(0x1000, { granules := [{ index := 2, entry := 0x0001000000B80001, data := [(5, 7)] }] })] } }

theorem witness_CheckpointAndRestore_restore : asked (imaged 0x3CF) 2 (asksOf 10 0 0x3CF 0x1000) 10 ∧
    ((imaged 0x3CF).dev.images.find? (fun e => e.1 == (slotA1 (asksOf 10 0 0x3CF 0x1000)).toNat)).any
      (fun e => ((imaged 0x3CF).taken.restoreFailure 0 (slotA0 (asksOf 10 0 0x3CF 0x1000)) e.2).isNone) = true ∧
    ((imaged 0).dev.images.find? (fun e => e.1 == (slotA1 (asksOf 10 0 0 0x1000)).toNat)).any
      (fun e => (imaged 0).taken.restoreFailure 0 (slotA0 (asksOf 10 0 0 0x1000)) e.2 == some 6) = true ∧
    asked (rung 10 0 0x3CF 0x1000 solo) 2 (asksOf 10 0 0x3CF 0x1000) 10 ∧
    (rung 10 0 0x3CF 0x1000 solo).dev.images.find? (fun e => e.1 == 0x1000) = none := by decide +kernel
theorem test_restore : shows (exec .restore (imaged 0x3CF)) (fun t => (t.mem.get 0 0x4000005, (t.dev.vpm.get 0 2).extractLsb' 0 11)) =
    some (7, 1) := by decide +kernel
theorem test_checkpoint_freezes : shows (exec .checkpoint (rung 6 5 0x3CF 0x1000 (tasked 0))) (fun t => ((t.regionAt 5).frozen, t.dev.streaming.isSome)) =
    some (true, true) := by decide +kernel

/-! ## The module -/

/-- Host window 0 is [0x1000, 0x2000), and the host offers two bytes there. -/
def recovering : State :=
  let s := rung 9 0 0x1000 2 solo
  { s with dev := { s.dev with recovery := true, hwbase := s.dev.hwbase.set 0 0 0x1001, hwlim := s.dev.hwlim.set 0 0 0x1000 },
           arg := { s.arg with data := [1, 2, 3] } }

/-- The measurement of no image at all, as FIPS 180-4 gives the digest of the empty message. -/
theorem test_measurement : sha256 [] = 0xe3b0c44298fc1c149afbf4c8996fb92427ae41e4649b934ca495991b7852b855 ∧
    State.reset.dev.measurement = sha256 [] := by decide +kernel

/-- Whether the image is accepted is free: one clause or the other. -/
theorem witness_ModuleStarts : asked recovering 2 (asksOf 9 0 0x1000 2) 9 ∧
    recovering.hostRange (slotA0 (asksOf 9 0 0x1000 2)).toNat (slotA1 (asksOf 9 0 0x1000 2)).toNat = true ∧
    recovering.arg.data.take (slotA1 (asksOf 9 0 0x1000 2)).toNat = [1, 2] := by decide +kernel
/-- An error at a unit. -/
def erring (u : ErrUnit) (flag : Bool) : State := { solo with arg := { solo.arg with unit := u, flag := flag } }

theorem witness_ModuleLimits : (erring (.lane 0 63 5) true).arg.unit = .lane 0 63 5 ∧ (63 : Nat) < 64 ∧ (5 : Nat) < 2 ^ 24 ∧
    (erring (.tile 127 7 5) false).arg.unit = .tile 127 7 5 ∧ (127 : Nat) < 128 ∧ (7 : Nat) < 8 ∧
    (erring (.hbm 64) true).arg.unit = .hbm 64 := by decide +kernel
theorem test_thermal : shows (exec .thermalTrip solo) (fun t => (t.dev.clockStopped, t.dev.msix)) = some (true, 1) := by decide +kernel
theorem test_lane_retires : shows (exec .sramError (erring (.lane 0 63 5) true)) (fun t => t.core.lanemap) =
    some (BitVec.intMin 64) := by decide +kernel
theorem test_lane_corrects : shows (exec .sramError (erring (.lane 0 63 5) false)) (fun t =>
    (t.core.lanemap, t.core.corrected.get 0 63)) = some (0, 1) := by decide +kernel

/-! ## The whole machine -/

theorem witness_EncodingRoundTrip : Instr.wf (.tmovr 31 7 31 127) = true ∧ (encodeBits (.tmovr 31 7 31 127)).isSome = true ∧
    Instr.wf (.ld 0x3FFF true 6 31 31) = true ∧ (encodeBits (.ld 0x3FFF true 6 31 31)).isSome = true ∧
    Instr.wf (.cMv 31 31) = true ∧ (encodeBits (.cMv 31 31)).isSome = true := by decide +kernel
theorem witness_StepKeepsMemory : State.MemOk State.reset ∧ ∃ t, step State.reset = .next t :=
  ⟨rfl, answers_of_after (by decide +kernel)⟩

/-- An ADDI x5, x0, 7 stands at the pc and it is its hart's turn. -/
def ready1 : State := State.reset.withFetchWord 32 (Instr.bits (.addi 7 0 5)).toNat

/-- The state in which the turn's instruction is performed. -/
def turned (s : State) : State :=
  { ({ s with cycle := s.cycle + 1, agenda := [] } : State).looking [] with fid := 0, slot := .e, late := false }

/-- The state at the beginning of the turn. -/
def begun (s : State) : State := { s with cycle := s.cycle + 1, agenda := [] }

theorem nextTurn_of (s : State) (h : s.dev.clockStopped = false ∧ ({ s with cycle := s.cycle + 1 } : State).urgent = none ∧
    s.agenda = [.hart 0 .e false []] ∧ (turned s).stopDue 0 = false ∧ (turned s).abortDue 0 = false ∧ (turned s).asyncDue 0 .e = false ∧
    (turned s).ready 0 .e = true) : nextTurn s 0 .e false [] (begun s) (turned s) :=
  ⟨h.1, by omega, h.2.1, ⟨[], h.2.2.1, rfl⟩, rfl, h.2.2.2.1, h.2.2.2.2.1, h.2.2.2.2.2.1, h.2.2.2.2.2.2⟩

theorem witness_StepRunsDecoded : nextTurn ready1 0 .e false [] (begun ready1) (turned ready1) ∧ (turned ready1).fetch = .instr (.addi 7 0 5) ∧
    ((after (exec (.addi 7 0 5) (turned ready1))).any (fun t => unopposed (begun ready1) (afterStep t) 0 .e)) = true :=
  ⟨nextTurn_of _ (by decide +kernel), by decide +kernel, by decide +kernel⟩
theorem witness_StepRunsDecoded_bad :
    (let s := State.reset.withFetchWord 16 0
     nextTurn s 0 .e false [] (begun s) (turned s) ∧ (turned s).fetch = .bad 0 ∧
       ((after (exec .notAnInstruction (turned s))).any (fun t => unopposed (begun s) (afterStep t) 0 .e)) = true) :=
  ⟨nextTurn_of _ (by decide +kernel), by decide +kernel, by decide +kernel⟩
theorem witness_StepRunsDecoded_fault :
    (let s := onHart ready1 (fun h => { h with regs := { h.regs with pc := 0x4000000 } })
     nextTurn s 0 .e false [] (begun s) (turned s) ∧ (turned s).fetch = .fault 0x04 0x4000000 ∧
       ((after (exec .fetchFault (turned s))).any (fun t => unopposed (begun s) (afterStep t) 0 .e)) = true) :=
  ⟨nextTurn_of _ (by decide +kernel), by decide +kernel, by decide +kernel⟩
theorem witness_StepRunsDecoded_halves : okay ((turned ready1).fetchHalves 1 0) = true ∧
    also ((turned ready1).fetchHalves 2 0) (fun bs => decide (decode bs = .ok (.addi 7 0 5, []))) = true := by decide +kernel
theorem test_step : shows (step ready1) (fun t => (t.regs.getX 5, t.regs.pc, t.cycle)) = some (7, 4, 1) := by decide +kernel
theorem test_step_bad : shows (step (handled (State.reset.withFetchWord 16 0))) (fun t => (t.hart.tcause, t.priv)) = some (0x01, true) := by
  decide +kernel

/-! ## Floating-point arithmetic: operands that meet the premises -/

theorem some_of {α : Type} {o : Option α} (h : o.isSome = true) : ∃ a, o = some a := Option.isSome_iff_exists.mp h

theorem witness_PatternsRead : ∀ row ∈ formats, (0 : Nat) < 2 ^ row.2.1 := by
  intro row _
  exact Nat.two_pow_pos _
theorem witness_FiniteArithmetic : isFormat f32 ∧ f32.decode 0x3FC00000 = .fin false 0xC00000 (-23) ∧ f32.decode 0x40000000 = .fin false 0x800000 (-22) ∧
    f32.decode 0x80000000 = .fin true 0 (-149) ∧ (∃ u, valueOf (f32.decode 0x3FC00000) = some u) ∧ (∃ v, valueOf (f32.decode 0x40000000) = some v) ∧
    (∃ w, valueOf (f32.decode 0x80000000) = some w) :=
  ⟨.inr (.inl rfl), by decide +kernel, by decide +kernel, by decide +kernel, some_of (by decide +kernel), some_of (by decide +kernel),
    some_of (by decide +kernel)⟩
theorem witness_FiniteArithmetic_zero : f16.decode 0x0000 = .fin false 0 (-24) ∧ f16.decode 0xBC00 = .fin true 0x400 (-10) := by
  decide +kernel
theorem witness_SpecialArithmetic : f32.decode 0x7F800000 = .inf false ∧ f32.decode 0xFF800000 = .inf true ∧ f32.decode 0 = .fin false 0 (-149) ∧
    f32.decode 0x3F800000 = .fin false 0x800000 (-23) ∧ f32.decode 0x7FC00000 = .nan false ∧ f32.decode 0x7F800001 = .nan true := by decide +kernel
theorem witness_OrderArithmetic : (0x8000 : Nat) < 2 ^ f16.width ∧ (f16.decode 0x8000).neg = true ∧ (f16.decode 0x0000).neg = false ∧
    (f16.decode 0x7E00).isNan = true ∧ (f16.decode 0x7C01).isNan = true := by decide +kernel
theorem witness_TapersRead : 0 < (1 : Nat) ∧ (1 : Nat) < 2 ^ (8 - 1) ∧ (1 : Nat) < 2 ^ (6 - 1) := by decide
theorem witness_ConversionArithmetic : cvtSrc 0 = some (.float f32) ∧ (cvtSrc 4).isSome = true ∧ ∃ k, k < 16 ∧ cvtSrc k = some (.taper 8) ∧
    ∃ j, j < 16 ∧ cvtSrc j = some (.int true 8) := by decide +kernel
theorem witness_OuterProductCells : (0 : Nat) < 4 ∧ (∃ t, valueOf (f32.decode (cellAt 0 0 0)) = some t) ∧
    (∃ x, valueOf (operandOf 0 (sliceElem 0x3F80 16 0)) = some x) ∧ ∃ y, valueOf (operandOf 0 (sliceElem 0x4000 16 0)) = some y :=
  ⟨by decide, some_of (by decide +kernel), some_of (by decide +kernel), some_of (by decide +kernel)⟩
theorem witness_OuterProductCells_nan : (operandOf 0 (sliceElem 0x7FC0 16 0)).isNan = true ∧ operandOf 0 (sliceElem 0x7F80 16 0) = .inf false ∧
    operandOf 0 (sliceElem 0xFF80 16 0) = .inf true ∧ f32.decode (cellAt 0x7F800000 0 0) = .inf false := by decide +kernel
theorem witness_OuterProductBounds : ¬ ((0 : Nat) < 0 ∧ (0 : Nat) < 1) ∧ (0 : Nat) < 1 := by decide
theorem witness_ScaledCells : (∃ t, valueOf (f32.decode (cellAt 0 0 0)) = some t) ∧ (∃ u, valueOf (f32.decode (cellAt 0x3F800000 0 0)) = some u) ∧
    (∃ v, valueOf (scaleOf false (sliceElem 128 32 0)) = some v) ∧ ∃ z, valueOf (scaleOf true (sliceElem 0x40000000 32 0)) = some z :=
  ⟨some_of (by decide +kernel), some_of (by decide +kernel), some_of (by decide +kernel), some_of (by decide +kernel)⟩
theorem witness_ScaledCells_nan : (scaleOf false (sliceElem 255 32 0)).isNan = true := by decide +kernel

/-! ## Traps -/

theorem witness_LastMissing : readsLastX (.cAddi 5 14) = true ∧ solo.isExec = false ∧ solo.regs.frm ≠ 5 ∧ solo.regs.lastd.getLsbD 7 = false ∧
    readsLastV (.cVadd 2 3) = some (2, 3, false) ∧ readsLastV (.cVfadd 2 3) = some (2, 3, true) ∧ solo.badGroup (2 : Reg).toNat (grpNow solo) = false ∧
    solo.badGroup (3 : Reg).toNat (grpNow solo) = false ∧ badFp solo.regs = false ∧ solo.regs.sewCode ≠ 0 ∧
    solo.regs.lastd.getLsbD 15 = false := by decide +kernel

/-- A state in error-feedback mode. -/
def efb : State := mapRegs vecs (fun r => { r with frm := 5 })

theorem witness_EfbTraps : isScalarFp (.fadd false false 0 7 6 5) = true ∧ efb.regs.frm = 5 ∧
    ∃ f, floatVector (.vfmaVr false false false 2 1 3) efb = some f := ⟨rfl, by decide +kernel, _, rfl⟩
theorem witness_VectorIllegal :
    (let s := lanes4 4 0 vecs
     (∃ f, vectorForm (.vaddVr false false false 2 1 3) s f ∧ f.legal = false) ∧
     ∃ f, maskForm (.vcmp false false false 2 2 1 3) s = some f ∧ f.legal = false) :=
  ⟨⟨_, .inl rfl, by decide +kernel⟩, _, rfl, by decide +kernel⟩
theorem witness_VectorIllegal_group :
    (let s := lanes4 4 0x23 vecs
     (∃ f, vectorForm (.vaddVr false false false 2 4 3) s f ∧ s.badGroup f.d.toNat f.n = true) ∧
     ∃ f, vectorForm (.vaddVr false false false 3 2 4) s f ∧ ∃ g ∈ f.srcs, s.badGroup g.1.toNat g.2.1 = true) :=
  ⟨⟨_, .inl rfl, by decide +kernel⟩, _, .inl rfl, by decide +kernel⟩
theorem witness_GroupsOverlap : ∃ f, vectorForm (.vpick false false false 2 1 1) vecs f ∧ f.legal = true ∧
    (∀ g ∈ f.srcs, srcReady vecs g.1 g.2.1 g.2.2) ∧ (∀ k ∈ f.xs, fullX vecs k) ∧ vecs.badGroup f.d.toNat f.n = false ∧ f.apart = false :=
  ⟨_, .inr (.inr (.inr rfl)), by decide +kernel⟩
theorem witness_RunTraps_illegal : ∃ f, runForm (.vsort false false 3 false 1 4) runs = some f ∧ f.legal = false := ⟨_, rfl, by decide +kernel⟩
theorem witness_RunTraps_overlap : ∃ f, runForm (.vmerge false false false 3 2 2) runs = some f ∧ f.legal = true ∧ runSources f.x runs ∧
    ¬ (f.x.same = true ∧ ∃ y ∈ f.x.srcs, y.reg = f.x.d) ∧
    (∃ y ∈ f.x.apart, runs.isQueue y.reg.toNat = false ∧ f.x.d.toNat < y.reg.toNat + y.size runs ∧ y.reg.toNat < f.x.d.toNat + f.x.group runs.regs) :=
  ⟨_, rfl, by decide +kernel⟩
theorem witness_RunTraps_untagged : ∃ f, runForm (.vmerge false false false 3 1 4) runs = some f ∧ f.legal = true ∧ runSources f.x runs ∧
    f.x.overlaps runs = false ∧ (runTags f.x runs).any (fun t => !t.getLsbD 31) = true :=
  ⟨_, rfl, by decide +kernel⟩
theorem witness_RunTraps_mismatched :
    (let s := mapRegs runs (fun r => { r with stag := r.stag.set 0 3 0xC8000003 })
     ∃ f, runForm (.vmerge false false false 3 2 4) s = some f ∧ f.legal = true ∧ runSources f.x s ∧ f.x.overlaps s = false ∧
       (runTags f.x s).all (fun t => t.getLsbD 31) = true ∧ f.x.pays = [] ∧
       (runTags f.x s).any (fun t => (runTags f.x s).any (fun u => t.extractLsb' 26 5 != u.extractLsb' 26 5)) = true) := ⟨_, rfl, by decide +kernel⟩

/-- One lane, and v2 and v3 hold a run of 10 keys. -/
def runs10 : State :=
  onFront (mapRegs (vreg 3 32 [9, 10] (vreg 2 32 [1, 2, 3, 4, 5, 6, 7, 8] runs)) (fun r => { r with stag := r.stag.set 0 2 0x8800000A }))
    (fun F => { F with grant := 1 })

theorem witness_RunTraps_long : ∃ f, runForm (.vuniq false false 2 4) runs10 = some f ∧ f.legal = true ∧ runReady f.x runs10 ∧
    runs10.regs.vl ≠ 0 ∧ (if f.x.double then 2 * runs10.vlmax else runs10.vlmax) < f.keys.length := ⟨_, rfl, by decide +kernel⟩
theorem eraseDups_of_nodup {α : Type} [BEq α] [LawfulBEq α] : ∀ {l : List α}, l.Nodup → l.eraseDups = l
  | [], _ => rfl
  | a :: l, h => by
    rw [List.nodup_cons] at h
    rw [List.eraseDups_cons, List.filter_eq_self.mpr, eraseDups_of_nodup h.2]
    intro b hb
    have : b ≠ a := fun e => h.1 (by rw [← e]; exact hb)
    simpa using this

/-- A buffer of `n` stores of a byte, each in a block of its own. -/
def packed (n : Nat) : List Buffered := (List.range n).map (fun k => Buffered.global (0x10000 + 64 * k) (0x10000 + 64 * k) 1 [0] 0)

theorem packed_blocks (n : Nat) (p : Word) :
    bufferBlocks (packed n ++ [.global 64 64 2 [0xEE, 0xFF] p]) = n + 1 := by
  have h : (packed n ++ [Buffered.global 64 64 2 [0xEE, 0xFF] p]).flatMap Buffered.blocks =
      (List.range n).map (fun k => (false, 1024 + k)) ++ [(false, 1)] := by
    unfold packed
    rw [List.flatMap_append, List.flatMap_map, List.map_eq_flatMap]
    congr 2
    funext k
    have h1 : (65536 + 64 * k) / 64 = 1024 + k := by omega
    simp [Buffered.blocks, h1]
  rw [bufferBlocks, h, eraseDups_of_nodup]
  · simp
  · rw [List.nodup_append]
    refine ⟨List.Nodup.map (fun a b e => by simpa using e) List.nodup_range, by simp, ?_⟩
    intro a ha b hb
    simp at ha hb
    obtain ⟨k, -, rfl⟩ := ha
    subst hb
    simp
    omega

theorem witness_StripFull :
    (let s := onHart memory (fun h => { h with buf := packed 1024 })
     storeForm (.st 0 false 1 6 7) s = some (2, 6, 7, 0) ∧ s.isExec = false ∧ s.priv = false ∧ s.ticket = 0 ∧ fullX s 6 ∧ fullX s 7 ∧
     Claims.reaches s .write 64 2 64 ∧
     1024 < bufferBlocks (s.hart.buf ++ [.global 64 64 2 (toBytes 2 (s.regs.getX 7).toNat) s.regs.pc])) := by
  refine ⟨by decide +kernel, by decide +kernel, by decide +kernel, by decide +kernel, by decide +kernel, by decide +kernel, by decide +kernel, ?_⟩
  have h : toBytes 2 ((onHart memory (fun h => { h with buf := packed 1024 })).regs.getX 7).toNat = [0xEE, 0xFF] := by decide +kernel
  have hb : ∀ b : List Buffered, (onHart memory (fun h => { h with buf := b })).hart.buf = b := fun _ => rfl
  rw [h, hb, packed_blocks]
  omega
/-- The execute hart's strip has popped 16 entries of lq0, which is empty now. -/
def popped16 : State :=
  onHart (onFront queued (fun F => { F with lq := [] })) (fun h => { h with popped := List.replicate 16 (0, { vl := 2, sew := 3 }) })

theorem witness_StripFull_pops : ∃ f, vectorForm (.vmv false false 28 9) popped16 f ∧ f.legal = true ∧ f.apart = true ∧
    (∀ g ∈ f.srcs, popReady popped16 g.1 g.2.1 g.2.2) ∧ (∀ k ∈ f.xs, fullX popped16 k) ∧ dstReady popped16 f.d f.n ∧
    popped16.isQueue f.d.toNat = false ∧
    (∃ g ∈ f.srcs, popped16.isQueue g.1.toNat = true ∧ 16 ≤ (popped16.hart.popped.filter (fun p => p.1 == g.1.toNat - 28)).length) :=
  ⟨_, .inr (.inr (.inr rfl)), by decide +kernel⟩
theorem witness_TileTraps : tileForm .tzero3 = some (3, true, fun t => { t with cells := 0 }) ∧ tiled.isAccess = false ∧ tiled.run.tiles[3]? = none :=
  ⟨rfl, by decide +kernel⟩
theorem witness_TileTraps_state : ∀ r : Bool,
    (let s := setTile tiled 3 { st := .off, retired := r }
     tileForm .tzero0 = some (0, true, fun t => { t with cells := 0 }) ∧ s.isAccess = false ∧ s.run.tiles[0]? = some 3 ∧
     (s.core.tiles.get {} 3).st = .off ∧ (s.core.tiles.get {} 3).retired = r) := fun r => ⟨rfl, by cases r <;> decide +kernel⟩
theorem witness_TileTraps_mopa : tiled.isAccess = false ∧ tiled.run.tiles[(0 : BitVec 3).toNat]? = some 3 ∧
    slabReady tiled 1 (sliceBits (4 : BitVec 3).toNat) (tileWidth (4 : BitVec 3).toNat) ∧
    slabReady tiled 2 (sliceBits (4 : BitVec 3).toNat) (tileWidth (4 : BitVec 3).toNat) ∧ (tiled.core.tiles.get {} 3).st = .idle ∧
    (tiled.core.tiles.get {} 3).int ≠ ((4 : BitVec 3) == 4) := by decide +kernel
theorem witness_SpawnTraps :
    (let s := (tasked 0).setRegionAt 5 { (tasked 0).regionNow with reserve := Table.set 0 [] 0 1 }
     ∃ img u, strips s ∧ fullX s 6 ∧ fullX s 7 ∧ loadBlock 64 64 8 (fresh s) = .ok (img, u) ∧ imageIllegal s.regionNow img = false ∧
       (CR.ofBytes img).joinaddr = 0 ∧ s.regionNow.failing = false ∧ s.regionNow.reserve.get 0 0 < s.regionNow.charged.get 0 0 + 2) := by
  have h : also (loadBlock 64 64 8 (fresh ((tasked 0).setRegionAt 5 { (tasked 0).regionNow with reserve := Table.set 0 [] 0 1 })))
      (fun r => imageIllegal ((tasked 0).setRegionAt 5 { (tasked 0).regionNow with reserve := Table.set 0 [] 0 1 }).regionNow r.1 == false &&
        (CR.ofBytes r.1).joinaddr == 0) = true := by decide +kernel
  obtain ⟨⟨img, u⟩, e, k⟩ := of_also h
  simp only [Bool.and_eq_true, beq_iff_eq] at k
  exact ⟨img, u, by decide +kernel, by decide +kernel, by decide +kernel, e, k.1, k.2, by decide +kernel, by decide +kernel⟩
theorem witness_SpawnTraps_weight :
    (let s := setXs (tasked 0) [(7, 100)]
     strips s ∧ fullX s 6 ∧ fullX s 7 ∧ s.regionNow.charged.get 0 0 + 2 ≤ s.regionNow.reserve.get 0 0 ∧
     s.run.cweight.toNat + (if s.run.cweight.toNat < 2 then 2 ^ 32 else 0) ≤ (s.regs.getX 7).toNat) := by decide +kernel

/-- A CR of ticket 1, whose output range is [64, 72). -/
def tentative : State :=
  onRun ((ticketed .opened 0).setTicketAt 1 { (ticketed .opened 0).ticketAt 1 with outs := [(64, 8)] })
    (fun r => { r with cr := { r.cr with ticket := 1 } })

theorem witness_TicketTraps : barred (.viewdrop false 6) tentative = some ([6], 0x101) ∧ tentative.ticket ≠ 0 ∧ strips tentative ∧ fullX tentative 6 ∧
    fullX tentative 7 := by decide +kernel
theorem witness_TicketTraps_store :
    (let s := setXs tentative [(6, 72)]
     storeForm (.st 0 false 1 6 7) s = some (2, 6, 7, 0) ∧ s.ticket ≠ 0 ∧ s.isExec = false ∧ fullX s 6 ∧ fullX s 7 ∧
     Claims.reaches s .write 72 2 72 ∧ (s.ticketAt s.ticket).outputs (72 + 0) = false) := by decide +kernel
theorem witness_TicketTraps_log :
    (let s := setXs (tentative.setTicketAt 1 { tentative.ticketAt 1 with log := List.replicate 16 (.epub 0 0 0) }) [(6, 0x200)]
     s.ticket ≠ 0 ∧ strips s ∧ fullX s 6 ∧ Claims.reaches s .both 0x200 8 0x200 ∧ 16 ≤ (s.ticketAt s.ticket).log.length) := by decide +kernel

/-- The access hart of a PAIR whose store queue 1 holds the address 72 without data; the execute hart waits on lq0 where `stalled`. -/
def deadlocking (stalled : Bool) : State :=
  onFront fed (fun F => { F with
    sqAddr := F.sqAddr.set [] 1 [{ base := 72, vl := 2, sew := 3, time := 0 }]
    e := { F.e with wait := if stalled then .head 0 else .none } })

theorem witness_DeadlockTrap : ∀ b : Bool,
    (let s := setXs (deadlocking b) [(6, 72)]
     let e : AEntry := { base := 72, vl := 2, sew := 3, time := 0 }
     loadForm (.ld 0 false 3 6 5) s = some (3, 6, 5, 0) ∧ s.isAccess = true ∧ fullX s 6 ∧ Claims.reaches s .read 72 8 72 ∧
     (e, none) ∈ s.front.pendingStores ∧ e.loc = false ∧ e.vl ≠ 0 ∧ e.range.1 < 72 + 8 ∧ 72 < e.range.2 ∧ s.front.headStalled = b ∧
     (b = true → s.front.e.wait = .head 0 ∧ s.front.lq.get [] 0 = [])) := by decide +kernel
theorem witness_DeadlockTrap_ready : ∃ ps, trapReady (handled (setXs (deadlocking true) [(6, 72)])) ps :=
  ⟨[⟨0x10000, 0x10000, 128⟩], by decide +kernel⟩

/-! ## Loads: the strip's own stores, and tickets -/

theorem witness_LoadSeesStore :
    (let s := onHart memory (fun h => { h with buf := [.global 64 64 2 [0xEE, 0xFF] 0, .global 72 72 1 [9] 0, .part true 65 65 1 1 0] })
     s.hart.buf = [] ++ .global 64 64 2 [0xEE, 0xFF] 0 :: [.global 72 72 1 [9] 0, .part true 65 65 1 1 0] ∧
     ∀ b ∈ [Buffered.global 72 72 1 [9] 0, .part true 65 65 1 1 0], ¬ writesByte (64 + 1) b) := by
  refine ⟨by decide +kernel, ?_⟩
  intro b hb
  simp only [List.mem_cons, List.not_mem_nil, or_false] at hb
  rcases hb with rfl | rfl <;> simp [writesByte]
theorem witness_LoadSeesStore_last :
    (let s := onHart memory (fun h => { h with buf := [.global 64 64 2 [0xEE, 0xFF] 0] })
     s.hart.buf = [] ++ [.global 64 64 2 [0xEE, 0xFF] 0] ∧ ([0xEE, 0xFF] : List Byte).length = 2) := by decide +kernel

/-- A CR of ticket 1, whose output range is [64, 72) and whose byte 65 the ticket has written. -/
def guarded : State :=
  onRun ((ticketed .opened 0).setTicketAt 1 { (ticketed .opened 0).ticketAt 1 with outs := [(64, 8)], shadow := [(65, 7)], written := [65] })
    (fun r => { r with cr := { r.cr with ticket := 1 } })

/-- One of CHAIN ticket 2 of it, whose input range is [64, 68). -/
def chainedCr : State :=
  onRun (guarded.setTicketAt 2 { st := .opened, gen := 1, region := 5, chain := true, parent := 1, inBase := 64, inLen := 4, outs := [(80, 4)] })
    (fun r => { r with cr := { r.cr with ticket := 2 } })

theorem witness_LoadUnderTicket : ∀ va, va ∈ [0x2000, 64, 0x3100] →
    (guarded.hart.buf = [] ∧ guarded.queuedParts false = [] ∧ guarded.ticket ≠ 0 ∧ noRace guarded 4 va ∧
     okay (guarded.readVisible 4 ⟨va, va, 4⟩) = true) := by decide +kernel
theorem witness_LoadUnderTicket_chain : chainedCr.hart.buf = [] ∧ chainedCr.queuedParts false = [] ∧ chainedCr.ticket ≠ 0 ∧
    noRace chainedCr 4 64 ∧ okay (chainedCr.readVisible 4 ⟨64, 64, 4⟩) = true := by decide +kernel
theorem test_ticket_reads : shows (exec (.ld 0 false 1 6 5) (setXs guarded [(6, 64)])) (fun t => t.regs.getX 5) =
      some (BitVec.ofNat 64 (0x700 + (guarded.mem.get 0 64).toNat)) ∧
    shows (exec (.ld 0 false 1 6 5) (setXs chainedCr [(6, 64)])) (fun t => t.regs.getX 5) =
      some (BitVec.ofNat 64 (0x700 + (guarded.mem.get 0 64).toNat)) ∧
    shows (exec (.ld 0 false 2 6 5) (setXs guarded [(6, 0x2000)])) (fun t => t.regs.getX 5) = some 0x3F800000 := by decide +kernel

/-! ## Translation -/

theorem witness_WindowTranslation : 2 ^ 42 ≤ (2 ^ 42 : Nat) ∧ (0x4000000 : Nat) < 2 ^ 42 ∧ (solo.dev.vpm.get 0 1).getLsbD 23 = false ∧
    (let e := covered.dev.vpm.get 0 1
     e.getLsbD 23 = true ∧ e.getLsbD (48 + 0) = true ∧ e.getLsbD (48 + 1) = false ∧ e.getLsbD 22 = true ∧
     permitted .write (e.getLsbD 21) (e.getLsbD 20) (e.getLsbD 19)) ∧
    (let e := solo.dev.vpm.get 0 0
     e.getLsbD 23 = true ∧ e.getLsbD 48 = true ∧ e.getLsbD 22 = false ∧ permitted .both (e.getLsbD 21) (e.getLsbD 20) (e.getLsbD 19)) ∧
    ¬ permitted .write true false true := by
  refine ⟨by decide, by decide, by decide +kernel, ⟨by decide +kernel, by decide +kernel, by decide +kernel, by decide +kernel, ?_⟩,
    ⟨by decide +kernel, by decide +kernel, by decide +kernel, ?_⟩, ?_⟩ <;> unfold permitted <;> decide +kernel
theorem witness_WindowTranslation_ranges : windowPieces solo 0 .read 0xFFFC 8 = .ok [⟨0xFFFC, 0xFFFC, 4⟩, ⟨0x10000, 0x10000, 4⟩] ∧
    windowPieces solo 0 .read 0x3FFFFFC 8 = .error (4, 0x4000000) ∧
    scalarRange solo 0 0 .read false 0xFFC 8 = .ok [⟨0xFFC, 0xFFC, 4⟩, ⟨0x1000, 0x1000, 4⟩] := by decide +kernel

/-- Tables at 0x1000 to 0x4000 for 2^42 upwards: a page of 4 KiB at 0x8000 (user may read), one of 64 KiB at 0x20000 (members of a group
that differ), and one of 2 MiB at 0. `top` is the level-4 entry. -/
def walked (top : Nat) : State :=
  let s := solo.setCtxAt 0 { solo.ctxAt 0 with root := 1 }
  let s := poke s (0x1000 + 8 * (2 ^ 42 / 2 ^ 39)) (toBytes 8 top)
  let s := poke s 0x2000 (toBytes 8 0x3001)
  let s := poke s 0x3000 (toBytes 8 0x4001 ++ toBytes 8 0x47)
  poke s 0x4000 (toBytes 8 0x8047 ++ toBytes 120 0 ++ toBytes 8 0x200C7 ++ toBytes 8 0x200CF)

theorem witness_PageWalk : (2 ^ 48 : Nat) ≤ 2 ^ 48 ∧ (2 ^ 42 : Nat) ≤ 2 ^ 42 + 5 ∧ (2 ^ 42 + 5 : Nat) < 2 ^ 48 ∧
    ((walked 0x2001).frontAt 0).tlb = [] ∧ (walk (walked 0x2001) 0 0 (2 ^ 42 + 5)).map (fun e => (e.pa, e.size, e.u)) = .ok (0x8000, 4096, true) ∧
    (walk (walked 0x2001) 0 0 (2 ^ 42 + 0x200005)).map (fun e => (e.pa, e.size)) = .ok (0, 2 ^ 21) ∧
    walk (walked 0) 0 0 (2 ^ 42) = .error 4 ∧ walk (walked 0x2021) 0 0 (2 ^ 42) = .error 4 ∧
    (let e : TlbEntry := { base := 2 ^ 42, pa := 0x8000, r := true, u := true }
     permitted .read e.r e.w e.x ∧ e.u = true ∧ ¬ permitted .write e.r e.w e.x ∧ e.base = (2 ^ 42 + 5) / e.size * e.size) := by
  refine ⟨by decide, by decide, by decide, by decide +kernel, by decide +kernel, by decide +kernel, by decide +kernel, by decide +kernel, ?_⟩
  unfold permitted
  decide +kernel
theorem witness_PageWalk_entries :
    (let s := walked 0x2001
     okay (tableEntry s 0 0 0x4000) = true ∧ okay (tableEntry { s with dev := { s.dev with poison := [0x4000] } } 0 0 0x4000) = false ∧
     ([0x3001, 0x47, 0x8047, 0x200C7] : List Word).all (fun e => e.getLsbD 0 && !e.getLsbD 5 && e.extractLsb' 8 4 == 0 &&
       e.extractLsb' 40 24 == 0) = true ∧
     (0x3001 : Word).getLsbD 7 = false ∧ (0x3001 : Word).getLsbD 6 = false ∧ (0x47 : Word).getLsbD 6 = true ∧ (0x200C7 : Word).getLsbD 7 = true ∧
     (∀ j, j < 16 → ¬ ((s.mem.bytes (0x4000 + 8 * j) 8).headD 0).getLsbD 7 = true) ∧ entryAt1 s 0x4000 (2 ^ 42 + 0x3000) = 0x4018) := by
  decide +kernel
theorem test_walk : shows (exec (.ld 0 false 1 6 5) (setXs (poke (walked 0x2001) 0x8000 [1, 2]) [(6, 2 ^ 42)])) (fun t => t.regs.getX 5) = some 0x0201 ∧
    shows (exec (.st 0 false 1 6 5) (setXs (handled (walked 0x2001)) [(6, 2 ^ 42)])) (fun t => (t.hart.tcause, t.hart.tval)) =
      some (5, 2 ^ 42) := by decide +kernel

theorem witness_FoldFunctions : (3 : Nat) < 2 ^ vecs.regs.sew ∧ (5 : Nat) < 2 ^ vecs.regs.sew ∧ vecs.regs.vfmt = some f32 ∧
    [true, false, true].length ≤ 2 ^ 16 := by decide +kernel
theorem witness_TagsMove :
    (let t := runs.regs.stag.get 0 2
     t.getLsbD 31 = true ∧ 2 ^ (t.extractLsb' 16 2).toNat ≤ runs.regs.grp ∧ (t.extractLsb' 0 16).toNat ≤ runs.regs.vl.toNat ∧
     (runs.regs.stag.get 0 1).getLsbD 31 = false ∧ Table.wf 0 runs.regs.stag = true ∧ (3 : Nat) ≠ 2 ∧ 3 < 2 + 2 ∧
     2 < 3 + 2 ^ ((runs.regs.stag.get 0 3).extractLsb' 16 2).toNat ∧ ¬ (5 < 2 + 2)) := by decide +kernel
theorem witness_NarrowingFunctions : 1 ≤ 8 ∧ 0x80 < 2 ^ 8 ∧ (200 : Int) > 2 ^ (8 - 1) - 1 ∧ (-200 : Int) < -(2 ^ (8 - 1)) := by decide
theorem witness_MaskFunctions : 1 ≤ 8 ∧ 0x80 < 2 ^ 8 ∧ 0x7F < 2 ^ 8 ∧ conflict false [true, true] [4, 4] 1 = true := by decide
theorem witness_RunTagFields : ({ kw := 32, kt := 2, desc := true } : KeyOrder).kw ∈ [8, 16, 32, 64] ∧ 4 ∈ [1, 2, 4, 8] ∧
    ({ kw := 32, kt := 2, desc := true } : KeyOrder).kt ≤ 2 ∧ [5, 5, 3].length < 2 ^ 16 := by decide
/-! ## What SPAWN and LAUNCH write -/

/-- The same CR, its region's RCB at 0x1000 and its ring of 8 slots at 0x2000. -/
def ringed (join : Nat) : State :=
  (tasked join).setRegionAt 5 { (tasked join).regionNow with rcb := 0x1000, ring := 0x2000, ringlen := 8, tail := 6 }

theorem witness_SpawnMemory : ∃ img u, issueReady (ringed 0) ∧ fullX (ringed 0) 6 ∧ fullX (ringed 0) 7 ∧
    loadBlock 64 64 8 (fresh (ringed 0)) = .ok (img, u) ∧ imageIllegal (ringed 0).regionNow img = false ∧ spawnCharge (ringed 0) 3 0 3 ∧
    (spawnedCr (ringed 0) img 3).joinaddr = 0 ∧ Claims.controlAt (ringed 0) (ringed 0).ctx 0x1000 (0x2000 + 64 * 6) 0x1000 0x2180 ∧
    (ringed 0).regionNow.charged.get 0 0 + 1 < 2 ^ 32 ∧ (ringed 0).regionNow.tail < 2 ^ 32 := by
  have h : also (loadBlock 64 64 8 (fresh (ringed 0))) (fun r => imageIllegal (ringed 0).regionNow r.1 == false &&
      (spawnedCr (ringed 0) r.1 3).joinaddr == 0) = true := by decide +kernel
  obtain ⟨⟨img, u⟩, e, k⟩ := of_also h
  simp only [Bool.and_eq_true, beq_iff_eq] at k
  refine ⟨img, u, by decide +kernel, by decide +kernel, by decide +kernel, e, k.1, by decide +kernel, k.2, ?_, by decide +kernel, by decide +kernel⟩
  unfold Claims.controlAt
  decide +kernel
theorem witness_SpawnMemory_parked : ∃ img u v, loadBlock 64 64 8 (fresh (ringed 0x200)) = .ok (img, u) ∧
    (spawnedCr (ringed 0x200) img 3).joinaddr ≠ 0 ∧ readCounter (spawnedCr (ringed 0x200) img 3).joinaddr.toNat u = .ok (2, v) := by
  have h : also (loadBlock 64 64 8 (fresh (ringed 0x200))) (fun r => (spawnedCr (ringed 0x200) r.1 3).joinaddr != 0 &&
      also (readCounter (spawnedCr (ringed 0x200) r.1 3).joinaddr.toNat r.2) (fun x => x.1 == 2)) = true := by decide +kernel
  obtain ⟨⟨img, u⟩, e, k⟩ := of_also h
  simp only [Bool.and_eq_true, bne_iff_ne] at k
  obtain ⟨⟨n, v⟩, e', k'⟩ := of_also k.2
  simp only [beq_iff_eq] at k'
  exact ⟨img, u, v, e, k.1, by rw [e', k']⟩
theorem test_spawn_memory : shows (exec (.spawn false false 7 6) (ringed 0)) (fun t =>
      (t.mem.bytes 0x1044 4, t.mem.bytes 0x1058 4, t.mem.bytes 0x2180 48)) =
    some ([7, 0, 0, 0], [1, 0, 0, 0], toBytes 8 0x40 ++ toBytes 8 0x80 ++ toBytes 8 0 ++ toBytes 8 3 ++ toBytes 4 7 ++ toBytes 2 5 ++ [1, 2, 1, 0] ++
      toBytes 6 0) := by decide +kernel

theorem witness_ImageChecks : (image 0).length = 64 ∧ (image 0x200).length = 64 := by decide

theorem witness_LaunchChecks : (launching.mem.bytes 128 128).length = 128 ∧ (launching.mem.bytes 256 256).length = 256 ∧
    ({} : Region).failing = false ∧ ({ failing := true } : Region).failing = true ∧ freeRegion launching.regions 0 65535 1 = some 1 := by decide +kernel

/-- Regions 1 to `n` of context 0 are ACTIVE. -/
def crowded (a n : Nat) : Table Region := (List.range' a n).map (fun j => (j, { status := 1 }))

theorem crowded_get : ∀ n a k, a ≤ k → k < a + n → Table.get {} (crowded a n) k = { status := 1 }
  | 0, a, k, h1, h2 => by omega
  | n + 1, a, k, h1, h2 => by
    rw [crowded, List.range'_succ, List.map_cons, Table.get]
    split
    · rfl
    · exact crowded_get n (a + 1) k (by omega) (by omega)

theorem freeRegion_none {t : Table Region} : ∀ n k, (∀ j, k ≤ j → j < k + n → (Table.get {} t (regionKey 0 j)).status = 1) →
    freeRegion t 0 n k = none
  | 0, _, _ => rfl
  | n + 1, k, h => by
    rw [freeRegion, if_pos (h k (by omega) (by omega))]
    exact freeRegion_none n (k + 1) (fun j a b => h j (by omega) (by omega))

theorem witness_LaunchChecks_full : freeRegion ({ solo with regions := crowded 1 65535 } : State).regions 0 65535 1 = none :=
  freeRegion_none _ _ (fun j a b => by
    rw [show regionKey 0 j = j by simp [regionKey], crowded_get 65535 1 j a b])
theorem witness_LaunchMemory :
    (let s := launching
     let x : LaunchArgs := ⟨s.mem.bytes 128 128, s.mem.bytes 256 256, 256⟩
     x.hdr.length = 128 ∧ x.img.length = 256 ∧ freeRegion s.regions 0 65535 1 = some 1 ∧
     launchStatus (s.effective 0) (resolve (s.effective 0) x) (s.childrenOf 0) false x = 0 ∧
     Claims.controlAt s 0 x.rcb (resolve (s.effective 0) x).ring 256 0x1000) := by
  refine ⟨by decide +kernel, by decide +kernel, by decide +kernel, by decide +kernel, ?_⟩
  unfold Claims.controlAt
  decide +kernel
theorem test_launch_memory : shows (exec (.launch false false 7 6 5) launching) (fun t => (t.mem.bytes 256 20, t.mem.bytes 324 8, t.mem.bytes 0x1000 48)) =
    some (toBytes 2 0 ++ toBytes 2 1 ++ toBytes 4 0 ++ [7, 2, 1, 0] ++ toBytes 4 1 ++ toBytes 2 256 ++ [1, 8],
      toBytes 4 1 ++ toBytes 4 4,
      toBytes 8 0x40 ++ toBytes 8 0x80 ++ toBytes 8 0 ++ toBytes 8 (2 ^ 62) ++ toBytes 4 0 ++ toBytes 2 1 ++ [1, 2, 1, 0] ++ toBytes 6 0) := by
  decide +kernel

/-! ## The dispatcher's choices -/

theorem witness_Eligibility :
    (let s := queue5 1
     let c : CR := { code := 0x40, frame := 0x80, weight := 50, kind := 1, lanemin := 1, lanemax := 2, region := 5 }
     (∃ q, q < 4 ∧ (s.frontAt (2 / 2 * 2 + (1 - 2 % 2))).lanes &&& sliceOf q (2 % 2) = 0) ∧ c.save = 0 ∧
     s.choiceOf 2 (5, s.regionAt 5) = some (c, 16) ∧ behind5.choiceBehind 2 leaving (5, behind5.regionAt 5) = some (c, 8)) := by
  refine ⟨⟨0, by decide, by decide +kernel⟩, by decide +kernel⟩
theorem witness_DecisionTaken : ∃ k c g D, Table.wf {} (queue5 1).regions = true ∧
    (∀ e, ((queue5 1).choiceOf 2 e).isSome = true → e.2.status = 1) ∧ (queue5 1).decideBy 2 ((queue5 1).choiceOf 2) = some (k, c, g, D) := by
  obtain ⟨⟨k, c, g, D⟩, x, -⟩ := of_any (o := (queue5 1).decideBy 2 ((queue5 1).choiceOf 2)) (p := fun x => x.1 == 5) (by decide +kernel)
  refine ⟨k, c, g, D, by decide +kernel, fun e h => ?_, x⟩
  unfold State.choiceOf at h
  split at h
  · rename_i o
    unfold State.regionOpen at o
    simp only [Bool.and_eq_true, beq_iff_eq] at o
    exact o.1.1
  · exact nomatch h
theorem witness_DecisionTaken_exists : (5, (queue5 1).regionAt 5) ∈ (queue5 1).regions ∧
    ((queue5 1).choiceOf 2 (5, (queue5 1).regionAt 5)).isSome = true ∧ ∀ e ∈ (queue5 1).regions, e.2.share ≠ 0 := by decide +kernel
theorem witness_VictimIsLowest : Table.wf {} contended.fronts = true ∧ Table.wf {} contended.regions = true ∧ contended.victim = some (0, false) ∧
    Table.wf {} reclaimed.fronts = true ∧ Table.wf {} reclaimed.regions = true ∧ reclaimed.victim = some (0, true) := by decide +kernel

/-! ## The numbers of speculation -/

theorem witness_SpeculationBegins_place : (guessing 1).regionNow.rcb + 256 ≤ 2 ^ 42 := by decide +kernel
theorem witness_RequestChecks : ((guessing 1).mem.bytes 64 64).length = 64 ∧ ((guessing 1).mem.bytes 128 64).length = 64 := by decide +kernel

/-- Ticket 1 has generation 1 and is DONE; ticket 3 is ABANDONED. -/
def handles : State := (ticketed .done 0).setTicketAt 3 { st := .abandoned, gen := 2 }

theorem witness_RequestChecks_handles :
    (let isIt (h : Word) (m : Nat) : Prop := (handles.ticketAt m).st ≠ .free ∧ (handles.ticketAt m).gen = h.toNat / 256 ∧ (handles.ticketAt m).ctx = handles.ctx
     (0x100 : Word).toNat % 256 < 1 ∧ 64 < (0x141 : Word).toNat % 256 ∧ isIt 0x203 3 ∧ handles.liveTicket 0x101 = some 1) := by decide +kernel
theorem witness_RequestChecks_none : ∀ m, m % 256 = 5 → ¬ ((handles.ticketAt m).st ≠ .free ∧ (handles.ticketAt m).gen = 1 ∧ (handles.ticketAt m).ctx = 0) := by
  intro m h
  have hk : ∀ t : Table Ticket, (∀ e ∈ t, e.1 ≠ m) → Table.get {} t m = {} := by
    intro t
    induction t with
    | nil => intro _; rfl
    | cons e t ih =>
      intro g
      rw [Table.get, if_neg (g e (List.mem_cons_self)), ih (fun x hx => g x (List.mem_cons_of_mem _ hx))]
  have hl : ∀ e ∈ handles.dev.tickets, e.1 % 256 ≠ 5 := by decide +kernel
  have := hk handles.dev.tickets (fun e he g => hl e he (g ▸ h))
  unfold State.ticketAt
  rw [this]
  simp

/-- The version descriptor at 128 of `guessing`. -/
def versionAt (s : State) : VersionDesc := VersionDesc.ofBytes (s.mem.bytes 128 64)

theorem witness_PredictionFormed : ∀ alpha, alpha ∈ [0, 1, 2] → ∀ n, n ∈ [1, 2] →
    (let s := guessing n
     let D := versionAt s
     let r : Request := ⟨4 * alpha, 0, 0, 0, 0, 0, 0, 0⟩
     D.fmt ≤ 2 ∧ r.alpha ≤ 2 ∧ 1 ≤ D.versions ∧ D.versions ≤ 2 ∧ okay (s.peekWindow s.ctx (D.hist + D.newest * D.bytes) D.bytes) = true ∧
     okay (s.peekWindow s.ctx (D.hist + (1 - D.newest) * D.bytes) D.bytes) = true) := by decide +kernel
theorem witness_GaugeTest : valueOf (f32.decode (0 : BitVec 32).toNat) = some 0 ∧ (∃ b, valueOf (f32.decode (0x3F800000 : BitVec 32).toNat) = some b) := by
  refine ⟨by decide +kernel, some_of (by decide +kernel)⟩
theorem test_gauge_tolerance : gaugePasses 0 0 0x3E800000 0x3F800000 0x3F200000 = false ∧ gaugePasses 0 0 0x3E800000 0x3F800000 0x3F400000 = true ∧
    gaugePasses 0 0 0 0 0x80000000 = true ∧ firstMiss 0 0 0 0 [(1, 1), (0x3F800000, 0x40000000)] = some 1 := by decide +kernel

/-- A ticket on the descriptor at 128, whose check has read its real version at an event. -/
def judged (pred : Nat) : State :=
  let s := guessing 1
  let T : Ticket := { st := .opened, gen := 1, region := 5, desc := 128, buf := 0x2000, count := 1, wm := 0x3100, target := 5,
                      pred := Table.setBytes [] 0x2000 (toBytes 4 pred), real := some (0, toBytes 4 0x3F800000), event := 1 }
  { (poke s 0x3100 [5]).setTicketAt 1 T with arg := { s.arg with ticket := 1 } }

theorem witness_HistoryKept :
    (let s := judged 0x3F800000
     let T := s.ticketAt 1
     T.desc + 64 ≤ 2 ^ 42 ∧ s.peekWindow T.ctx T.desc 64 = .ok (s.mem.bytes 128 64) ∧
     (let slot := num (s.mem.bytes 128 64) 16 8 + (1 - num (s.mem.bytes 128 64) 8 8 / 2 ^ 18 % 2) * 4
      slot = 0x3004 ∧ slot + 4 ≤ 2 ^ 42 ∧ scalarRange s 256 T.ctx .write true slot 4 = .ok [⟨slot, 0x3004, 4⟩] ∧
      scalarRange s 256 T.ctx .write true (T.desc + 8) 8 = .ok [⟨T.desc + 8, 136, 8⟩]) ∧
     s.arg.ticket = 1 ∧ s.checkDue T = true ∧ s.checkedWith T = [1] ∧ T.real = some (0, toBytes 4 0x3F800000)) := by decide +kernel
theorem test_history : shows (exec .gaugeCheck (judged 0x3F800000)) (fun t => (t.mem.bytes 0x3004 4, t.mem.bytes 136 8)) =
    some (toBytes 4 0x3F800000, toBytes 8 (2 * 2 ^ 19 + 2 ^ 18)) := by decide +kernel
/-! ## Skip-and-return -/

/-- Bytes of granule 0 alone translate, each to itself. -/
theorem low_of_vectorByte {s : State} {acc : Acc} {va k : Nat} (hv : s.dev.vpm = solo.dev.vpm) (h : vectorByte s 0 acc va = .ok k) : k = va := by
  have hd : ∃ E : Word, solo.dev.vpm = [(0, E)] ∧ E.getLsbD 22 = false ∧ (E.extractLsb' 14 3).toNat = 0 ∧ (E.extractLsb' 0 11).toNat = 0 :=
    ⟨Table.get 0 solo.dev.vpm 0, by decide +kernel⟩
  obtain ⟨E, hE, h1, h2, h3⟩ := hd
  unfold vectorByte window at h
  rw [hv, hE] at h
  generalize hq : va / 2 ^ 26 = q at h
  generalize hm : va % 2 ^ 26 = m at h
  by_cases hz : q = 0
  · subst hz
    simp only [Table.get, if_true, h1, h2, h3, Nat.zero_mul, Nat.zero_add] at h
    split at h
    · exact nomatch h
    split at h
    · exact nomatch h
    split at h
    · exact nomatch h
    have := Except.ok.inj h
    have := Nat.div_add_mod va (2 ^ 26)
    rw [hq, hm] at this
    omega
  · have : Table.get 0 [(0, E)] q = 0 := by simp [Table.get, Ne.symm hz]
    rw [this] at h
    simp at h
    split at h <;> exact nomatch h

/-- Nothing disturbs an engine alone in a state of granule 0 in which nothing has been written. -/
theorem calm_alone {s : State} {g : Nat} (hv : s.dev.vpm = solo.dev.vpm)
    (h : (s.ctxAt 0).mixtrap = false ∧ s.dev.poison = [] ∧ s.regions = [] ∧ s.order.marks = [] ∧ s.order.ahead = [] ∧
      (∀ e ∈ s.cores, e.2.sorus = []) ∧
      ∀ e ∈ s.fronts, ∀ sel ∈ [0, 1, 2], ∀ c ∈ Table.get [] e.2.chain sel, engineAgent e.1 sel c.seq = g) : calm s 0 g := by
  obtain ⟨h1, h2, h3, h4, h5, h6, h7⟩ := h
  have ho : ∀ size key, s.order.ordered g size key = true := fun size key => by
    unfold Order.ordered
    rw [h4]
    rfl
  have hd : ∀ size key, s.engineDue g size key = false := fun size key => by
    unfold State.engineDue
    rw [Bool.or_eq_false_iff]
    constructor
    · rw [List.any_eq_false]
      intro e he hx
      rw [List.any_eq_true] at hx
      obtain ⟨sel, hs, hx⟩ := hx
      rw [List.any_eq_true] at hx
      obtain ⟨c, hc, hx⟩ := hx
      rw [h7 e he sel hs c hc] at hx
      simp at hx
    · rw [List.any_eq_false]
      intro e he hx
      rw [h6 e he] at hx
      simp at hx
  refine ⟨h1, h2, by rw [controlInWindow, h3]; simp, ?_, fun size va key _ => ?_, fun size va key _ => ?_⟩
  · intro x y k hx hy
    have e1 : k = x := hx.elim (low_of_vectorByte hv) (low_of_vectorByte hv)
    have e2 : k = y := hy.elim (low_of_vectorByte hv) (low_of_vectorByte hv)
    omega
  · unfold State.stands Order.settled
    rw [ho, hd, h5]
    rfl
  · unfold State.lands State.hardwareOwned
    rw [ho, h3]
    rfl

/-- A SKIP copy of one segment from 64 to 128, its record at 0x300. -/
def skipOf (dst comp : Nat) : List Nat := [2 ^ 9, 8, 64, dst, comp]

/-- Whether its destination is in the scratchpad, whose local addresses have bit 63. -/
def skipDst (loc : Bool) : Nat := if loc then 2 ^ 63 + 64 else 128

theorem witness_SegmentWork : ∀ loc : Bool,
    (let l := skipOf (skipDst loc) 0x300
     let s := copying l
     let c := copyCmd l
     let e : Site := ⟨0, 0, 0, 1⟩
     copySkip c.raw = true ∧ copyShd c.raw = false ∧ c.payload = none ∧ segSpan c.raw 0 = (0, 8) ∧ calm s c.ctx e.agent ∧
     segmentBytes s e c 0 8 = some (s.mem.bytes 64 8, 0) ∧ isLocal (copyDst c.raw) = loc ∧
     (∀ sel j x, sel ≤ 2 → s.cmdAt e.f sel j = some x → x.running = true → sel = e.sel ∧ j = e.k) ∧
     (∀ j, j < 8 → (s.cmdReads e.f 0 c).any (inRange loc ((if loc then localAddr (copyDst c.raw) else copyDst c.raw) + j)) = false) ∧
     isLocal (copyComp c.raw) = false ∧ (copyDst c.raw + 8 ≤ copyComp c.raw ∨ isLocal (copyDst c.raw) = true) ∧
     windowPieces s c.ctx .write (copyComp c.raw + 24 + 8 * c.delivered) 8 = .ok [⟨copyComp c.raw + 24 + 8 * c.delivered, 0x318, 8⟩] ∧
     windowPieces s c.ctx .write (copyComp c.raw + 16) 8 = .ok [⟨copyComp c.raw + 16, 0x310, 8⟩] ∧
     (loc = false → windowPieces s c.ctx .write (copyDst c.raw) 8 = .ok [⟨copyDst c.raw, 128, 8⟩]) ∧
     (loc = true → localAddr (copyDst c.raw) + copyDstBytes c.raw ≤ 2 ^ 21 ∧ isLocal (copySrc c.raw) = false)) := by
  intro b
  refine ⟨by cases b <;> decide +kernel, by cases b <;> decide +kernel, rfl, by cases b <;> decide +kernel,
    calm_alone (by cases b <;> decide +kernel) (by cases b <;> decide +kernel), by cases b <;> decide +kernel, by cases b <;> decide +kernel,
    ?_, by cases b <;> decide +kernel, by cases b <;> decide +kernel, by cases b <;> decide +kernel, by cases b <;> decide +kernel,
    by cases b <;> decide +kernel, by cases b <;> decide +kernel, by cases b <;> decide +kernel⟩
  have h : (((copying (skipOf (skipDst b) 0x300)).arg.front = 0 ∧ 0 < 256 ∧ (copying (skipOf (skipDst b) 0x300)).arg.n = 1 ∧
      (copying (skipOf (skipDst b) 0x300)).cmdAt 0 0 0 = some (copyCmd (skipOf (skipDst b) 0x300)) ∧ 1 = (copyCmd (skipOf (skipDst b) 0x300)).seq ∧
      (copying (skipOf (skipDst b) 0x300)).mayWork 0 0 0 (copyCmd (skipOf (skipDst b) 0x300)) = true ∧
      (copyCmd (skipOf (skipDst b) 0x300)).phase = .running) ∧ 0 = 0 ∧
      ∀ sel, sel < 3 → (((copying (skipOf (skipDst b) 0x300)).frontAt 0).chain.get [] sel).length ≤ if sel = 0 then 1 else 0) := by
    cases b <;> decide +kernel
  exact (working_alone _ ⟨0, 0, 0, 1⟩ _ h).2.2.2.2.2.2.2
theorem witness_SegmentWork_fails :
    (let c (dst src : Nat) := copyCmd [2 ^ 9, 8, src, dst, 0x300]
     let s := copying [2 ^ 9, 8, 64, 128, 0x300]
     windowPieces s 0 .write (copyDst (c 0x4000000 64).raw) 8 = .error (4, 0x4000000) ∧
     okay (windowPieces s 0 .write (copyDst (c 128 0x4000000).raw) 8) = true ∧ copyOp (c 128 0x4000000).raw = 0 ∧
     isLocal ((c 128 0x4000000).source 0) = false ∧ windowPieces s 0 .read ((c 128 0x4000000).source 0) 8 = .error (4, 0x4000000)) := by
  decide +kernel

/-- The same in a command that has read its (empty) list, of one segment or of one that fails at its destination. -/
def skipCmd (dst : Nat) : Cmd := { copyCmd (skipOf dst 0x300) with loaded := true }
def skipState (dst : Nat) : State := chained 0 (skipCmd dst) (copying (skipOf dst 0x300))

theorem witness_SkipWork : ∀ dst, dst ∈ [128, 0x4000000] →
    (copyStepOf .copy = some (copyOp (skipCmd dst).raw) ∧ (skipState dst).arg.k = 0 ∧ working (skipState dst) ⟨0, 0, 0, 1⟩ (skipCmd dst) ∧
     copySkip (skipCmd dst).raw = true ∧ (skipCmd dst).loaded = true ∧ (skipCmd dst).pos < segCount (skipCmd dst).raw ∧
     okay ((skipState dst).segment ⟨0, 0, 0, 1⟩ (skipCmd dst) 0) = decide (dst = 128)) := by
  intro dst h
  simp only [List.mem_cons, List.not_mem_nil, or_false] at h
  rcases h with rfl | rfl <;>
  exact ⟨by decide +kernel, by decide +kernel, working_alone _ _ _ (by decide +kernel), by decide +kernel, by decide +kernel, by decide +kernel,
    by decide +kernel⟩

/-- Its first pass is over and its segment is to be tried again. -/
def skipAgain (dst : Nat) : Cmd := { skipCmd dst with pos := 1, skipTrap := .retry, skipped := [0] }

theorem witness_SkipWork_retry : ∀ dst, dst ∈ [128, 0x4000000] →
    (let s := chained 0 (skipAgain dst) (copying (skipOf dst 0x300))
     s.arg.front = 0 ∧ s.arg.sel = 0 ∧ s.arg.k = 0 ∧ s.arg.n = 1 ∧ s.cmdAt 0 0 0 = some (skipAgain dst) ∧ (skipAgain dst).seq = 1 ∧
     s.frozenCmd (skipAgain dst) = false ∧ (skipAgain dst).away = false ∧ (skipAgain dst).phase = .running ∧ copySkip (skipAgain dst).raw = true ∧
     segCount (skipAgain dst).raw ≤ (skipAgain dst).pos ∧ (skipAgain dst).skipTrap = .retry ∧ (skipAgain dst).skipped = [0] ∧
     okay (s.segment ⟨0, 0, 0, 1⟩ (skipAgain dst) 0) = decide (dst = 128)) := by decide +kernel
theorem test_skip : shows (exec .copy (skipState 128)) (fun t => (t.mem.bytes 128 8 == t.mem.bytes 64 8, t.mem.bytes 0x310 16,
      (t.cmdAt 0 0 0).map (fun c => (c.phase, c.done)))) = some (true, toBytes 8 1 ++ toBytes 8 0, some (.finished, 8)) ∧
    shows (exec .copy (skipState 0x4000000)) (fun t => (t.mem.bytes 0x310 8, (t.cmdAt 0 0 0).map (fun c => (c.skipTrap, c.skipped, c.failCause)))) =
      some (toBytes 8 0, some (.faulted, [0], 4)) := by decide +kernel
theorem test_skip_retry : shows (exec .engineRetry (chained 0 (skipAgain 0x4000000) (copying (skipOf 0x4000000 0x300)))) (fun t =>
    (t.cmdAt 0 0 0).map (fun c => (c.phase, c.status, c.skipped))) = some (some (.finished, 4, [])) := by decide +kernel

/-! ## The arithmetic of engines and of VSF, VSCACC and the EFB chain -/

theorem witness_RotatedPairs : (∃ u, valueOf (f32.decode 0x3F800000) = some u) ∧ f32.decode 0x7F800000 = .inf false ∧
    f32.decode 0xFF800000 = .inf true ∧ f32.decode 0x7FC00000 = .nan false ∧ f32.decode 0 = .fin false 0 (-149) :=
  ⟨some_of (by decide +kernel), by decide +kernel, by decide +kernel, by decide +kernel, by decide +kernel⟩
theorem test_rotate : rotate f32 true (f32.decode 0x40400000) (f32.decode 0x3F800000) (f32.decode 0x3F800000) (f32.decode 0x3F800000) =
      (0x40000000, 0) ∧
    rotate f16 false (f32.decode 0x7F800000) (f32.decode 0x3F800000) (f32.decode 0xFF800000) (f32.decode 0x3F800000) = (0x7E00, 16) := by
  decide +kernel
theorem witness_BlockSums : (List.replicate 32 0x3F80).length = 32 ∧ (List.replicate 32 5).length = 32 ∧
    (∃ u, valueOf (bf16.decode ((List.replicate 32 0x3F80).getD 3 0)) = some u) ∧
    (bf16.decode ((List.replicate 32 0x7FC0).getD 3 0)).isNan = true ∧ bf16.decode ((List.replicate 32 0x7F80).getD 3 0) = .inf false :=
  ⟨by decide +kernel, by decide +kernel, some_of (by decide +kernel), by decide +kernel, by decide +kernel⟩
theorem test_block_sum : blockSum 4 (List.replicate 32 0xFF) (List.replicate 32 2) = (2 ^ 32 - 64, 0) ∧
    blockSum 0 (List.replicate 32 0x3F80) (List.replicate 32 0x4000) = (0x42800000, 0) := by decide +kernel
theorem witness_ScaleArithmetic : (0 : Nat) ≤ 4 ∧ (∃ u, valueOf (f32.decode 0x40000000) = some u) ∧
    (∃ v, valueOf (scaleOf (!true) 128) = some v) ∧ (scaleOf (!true) 255).isNan = true ∧ scaleOf (!false) 0x7F800000 = .inf false :=
  ⟨by decide, some_of (by decide +kernel), some_of (by decide +kernel), by decide +kernel, by decide +kernel⟩
theorem test_fpScale : fpScale true f32 0 0x40000000 128 0x3F800000 = (0x40A00000, 0) := by decide +kernel
theorem witness_ChainArithmetic : narrowing (.float f32) (.float bf16) = true ∧ isFormat bf16 ∧ narrowing (.float f16) (.taper 8) = true ∧
    [true, false].length = [1, 2].length :=
  ⟨by decide +kernel, .inr (.inr (.inr rfl)), by decide +kernel, rfl⟩
theorem test_chain : chain (.float f32) (.float bf16) 0 0 [true, true] [0x3F804000, 0x3F804000] =
    ([.put 0x3F80, .put 0x3F80], [(0, 1), (1, 1)], 0x3B800000) := by decide +kernel
theorem witness_SpecialFunctions : f32.decode 0x7F800000 = .inf false ∧ f32.decode 0x7FC00000 = .nan false ∧ valueOf (f32.decode 0) = some 0 ∧
    (∃ u, valueOf (f32.decode 0x40400000) = some u) ∧ 0x40000000 < 2 ^ (f32.width - 1) :=
  ⟨by decide +kernel, by decide +kernel, by decide +kernel, some_of (by decide +kernel), by decide⟩
theorem test_special : f32.special 0 0x40400000 = (0x41000000, 0) ∧ f32.special 1 0x41000000 = (0x40400000, 0) ∧
    f32.special 2 0xC0000000 = (0xBF000000, 0) ∧ f32.special 3 0x40800000 = (0x3F000000, 0) := by decide +kernel
/-! ## Checkpoint images -/

/-- A job of region 5: a CR of it on front 1, a saved one, a live view, a ticket and an engine command. -/
def jobbed : State :=
  let s := tasked 0
  let r : Run := { s.run with serial := 4, cr := { s.run.cr with code := 0x50 } }
  let s := s.setFrontAt 1 { s.front with
    run := some r, grant := 8, a := { s.front.e with live := true, ckpt := { s.front.e.regs with pc := 0x44 } }
    chain := Table.set [] [] 0 [{ raw := record [0, 8, 64, 128], region := 5, serial := 4, seq := 1, label := 1, launch := 0 }] }
  let s := s.setTicketAt 1 { st := .opened, gen := 1, region := 5, outs := [(64, 8)] }
  let s := s.setView 0 { live := true, gen := 1, lo := 0x4000000, hi := 0x4020000, ctx := 0 }
  s.setRegionAt 5 { s.regionAt 5 with ready := [{ code := 0x60, region := 5, save := 3, weight := 9 }] }

def jobImage : Image := jobbed.imageOf 0 5

/-- A device that holds nothing but context 1's budget. -/
def bare : State := { State.reset with ctxs := Table.set {} State.reset.ctxs 1 { qentries := 64, scratch := 64, tiles := 8 } }

theorem witness_ImageLayout : jobImage.ctx < 16 ∧ jobImage.region < 65536 ∧ ({ index := 7, entry := 0 } : Granule).index < 65536 ∧
    ({ patches := [3, 1] } : Granule).patches.Nodup ∧ (∀ p ∈ ({ patches := [3, 1] } : Granule).patches, p < 1024) ∧
    (covered.dev.vpm.get 0 1).getLsbD 22 = true ∧ (solo.dev.vpm.get 0 0).getLsbD 22 = false := by decide +kernel
theorem witness_ImageHolds : Table.wf {} jobbed.regions = true ∧ (jobbed.regionAt (regionKey 0 5)).status = 1 ∧
    (jobbed.regionAt (regionKey 0 9)).status ≠ 1 ∧ jobImage.fronts.map (fun x => x.1) = [0, 1] ∧ jobImage.regions.map (fun x => x.1) = [5] ∧
    jobImage.tickets.length = 1 ∧ jobImage.views.length = 1 ∧ jobImage.chains.map (fun x => x.1) = [0, 1] ∧
    jobImage.granules.map (fun g => g.index) = [0] ∧ (0, jobbed.dev.vpm.get 0 0) ∈ jobbed.dev.vpm ∧
    (jobbed.dev.vpm.get 0 0).getLsbD (48 + 0) = true := by decide +kernel
theorem witness_FrontRecords :
    (let F := jobbed.frontAt 1
     F.run.isSome = true ∧ F.drain = none ∧ F.a.live = true ∧ F.a.fills = [] ∧ F.a.priv = false) := by decide +kernel
theorem witness_RestoreChecks : (∀ e ∈ jobImage.regions, e.1 / 65536 = jobImage.ctx) ∧ (jobImage.regions.map (fun e => e.1)).Nodup ∧
    bare.firstTaken [] jobImage.granules = none ∧ solo.firstTaken [] jobImage.granules = some 0 := by decide +kernel
theorem test_restore_checks : solo.restoreFailure 0 0x3CF jobImage = some (3 + 65536 * 0) ∧ jobbed.restoreFailure 0 0x3CF jobImage = some 2 ∧
    bare.restoreFailure 1 0x3CF { jobImage with fronts := [], granules := [] } = none ∧
    bare.restoreFailure 2 0x3CF { jobImage with fronts := [], regions := [(5, { status := 1, qentries := 1 })] } = some 5 ∧
    bare.restoreFailure 1 0x3C { jobImage with fronts := [] } = some 6 := by decide +kernel
theorem witness_Rebuilt : (∀ e ∈ jobImage.regions, e.1 / 65536 = jobImage.ctx) ∧ (jobImage.regions.map (fun e => e.1)).Nodup ∧
    (∀ x ∈ jobImage.fronts, x.2.run.ctx = jobImage.ctx) ∧ (jobImage.tickets.map (fun x => x.1)).Nodup ∧
    (∀ x ∈ jobImage.tickets, (bare.ticketAt x.1).live = false ∧ (bare.ticketAt x.1).owing = false) ∧
    (∀ x ∈ jobImage.tickets, ∃ e ∈ jobImage.regions, e.1 = regionKey x.2.ctx x.2.region) ∧
    (jobImage.views.map (fun x => x.1)).Nodup ∧ (∀ x ∈ jobImage.views, (bare.dev.views.get {} x.1).live = false) ∧
    (jobImage.granules.map (fun g => g.index)).Nodup ∧ Table.wf 0 jobImage.patches = true ∧ (jobImage.chains.map (fun x => x.1)).Nodup := by
  decide +kernel
theorem witness_Rebuilt_memory :
    (let i : Image := { jobImage with fronts := [] }
     (i.granules.map (fun g => granuleAt g.index g.entry)).Pairwise (fun a b => a + 2 ^ 26 ≤ b ∨ b + 2 ^ 26 ≤ a) ∧
     (∀ g ∈ i.granules, Table.wf 0 g.data = true ∧ ∀ e ∈ g.data, e.1 < 2 ^ 26) ∧ i.fronts = [] ∧
     (∀ e ∈ i.regions, rootOf i e = true → e.2.parent = 0)) := by decide +kernel
theorem test_rebuilt :
    (let t := bare.rebuild 1 jobImage
     let R := t.regionAt (regionKey 1 5)
     R.frozen = true ∧ R.status = 1 ∧ R.ready.map CR.code = [0, 0x50, 0x60] ∧ t.mem.get 0 0x200 = 2 ∧ (t.frontAt 1).seqFor 1 0 = 0 ∧
     ((t.frontAt 1).chain.get [] 0).map Cmd.ctx = [1] ∧ (t.ticketAt 1).ctx = 1 ∧ (t.dev.vpm.get 0 0).extractLsb' 48 16 = 2 ∧
     (t.ctxAt 1).qentries = 64) := by decide +kernel

theorem witness_PersistentErrors : (5 : Nat) < 2 ^ 24 ∧ ({} : Core).lastError.get 0 (2 ^ 24 * 3 + 5) = 0 ∧ (7 : Nat) ≤ 7 + 2 ^ 30 ∧
    ((4 : Nat) ≠ 3 ∨ (5 : Nat) ≠ 5) := by decide +kernel
theorem test_persistent : (({} : Core).correct 7 3 5).persistent (7 + 2 ^ 30) 3 5 false = true ∧
    (({} : Core).correct 7 3 5).persistent (8 + 2 ^ 30) 3 5 false = false ∧ (({} : Core).correct 7 3 5).persistent 8 3 6 false = false := by decide +kernel

/-- The access hart's EXIT in privileged mode, with the pair of `paired` waiting. -/
theorem witness_ExitResult_waits : (inPriv paired).priv = true ∧ (inPriv paired).pair = true ∧ ¬ noPairs (inPriv paired) ∧ noPairs (inPriv fed) ∧
    (inPriv fed).pair = true := by decide +kernel
theorem test_exit_waits : shows (exec .exit (inPriv paired)) (fun t => (t.hart.wait, t.front.run.isSome)) = some (.room, true) ∧
    shows (exec .exit (inPriv fed)) (fun t => t.front.run.isNone) = some true := by decide +kernel
/-- A DEADLOCK handler waits for no store whose data the stopped execute hart would bring. -/
theorem witness_queuesClear : ∀ b : Bool,
    (let s := onFront (inPriv (if b then paired else deadlocking true)) (fun F => { F with e := { F.e with stopped := true } })
     queueAhead s = true ∧ s.priv = true ∧ s.front.e.stopped = true ∧ s.front.pairFirst = b) := by decide +kernel

/-! ## Traps, clause by clause -/

theorem witness_LastMissing_exec : Claims.accessOnly (.cLd 5 6) = true ∧ Claims.accessOnly (.cAdd 5 6) = false ∧ isScalarFp (.cFadd 5 6) = true ∧
    readsLastX (.cFadd 5 6) = true ∧ isScalarFp (.cAdd 5 6) = false ∧ (pairAt .e solo).isExec = true ∧
    (pairAt .e solo).regs.lastd.getLsbD 7 = false ∧ solo.isExec = false ∧ solo.regs.frm ≠ 5 := by decide +kernel
theorem witness_SpawnTraps_image :
    (let s := setXs (tasked 0) [(6, 65)]
     strips s ∧ fullX s 6 ∧ fullX s 7 ∧ (s.regs.getX 6).toNat % 8 ≠ 0) ∧
    (let s := poke (tasked 0) 104 [3]
     strips s ∧ okay (loadBlock 64 64 8 (fresh s)) = true ∧
       also (loadBlock 64 64 8 (fresh s)) (fun r => imageIllegal s.regionNow r.1) = true) ∧
    (let s := tasked 0x201
     also (loadBlock 64 64 8 (fresh s)) (fun r => imageIllegal s.regionNow r.1 == false && (CR.ofBytes r.1).joinaddr.toNat % 8 != 0) = true) ∧
    (let s := tasked 0x200
     also (loadBlock 64 64 8 (fresh s)) (fun r => imageIllegal s.regionNow r.1 == false && (CR.ofBytes r.1).joinaddr != 0 &&
       okay (readCounter (CR.ofBytes r.1).joinaddr.toNat r.2)) = true) := by decide +kernel
theorem witness_SpawnTraps_draw :
    (let s := onRun ((tasked 0).setRegionAt 5 { (tasked 0).regionNow with drawn := 0x8000000000000000 }) (fun r => { r with cweight := 1 })
     ¬ (s.regionNow.failing = true ∨ s.regionNow.reserve.get 0 0 < s.regionNow.charged.get 0 0 + 2) ∧ s.run.cweight.toNat < 2 ∧
     2 ^ 63 < s.regionNow.drawn.toNat + 2 ^ 32) := by decide +kernel

/-- Ticket 1 has logged 16 effects. -/
def logFull : State := setXs (tentative.setTicketAt 1 { tentative.ticketAt 1 with log := List.replicate 16 (.epub 0 0 0) }) [(6, 0x200), (7, 2), (8, 2)]

theorem witness_TicketTraps_logged : logFull.ticket ≠ 0 ∧ strips logFull ∧ 16 ≤ (logFull.ticketAt logFull.ticket).log.length ∧
    Claims.reaches logFull .both 0x200 8 0x200 ∧ Claims.reaches logFull .both 0x200 4 0x200 ∧
    (∀ k, k ∈ [(6 : Reg), 7, 8] → fullX logFull k) ∧ (0 : BitVec 4).toNat ≤ 8 ∧ (logFull.regs.getX 8).toNat ≤ 2 := by decide +kernel
theorem witness_TicketTraps_forms :
    (∃ p, logged (.join false 6 5) logFull = some ([6], p) ∧ p) ∧ (∃ p, logged (.wmpub false false 7 6) logFull = some ([6, 7], p) ∧ p) ∧
    (∃ p, logged (.amo false false true 0 7 6 5) logFull = some ([6, 7], p) ∧ p) ∧
    ∃ p, logged (.epub false false 7 8) logFull = some ([8, 7], p) ∧ p := by
  have h : Claims.reaches logFull .both (logFull.regs.getX 6).toNat 8 0x200 := by decide +kernel
  exact ⟨⟨_, rfl, 0x200, h⟩, ⟨_, rfl, 0x200, h⟩, ⟨_, rfl, by decide, 0x200, h⟩, _, rfl, by decide +kernel⟩
theorem witness_TicketCommits_place : controlInWindow passing ∧ passing.hardwareOwned 0x1000 = false ∧
    (∀ y ∈ (passing.ticketAt 1).written, vectorByte passing 0 .write y = .ok 0x1000 → y = 0x1000) := by decide +kernel

end Sys2Proof.Tests
end

section
/-! The scalar integer instructions (O1) and the branches (O5): the values of the claims' forms against the model's operations, one
law for each shape of instruction, and the two obligations as case splits over the forms. -/

namespace Sys2Proof.Machine

open Sys2Proof.Claims

/-! ## Values (17 R336, R337, R362, R371, R373, R381, R382) -/

/-- R381: a register's shift amount is its low six bits. -/
theorem low6_toNat (v : Word) : (v.extractLsb' 0 6).toNat = v.toNat % 64 := by
  simp [BitVec.extractLsb'_toNat]

theorem slt_iff_not_toInt_le (u v : Word) : v.slt u = true ↔ ¬ u.toInt ≤ v.toInt := by
  rw [BitVec.slt_iff_toInt_lt, Int.not_le]

theorem ult_iff_not_toNat_le (u v : Word) : v.ult u = true ↔ ¬ u.toNat ≤ v.toNat := by
  rw [BitVec.ult_iff_lt, BitVec.lt_def, Nat.not_le]

theorem signedMin_eq (u v : Word) : signedMin u v = if u.toInt ≤ v.toInt then u else v := by
  simp only [signedMin, slt_iff_not_toInt_le, ite_not]

theorem unsignedMin_eq (u v : Word) : unsignedMin u v = if u.toNat ≤ v.toNat then u else v := by
  simp only [unsignedMin, ult_iff_not_toNat_le, ite_not]

/-- Of two equal operands the maximum is either. -/
theorem signedMax_eq (u v : Word) : signedMax u v = if u.toInt ≤ v.toInt then v else u := by
  unfold signedMax
  rcases Int.lt_trichotomy u.toInt v.toInt with h | h | h
  · rw [if_pos (BitVec.slt_iff_toInt_lt.2 h), if_pos (by omega)]
  · rw [BitVec.eq_of_toInt_eq h]; simp
  · rw [if_neg (by rw [BitVec.slt_iff_toInt_lt]; omega), if_neg (by omega)]

theorem unsignedMax_eq (u v : Word) : unsignedMax u v = if u.toNat ≤ v.toNat then v else u := by
  unfold unsignedMax
  rcases Nat.lt_trichotomy u.toNat v.toNat with h | h | h
  · rw [if_pos (BitVec.ult_iff_lt.2 h), if_pos (by omega)]
  · rw [BitVec.eq_of_toNat_eq h]; simp
  · rw [if_neg (by rw [BitVec.ult_iff_lt, BitVec.lt_def]; omega), if_neg (by omega)]

theorem popCount_eq_countP (u : Word) (n : Nat) : popCount u n = (List.range n).countP (fun k => u.getLsbD k) := by
  induction n with
  | zero => rfl
  | succ n ih => simp only [popCount, ih, List.range_succ, List.countP_append, List.countP_singleton, Nat.add_comm]

theorem slt_sext (u : Word) (k : BitVec 14) : u.slt (sext k) = decide (u.toInt < k.toInt) := by
  rw [sext, BitVec.slt, BitVec.toInt_signExtend_of_le (by decide)]

/-- The signed division: quotient, remainder and events (R103, R104, R337, R373). -/
theorem divide_signed (u v : Word) : divide true u v = (sQuot u v, sRem u v,
    if v = 0 then 1 else if u = BitVec.intMin 64 ∧ v = BitVec.allOnes 64 then 2 else 0) := by
  simp only [divide, sQuot, sRem, if_true]
  split_ifs <;> rfl

/-- The unsigned division. -/
theorem divide_unsigned (u v : Word) : divide false u v = (uQuot u v, uRem u v, if v = 0 then 1 else 0) := by
  simp only [divide, uQuot, uRem, Bool.false_eq_true, if_false]
  split_ifs <;> rfl

/-- A division accrues in vsflags the events that `divide` names (R104). -/
theorem divEvents_eq (signed : Bool) (u v : Word) (r : Regs) :
    divEvents signed u v r = { r with vsflags := r.vsflags ||| (divide signed u v).2.2 } := by
  have h0 : r.vsflags ||| 0 = r.vsflags := BitVec.or_zero
  cases signed with
  | false =>
    simp only [divEvents, divide_unsigned, Bool.false_eq_true, false_and, if_false]
    split_ifs <;> simp only [h0]
  | true =>
    simp only [divEvents, divide_signed, true_and]
    split_ifs <;> simp only [h0]

/-! ## Shapes: an instruction whose sources and destination are full answers its form's result -/

section
variable {i : Instr} {p q : Bool} {a b d : Reg} {s : State} {w : Word}

theorem alu2_result {f : Word → Word → Word} (hr : XForm.ready { srcs := [a, b], d := d, val := w } s)
    (hw : f (s.regs.getX a) (s.regs.getX b) = w) :
    alu2 i p q b a d f s = .next (XForm.result { srcs := [a, b], d := d, val := w } i s) := by
  rw [alu2_full (hr a (by simp)) (hr b (by simp)) (hr d (by simp)), hw]; rfl

theorem alu1_result {f : Word → Word} (hr : XForm.ready { srcs := [a], d := d, val := w } s)
    (hw : f (s.regs.getX a) = w) :
    alu1 i p a d f s = .next (XForm.result { srcs := [a], d := d, val := w } i s) := by
  rw [alu1_full (hr a (by simp)) (hr d (by simp)), hw]; rfl

theorem compressed2_result {f : Word → Word → Word} (hl : lastX s.regs = some a)
    (hr : XForm.ready { srcs := [a, b], d := d, val := f (s.regs.getX a) (s.regs.getX b) } s) :
    compressed2 i b d f s =
      .next (XForm.result { srcs := [a, b], d := d, val := f (s.regs.getX a) (s.regs.getX b) } i s) := by
  rw [compressed2_full hl (hr a (by simp)) (hr b (by simp)) (hr d (by simp))]; rfl

theorem compressed1_result {f : Word → Word} (hl : lastX s.regs = some a)
    (hr : XForm.ready { srcs := [a], d := d, val := f (s.regs.getX a) } s) :
    compressed1 i d f s = .next (XForm.result { srcs := [a], d := d, val := f (s.regs.getX a) } i s) := by
  rw [compressed1_full hl (hr a (by simp)) (hr d (by simp))]; rfl

/-- An instruction without a source, as UPI and AUPC are (R330, R405): its work comes to the write of its value. -/
theorem plain_putX_result {body : M Unit} (hr : XForm.ready { srcs := [], d := d, val := w } s) (hb : body s = putX d w s) :
    plain i body s = .next (XForm.result { srcs := [], d := d, val := w } i s) :=
  plain_ok (hb.trans (putX_full w (hr d (by simp))))

/-- The four divisions: the quotient or the remainder is written, then the events accrue. -/
theorem division_result {signed rem : Bool}
    (hr : XForm.ready { srcs := [a, b], d := d, val := w, post := divEvents signed (s.regs.getX a) (s.regs.getX b) } s)
    (hw : (if rem then (divide signed (s.regs.getX a) (s.regs.getX b)).2.1
      else (divide signed (s.regs.getX a) (s.regs.getX b)).1) = w) :
    division i p q b a d signed rem s =
      .next (XForm.result
        { srcs := [a, b], d := d, val := w, post := divEvents signed (s.regs.getX a) (s.regs.getX b) } i s) := by
  have hs : sources [.x p a, .x q b] s = .ok ((), s) :=
    sources_full (by simp [hr a (by simp), hr b (by simp)])
  apply plain_ok
  rw [M.bind_ok hs, M.bind_getX, M.bind_getX, hw, M.bind_ok (putX_full w (hr d (by simp)))]
  simp only [updateRegs, M.update_apply, State.regs_setRegs, State.setRegs_setRegs, mapRegs, divEvents_eq]

end

/-! ## INT, MULDIV and the immediates -/

theorem integerResult : IntegerResult := by
  intro i s f h hr
  cases i with
  | add => cases h; exact alu2_result hr rfl
  | sub => cases h; exact alu2_result hr rfl
  | and => cases h; exact alu2_result hr rfl
  | or => cases h; exact alu2_result hr rfl
  | xor => cases h; exact alu2_result hr rfl
  | shl => cases h; exact alu2_result hr (by rw [low6_toNat])
  | shr => cases h; exact alu2_result hr (by rw [low6_toNat])
  | sha => cases h; exact alu2_result hr (by rw [low6_toNat])
  | slt => cases h; exact alu2_result hr rfl
  | sltw => cases h; exact alu2_result hr rfl
  | min => cases h; exact alu2_result hr (signedMin_eq _ _)
  | max => cases h; exact alu2_result hr (signedMax_eq _ _)
  | minw => cases h; exact alu2_result hr (unsignedMin_eq _ _)
  | maxw => cases h; exact alu2_result hr (unsignedMax_eq _ _)
  | scadd => cases h; exact alu2_result hr rfl
  | clz => cases h; exact alu1_result hr rfl
  | ctz => cases h; exact alu1_result hr rfl
  | popc => cases h; exact alu1_result hr (by rw [popCount_eq_countP])
  | mul => cases h; exact alu2_result hr rfl
  | mulh => cases h; exact alu2_result hr rfl
  | mulhw => cases h; exact alu2_result hr rfl
  | div => cases h; exact division_result hr (by rw [divide_signed]; rfl)
  | divw => cases h; exact division_result hr (by rw [divide_unsigned]; rfl)
  | rem => cases h; exact division_result hr (by rw [divide_signed]; rfl)
  | remw => cases h; exact division_result hr (by rw [divide_unsigned]; rfl)
  | addi => cases h; exact alu1_result hr rfl
  | andi => cases h; exact alu1_result hr rfl
  | ori => cases h; exact alu1_result hr rfl
  | xori => cases h; exact alu1_result hr rfl
  | shli => cases h; exact alu1_result hr rfl
  | shri => cases h; exact alu1_result hr rfl
  | shai => cases h; exact alu1_result hr rfl
  | slti => cases h; exact alu1_result hr (by rw [slt_sext]; rfl)
  | upi => cases h; exact plain_putX_result hr rfl
  | aupc => cases h; exact plain_putX_result hr (M.bind_look id _ s)
  | _ => cases h

/-! ## The compressed forms of the x class -/

theorem compressedScalarResult : CompressedScalarResult := by
  intro i s f h hr
  cases i with
  | cMv => cases h; exact alu1_result hr rfl
  | cAdd => obtain ⟨a, hl, rfl⟩ := Option.map_eq_some_iff.1 h; exact compressed2_result hl hr
  | cSub => obtain ⟨a, hl, rfl⟩ := Option.map_eq_some_iff.1 h; exact compressed2_result hl hr
  | cAnd => obtain ⟨a, hl, rfl⟩ := Option.map_eq_some_iff.1 h; exact compressed2_result hl hr
  | cOr => obtain ⟨a, hl, rfl⟩ := Option.map_eq_some_iff.1 h; exact compressed2_result hl hr
  | cXor => obtain ⟨a, hl, rfl⟩ := Option.map_eq_some_iff.1 h; exact compressed2_result hl hr
  | cMul => obtain ⟨a, hl, rfl⟩ := Option.map_eq_some_iff.1 h; exact compressed2_result hl hr
  | cShli => obtain ⟨a, hl, rfl⟩ := Option.map_eq_some_iff.1 h; exact compressed1_result hl hr
  | cShri => obtain ⟨a, hl, rfl⟩ := Option.map_eq_some_iff.1 h; exact compressed1_result hl hr
  | cAddi => obtain ⟨a, hl, rfl⟩ := Option.map_eq_some_iff.1 h; exact compressed1_result hl hr
  | _ => cases h

/-! ## Branches (17 R331) -/

/-- Waiting changes the wait, its instruction and its beginning, and nothing else of the hart. -/
theorem State.hart_waiting (s : State) (i : Instr) (w : Wait) :
    (s.waiting i w).hart = { s.hart with
      wait := w, waitInstr := some i
      waitFrom := if s.hart.wait = w ∧ s.hart.waitInstr = some i then s.hart.waitFrom else s.cycle } :=
  State.hart_setHart s _

theorem State.regs_waiting (s : State) (i : Instr) (w : Wait) : (s.waiting i w).regs = s.regs := by
  rw [State.regs, State.hart_waiting]; rfl

theorem State.waiting_sameTrapState (s : State) (i : Instr) (w : Wait) : sameTrapState s (s.waiting i w) := by
  simp only [sameTrapState, State.hart_waiting, and_self]

theorem State.waiting_sameDevice (s : State) (i : Instr) (w : Wait) : sameDevice s (s.waiting i w) :=
  ⟨fun _ => rfl, rfl, rfl, rfl, rfl, rfl, rfl, rfl⟩

/-- Of two x sources that wait, one that is empty makes the instruction wait for a register (R68, R69). -/
theorem sources_waiting {a b : Reg} {s : State} (h : ¬ (fullX s a ∧ fullX s b)) :
    sources [.x false a, .x false b] s = .error (.wait .register) := by
  obtain ⟨x, hx, he⟩ : ∃ x ∈ [Src.x false a, .x false b], x.empty s = true := by
    by_cases ha : fullX s a
    · exact ⟨.x false b, by simp, by simpa using fun hb => h ⟨ha, hb⟩⟩
    · exact ⟨.x false a, by simp, by simpa using ha⟩
  obtain ⟨y, hy, hp, -, -⟩ | ⟨-, y, hy, -, hw⟩ := sources_empty hx he
  · simp only [List.mem_cons, List.not_mem_nil, or_false] at hy
    rcases hy with rfl | rfl <;> cases hp
  · simp only [List.mem_cons, List.not_mem_nil, or_false] at hy
    rcases hy with rfl | rfl <;> exact hw

section
variable {i : Instr} {o : BitVec 14} {a b : Reg} {cond : Word → Word → Bool} {s : State}

theorem branch_full (ha : fullX s a) (hb : fullX s b) :
    branch i o b a cond s =
      .next (s.goTo (if cond (s.regs.getX a) (s.regs.getX b) then s.regs.pc + (sext o <<< 1) else s.regs.pc + 4)) := by
  have hs : sources [.x false a, .x false b] s = .ok ((), s) := sources_full (by simp [ha, hb])
  apply jumping_ok
  rw [M.bind_ok hs, M.bind_getX, M.bind_getX]; rfl

theorem branch_empty (h : ¬ (fullX s a ∧ fullX s b)) : branch i o b a cond s = .next (s.waiting i .register) := by
  rw [branch, jumping_error (M.bind_error (sources_waiting h))]; rfl

end

/-- The condition of a claim's branch is the model's, on the values of the two sources. -/
theorem exec_branchForm {i : Instr} {s : State} {taken : Bool} {o : BitVec 14} {a b : Reg}
    (h : branchForm i s = some (taken, o, a, b)) :
    ∃ cond : Word → Word → Bool, exec i s = branch i o b a cond s ∧ cond (s.regs.getX a) (s.regs.getX b) = taken := by
  cases i with
  | beq => cases h; exact ⟨_, rfl, rfl⟩
  | bne => cases h; exact ⟨_, rfl, by simp [bne, beq_eq_decide]⟩
  | blt => cases h; exact ⟨_, rfl, rfl⟩
  | bge => cases h; exact ⟨_, rfl, by simp [BitVec.slt, ← decide_not]⟩
  | bltw => cases h; exact ⟨_, rfl, rfl⟩
  | bgew => cases h; exact ⟨_, rfl, by simp [BitVec.ult, ← decide_not]⟩
  | _ => cases h

end Sys2Proof.Machine

open Sys2Proof.Machine

/-- Settles O1: each form has one of the shapes (`alu2`, `alu1`, `division`, a write without a source, `compressed2` and
`compressed1`), and the shape's function gives the value that the form names. -/
theorem scalarIntegerResult : Obligations.ScalarIntegerResult :=
  ⟨integerResult, compressedScalarResult⟩

/-- Settles O5: each branch is the model's `branch` with its condition, which goes on where its sources are full and waits
where one is empty. -/
theorem branchTarget : Obligations.BranchTarget := by
  intro i s taken o a b h
  obtain ⟨cond, he, rfl⟩ := exec_branchForm h
  refine ⟨fun ha hb => he.trans (branch_full ha hb), fun hw => ⟨_, he.trans (branch_empty hw), ?_⟩⟩
  exact ⟨congrArg Hart.wait (State.hart_waiting s i .register), State.regs_waiting s i _, State.waiting_sameTrapState s i _,
    State.waiting_sameDevice s i _⟩
end

section
/-! The set-up of tiles (O31): one law for each step that names a tile (10 R195, R199), what the two shapes of set-up instruction
answer, and each instruction as one of the shapes. -/

namespace Sys2Proof.Machine

open Sys2Proof.Claims

section
variable {i : Instr} {s : State} {k c : Nat} {on : Bool} {f : Tile → Tile} {t : Tile} {a : Reg}

/-! ## Naming tiles (10 R194, R195, R199) -/

theorem tileHart_ok (h : s.isAccess = false) : tileHart i s = .ok ((), s) := by
  rw [tileHart, M.bind_look, id_eq, h]; rfl

theorem tileNo_some (h : s.run.tiles[k]? = some c) : tileNo i k s = .ok (c, s) := by
  simp [tileNo, h]

/-- A tile that no matrix command holds is used as it is. -/
theorem tileReady_free (hb : (s.core.tiles.get {} c).st ≠ .busy) (hd : (s.core.tiles.get {} c).st ≠ .draining) :
    tileReady c s = .ok (s.core.tiles.get {} c, s) := by
  rw [tileReady, M.bind_look, id_eq, beq_eq_false_iff_ne.2 hb, beq_eq_false_iff_ne.2 hd]; rfl

/-- A tile that a matrix command holds is waited for. -/
theorem tileReady_held (h : (s.core.tiles.get {} c).st = .busy ∨ (s.core.tiles.get {} c).st = .draining) :
    tileReady c s = .error (.wait .resource) := by
  rw [tileReady, M.bind_look, id_eq]
  rcases h with h | h <;> rw [h] <;> rfl

theorem tileUsable_ok (h : t.retired = false) : tileUsable k t s = .ok ((), s) := by
  rw [tileUsable, h]; rfl

theorem tileOn_ok (h : t.st ≠ .off) : tileOn k t s = .ok ((), s) := by
  rw [tileOn, beq_eq_false_iff_ne.2 h]; rfl

theorem putTile_apply : putTile c t s = .ok ((), setTile s c t) := rfl

/-! ## The two shapes (10 R200) -/

/-- A set-up of a free tile writes that tile and passes. -/
theorem tileOp_free (ha : s.isAccess = false) (h : tileFree s k c on) :
    tileOp i k on f s = .next ((setTile s c (f (s.core.tiles.get {} c))).advance i.size) := by
  obtain ⟨hc, hb, hd, hr, ho⟩ := h
  apply plain_ok
  rw [M.bind_ok (tileHart_ok ha), M.bind_ok (tileNo_some hc), M.bind_ok (tileReady_free hb hd), M.bind_ok (tileUsable_ok hr)]
  cases on with
  | false => exact putTile_apply
  | true => exact (M.bind_ok (tileOn_ok (ho rfl))).trans putTile_apply

/-- A set-up of a held tile waits, before the tile is looked at further. -/
theorem tileOp_held (ha : s.isAccess = false) (hc : s.run.tiles[k]? = some c)
    (h : (s.core.tiles.get {} c).st = .busy ∨ (s.core.tiles.get {} c).st = .draining) :
    tileOp i k on f s = .next (s.waiting i .resource) := by
  refine plain_error (e := .wait .resource) ?_
  rw [M.bind_ok (tileHart_ok ha), M.bind_ok (tileNo_some hc), M.bind_error (tileReady_held h)]

/-- TPRED of a full register with a value that it allows. -/
theorem predicate_full (ha : s.isAccess = false) (hx : fullX s a) (hv : badPredicate (s.regs.getX a) = false) :
    predicate i a s = .next ((mapRegs s (fun r => { r with tpred := (s.regs.getX a).extractLsb' 0 16 })).advance i.size) := by
  have hs : sources [.x false a] s = .ok ((), s) := sources_full (by simp [hx])
  apply plain_ok
  rw [M.bind_ok (tileHart_ok ha), M.bind_ok hs, M.bind_getX, hv]
  rfl

/-! ## Each instruction has its shape (19 R393, R398, R399, R403) -/

theorem exec_tileForm (h : tileForm i = some (k, on, f)) : exec i s = tileOp i k on f s := by
  cases i with
  | tcfg
  | toff0 | toff1 | toff2 | toff3 | toff4 | toff5 | toff6 | toff7
  | tzero0 | tzero1 | tzero2 | tzero3 | tzero4 | tzero5 | tzero6 | tzero7 => cases h; rfl
  | _ => cases h

theorem exec_predForm (h : predForm i = some a) : exec i s = predicate i a s := by
  cases i with
  | tpred0 | tpred1 | tpred2 | tpred3 | tpred4 | tpred5 | tpred6 | tpred7
  | tpred8 | tpred9 | tpred10 | tpred11 | tpred12 | tpred13 | tpred14 | tpred15
  | tpred16 | tpred17 | tpred18 | tpred19 | tpred20 | tpred21 | tpred22 | tpred23
  | tpred24 | tpred25 | tpred26 | tpred27 | tpred28 | tpred29 | tpred30 | tpred31 => cases h; rfl
  | _ => cases h

end

end Sys2Proof.Machine

open Sys2Proof.Machine

/-- Settles O31: each form has the shape `tileOp` or `predicate`; `tileOp` writes the named tile alone where it is free and waits,
with registers, cores and memory untouched, where a matrix command holds it. -/
theorem tileSetUp : Obligations.TileSetUp := by
  refine ⟨fun i s k c on f h ha hf => ?free, fun i s k c on f h ha hc hb => ?held, fun i a s h ha hx hv => ?pred⟩
  case free => exact (exec_tileForm h).trans (tileOp_free ha hf)
  case held =>
    obtain ⟨-, hcores, -⟩ := State.waiting_sameDevice s i .resource
    exact ⟨_, (exec_tileForm h).trans (tileOp_held ha hc hb), congrArg Hart.wait (State.hart_waiting s i .resource),
      State.regs_waiting s i _, hcores, rfl, State.waiting_sameTrapState s i _⟩
  case pred => exact (exec_predForm h).trans (predicate_full ha hx hv)
end
